-- ==== Sys2Proof/Word.lean ====
section
/-!
DEFINITION. The word types of the Novrak N9: 64-bit words, bytes, and the 20-bit program-store address (R3, R119, R120).
-/
namespace Sys2Proof

/-- A 64-bit word: a word register of a Till, a BAR0 register, a memory word (R119, R542). -/
abbrev Word := BitVec 64

/-- One byte of memory (R3). -/
abbrev Byte := BitVec 8

/-- The number of a word register, w0 to w31 (R119). -/
abbrev RegNo := BitVec 5

/-- A TASK_ID, 0 to 95 in a valid task table (R48). -/
abbrev TaskId := BitVec 7

/-- One of the sixteen Stalls (R13). -/
abbrev StallId := Fin 16

/-- One of the four Markets (R13). -/
abbrev MarketId := Fin 4

/-- A Till, hardware context 0 or 1 of a Stall (R13, R15). -/
structure TillId where
  stall : StallId
  till : Fin 2
deriving DecidableEq, Repr

/-- The Market of a Stall: Market m holds Stalls 4m to 4m + 3 (R14). -/
def marketOf (s : StallId) : MarketId := ⟨s.val / 4, by omega⟩

end Sys2Proof
end

