-- ==== Sys2Proof/Machine/Bits.lean ====
section
/-!
DEFINITION. Bit fields, byte order, sign extension, saturation and list helpers that every other file of the machine uses (R3, R25, R553).
-/
namespace Sys2Proof.Machine

/-- `f v`; the match makes an evaluator meet a numeral before it goes on, so that long folds stay shallow. -/
def withNat {α : Type} (v : Nat) (f : Nat → α) : α :=
  match v with
  | 0 => f 0
  | n + 1 => f (n + 1)

/-- Bits `[hi..lo]` of a word, as a number (R3). -/
def bits (w : Word) (hi lo : Nat) : Nat := (w.toNat >>> lo) % 2 ^ (hi + 1 - lo)

/-- Bit `i` of a word (R3). -/
def bit (w : Word) (i : Nat) : Bool := w.getLsbD i

/-- A number placed at bit `lo` of a word; what lies above bit 63 is lost. -/
def field (lo : Nat) (v : Nat) : Word := BitVec.ofNat 64 (v <<< lo)

/-- A Boolean placed at bit `lo` of a word. -/
def flag (lo : Nat) (b : Bool) : Word := field lo b.toNat

/-- Bits `[hi..lo]` of `w` replaced by the low bits of `v`. -/
def putBits (w : Word) (hi lo v : Nat) : Word :=
  let m : Word := BitVec.ofNat 64 ((2 ^ (hi + 1 - lo) - 1) <<< lo)
  (w &&& ~~~m) ||| (field lo v &&& m)

/-- The low `n` bits of `v` read as a two's complement number. -/
def signedOf (n v : Nat) : Int :=
  let u := v % 2 ^ n
  if 2 * u < 2 ^ n then (u : Int) else (u : Int) - (2 ^ n : Nat)

/-- Bits `[hi..lo]` of a word, read as a signed number. -/
def sbits (w : Word) (hi lo : Nat) : Int := signedOf (hi + 1 - lo) (bits w hi lo)

/-- The signed value of a word. -/
def sword (w : Word) : Int := w.toInt

/-- A word from an exact integer, modulo 2^64 (R11). -/
def wordOfInt (i : Int) : Word := BitVec.ofInt 64 i

/-- Division rounding toward minus infinity (R11, R464). -/
def fdiv (a b : Int) : Int := Int.fdiv a b

/-- `n` bytes of a number, little-endian (R3). -/
def bytesOfNat : Nat → Nat → List Byte
  | 0, _ => []
  | n + 1, v => BitVec.ofNat 8 v :: bytesOfNat n (v / 256)

/-- The number a little-endian byte string holds (R3). -/
def natOfBytes : List Byte → Nat
  | [] => 0
  | b :: r => b.toNat + 256 * natOfBytes r

/-- The eight bytes of a word (R3). -/
def bytesOfWord (w : Word) : List Byte := bytesOfNat 8 w.toNat

/-- The word at the start of a byte string, absent bytes 0 (R3). -/
def wordOfBytes (l : List Byte) : Word := BitVec.ofNat 64 (natOfBytes (l.take 8))

/-- The bytes of a list of words (R3). -/
def bytesOfWords (l : List Word) : List Byte := l.flatMap bytesOfWord

/-- Word `i` (8-byte word at byte offset `off`) of a byte string. -/
def wordAt (l : List Byte) (off : Nat) : Word := wordOfBytes (l.drop off)

/-- A byte string cut or padded with zero bytes to length `n`. -/
def fitBytes (n : Nat) (l : List Byte) : List Byte :=
  l.take n ++ List.replicate (n - l.length) 0

/-- All 8-byte words of a byte string, by structural recursion on a fuel of its length. -/
def wordsOfBytesAux : Nat → List Byte → List Word
  | 0, _ => []
  | n + 1, l => if l.isEmpty then [] else wordOfBytes l :: wordsOfBytesAux n (l.drop 8)

/-- All 8-byte words of a byte string, the last one padded with zeros. -/
def wordsOfBytes (l : List Byte) : List Word := wordsOfBytesAux l.length l

/-- Number of 1 bits of a number below `2^n`. -/
def popCount : Nat → Nat → Nat
  | 0, _ => 0
  | n + 1, v => v % 2 + popCount n (v / 2)

/-- One step of a counter that saturates at `2^w - 1`, and whether this step reaches that value (R553, R556). -/
def satStep (w : Nat) (c : Nat) : Nat × Bool :=
  let m := 2 ^ w - 1
  if c + 1 < m then (c + 1, false)
  else if c + 1 = m then (m, true)
  else (m, false)

/-- A value held in `w` bits that saturates without an event (R74, R553). -/
def satTo (w : Nat) (v : Nat) : Nat := min v (2 ^ w - 1)

/-- Division rounding up. -/
def ceilDiv (a b : Nat) : Nat := (a + b - 1) / b

/-- The elements of a list with their positions. -/
def enumFrom {α : Type} : Nat → List α → List (Nat × α)
  | _, [] => []
  | n, a :: r => (n, a) :: enumFrom (n + 1) r

/-- The first index whose element satisfies `p`. -/
def indexWhere {α : Type} (p : α → Bool) : List α → Option Nat
  | [] => none
  | a :: r => if p a then some 0 else (indexWhere p r).map (· + 1)

/-- The element with the least key, the first one among equals. -/
def minBy {α : Type} (key : α → Nat) : List α → Option α
  | [] => none
  | a :: r =>
    match minBy key r with
    | none => some a
    | some b => if key b < key a then some b else some a

/-- Every element a function maps to itself or a changed one, where the predicate holds. -/
def mapIf {α : Type} (p : α → Bool) (f : α → α) (l : List α) : List α :=
  l.map (fun a => if p a then f a else a)

/-- The first element that satisfies `p` changed by `f`. -/
def mapFirst {α : Type} (p : α → Bool) (f : α → α) : List α → List α
  | [] => []
  | a :: r => if p a then f a :: r else a :: mapFirst p f r

/-- The list without its first element that satisfies `p`. -/
def dropFirst {α : Type} (p : α → Bool) : List α → List α
  | [] => []
  | a :: r => if p a then r else a :: dropFirst p r

/-- A vector's element at an index given as a number, with a default outside the range. -/
def vget {α : Type} {n : Nat} (v : Vector α n) (i : Nat) (d : α) : α := v[i]?.getD d

/-- A vector with the element at an index replaced; unchanged outside the range. -/
def vset {α : Type} {n : Nat} (v : Vector α n) (i : Nat) (x : α) : Vector α n := v.setIfInBounds i x

/-- A vector with the element at an index changed by a function; unchanged outside the range. -/
def vmod {α : Type} {n : Nat} (v : Vector α n) (i : Nat) (f : α → α) : Vector α n :=
  if h : i < n then v.set i (f v[i]) else v

end Sys2Proof.Machine
end

