-- ==== Sys2Proof/Syntax.lean ====
section
/-!
DEFINITION. The commands of the Novrak N9: one constructor per row of the opcode table, with the operands that arrive with it.
-/
namespace Sys2Proof

/-- What a unit learns of its peer before a formation (R400): RED.CTL.EN and PREFER, LINKVER, project identity, clock and serial number, mandate, epoch block, pair compatibility number and port MAC. -/
structure PeerInfo where
  enabled : Bool
  prefer : Bool
  linkver : BitVec 8
  project : Word
  locked : Bool
  gmid : Word
  clkdom : BitVec 7
  serial : Word
  mandate : Bool
  block : BitVec 32
  compat : BitVec 16
  mac : Word
deriving DecidableEq, Repr

/-- A received PTP message as the time-sync service uses it (R257, R271): an Announce with its data set, a Sync with its raw stamp and corrected origin, a delay response with the peer's receive stamp, and the loss of every master the BMCA could select. -/
inductive PtpMsg where
  | announce (domain : BitVec 7) (prio1 cls acc : BitVec 8) (variance : BitVec 16) (prio2 : BitVec 8) (gmid : Word) (steps : BitVec 16)
  | sync (domain : BitVec 7) (raw origin : Word)
  | delayResp (domain : BitVec 7) (t4 : Word)
deriving DecidableEq, Repr

/-- The commands of the Novrak N9: one constructor per row of spec/opcode_table.json. -/
inductive Instr where
  /-- ADD (R126): Writes rs1 + rs2 modulo 2^64 into rd. -/
  | add (t : TillId) (rd rs1 rs2 : RegNo)
  /-- SUB (R126): Writes rs1 - rs2 modulo 2^64 into rd. -/
  | sub (t : TillId) (rd rs1 rs2 : RegNo)
  /-- AND (R126): Writes the bitwise AND of rs1 and rs2 into rd. -/
  | and (t : TillId) (rd rs1 rs2 : RegNo)
  /-- OR (R126): Writes the bitwise OR of rs1 and rs2 into rd. -/
  | or (t : TillId) (rd rs1 rs2 : RegNo)
  /-- XOR (R126): Writes the bitwise XOR of rs1 and rs2 into rd. -/
  | xor (t : TillId) (rd rs1 rs2 : RegNo)
  /-- ANDC (R126): Writes rs1 AND NOT rs2 into rd. -/
  | andc (t : TillId) (rd rs1 rs2 : RegNo)
  /-- ORC (R126): Writes rs1 OR NOT rs2 into rd. -/
  | orc (t : TillId) (rd rs1 rs2 : RegNo)
  /-- SHL (R126): Shifts rs1 left by rs2[5..0] into rd. -/
  | shl (t : TillId) (rd rs1 rs2 : RegNo)
  /-- SHRU (R126): Shifts rs1 right with zero fill by rs2[5..0] into rd. -/
  | shru (t : TillId) (rd rs1 rs2 : RegNo)
  /-- SHRS (R126): Shifts rs1 right with sign fill by rs2[5..0] into rd. -/
  | shrs (t : TillId) (rd rs1 rs2 : RegNo)
  /-- ROTR (R126): Rotates rs1 right by rs2[5..0] into rd. -/
  | rotr (t : TillId) (rd rs1 rs2 : RegNo)
  /-- CLTS (R126): Writes 1 into rd if rs1 < rs2 signed, else 0. -/
  | clts (t : TillId) (rd rs1 rs2 : RegNo)
  /-- CLTU (R126): Writes 1 into rd if rs1 < rs2 unsigned, else 0. -/
  | cltu (t : TillId) (rd rs1 rs2 : RegNo)
  /-- CEQ (R126): Writes 1 into rd if rs1 equals rs2, else 0. -/
  | ceq (t : TillId) (rd rs1 rs2 : RegNo)
  /-- MINS (R126): Writes the signed minimum of rs1 and rs2 into rd. -/
  | mins (t : TillId) (rd rs1 rs2 : RegNo)
  /-- MAXS (R126): Writes the signed maximum of rs1 and rs2 into rd. -/
  | maxs (t : TillId) (rd rs1 rs2 : RegNo)
  /-- MINU (R126): Writes the unsigned minimum of rs1 and rs2 into rd. -/
  | minu (t : TillId) (rd rs1 rs2 : RegNo)
  /-- MAXU (R126): Writes the unsigned maximum of rs1 and rs2 into rd. -/
  | maxu (t : TillId) (rd rs1 rs2 : RegNo)
  /-- MUL (R126): Writes bits 63..0 of rs1 x rs2 into rd. -/
  | mul (t : TillId) (rd rs1 rs2 : RegNo)
  /-- MULHS (R126): Writes bits 127..64 of the signed product into rd. -/
  | mulhs (t : TillId) (rd rs1 rs2 : RegNo)
  /-- MULHU (R126): Writes bits 127..64 of the unsigned product into rd. -/
  | mulhu (t : TillId) (rd rs1 rs2 : RegNo)
  /-- DIVS (R127): Writes the signed quotient truncated toward zero, or raises DIVZERO on a zero divisor. -/
  | divs (t : TillId) (rd rs1 rs2 : RegNo)
  /-- DIVU (R127): Writes the unsigned quotient, or raises DIVZERO on a zero divisor. -/
  | divu (t : TillId) (rd rs1 rs2 : RegNo)
  /-- MODS (R127): Writes the signed remainder with the sign of rs1, or raises DIVZERO on a zero divisor. -/
  | mods (t : TillId) (rd rs1 rs2 : RegNo)
  /-- MODU (R127): Writes the unsigned remainder, or raises DIVZERO on a zero divisor. -/
  | modu (t : TillId) (rd rs1 rs2 : RegNo)
  /-- EXTS_8 (R126): Sign-extends rs1[7..0] into rd. -/
  | exts8 (t : TillId) (rd rs1 rs2 : RegNo)
  /-- EXTS_16 (R126): Sign-extends rs1[15..0] into rd. -/
  | exts16 (t : TillId) (rd rs1 rs2 : RegNo)
  /-- EXTS_32 (R126): Sign-extends rs1[31..0] into rd. -/
  | exts32 (t : TillId) (rd rs1 rs2 : RegNo)
  /-- EXTU_8 (R126): Zero-extends rs1[7..0] into rd. -/
  | extu8 (t : TillId) (rd rs1 rs2 : RegNo)
  /-- EXTU_16 (R126): Zero-extends rs1[15..0] into rd. -/
  | extu16 (t : TillId) (rd rs1 rs2 : RegNo)
  /-- EXTU_32 (R126): Zero-extends rs1[31..0] into rd. -/
  | extu32 (t : TillId) (rd rs1 rs2 : RegNo)
  /-- LZC (R126): Writes the number of leading zero bits of rs1 into rd. -/
  | lzc (t : TillId) (rd rs1 rs2 : RegNo)
  /-- TZC (R126): Writes the number of trailing zero bits of rs1 into rd. -/
  | tzc (t : TillId) (rd rs1 rs2 : RegNo)
  /-- POPC (R126): Writes the number of 1 bits of rs1 into rd. -/
  | popc (t : TillId) (rd rs1 rs2 : RegNo)
  /-- BITGET (R126): Writes bit rs2[5..0] of rs1 into rd. -/
  | bitget (t : TillId) (rd rs1 rs2 : RegNo)
  /-- BITSET (R126): Writes rs1 with bit rs2[5..0] set into rd. -/
  | bitset (t : TillId) (rd rs1 rs2 : RegNo)
  /-- BITCLR (R126): Writes rs1 with bit rs2[5..0] cleared into rd. -/
  | bitclr (t : TillId) (rd rs1 rs2 : RegNo)
  /-- BITFLP (R126): Writes rs1 with bit rs2[5..0] inverted into rd. -/
  | bitflp (t : TillId) (rd rs1 rs2 : RegNo)
  /-- ADDK (R128): Writes rs1 + sext(imm12) into rd. -/
  | addk (t : TillId) (rd rs1 : RegNo) (imm : BitVec 12)
  /-- CLTSK (R128): Writes 1 if rs1 < sext(imm12) signed, else 0. -/
  | cltsk (t : TillId) (rd rs1 : RegNo) (imm : BitVec 12)
  /-- CLTUK (R128): Writes 1 if rs1 < sext(imm12) unsigned, else 0. -/
  | cltuk (t : TillId) (rd rs1 : RegNo) (imm : BitVec 12)
  /-- ANDK (R128): Writes rs1 AND sext(imm12) into rd. -/
  | andk (t : TillId) (rd rs1 : RegNo) (imm : BitVec 12)
  /-- ORK (R128): Writes rs1 OR sext(imm12) into rd. -/
  | ork (t : TillId) (rd rs1 : RegNo) (imm : BitVec 12)
  /-- XORK (R128): Writes rs1 XOR sext(imm12) into rd. -/
  | xork (t : TillId) (rd rs1 : RegNo) (imm : BitVec 12)
  /-- SHLK (R128): Shifts rs1 left by imm[5..0]. -/
  | shlk (t : TillId) (rd rs1 : RegNo) (amt : BitVec 6)
  /-- SHRUK (R128): Shifts rs1 right with zero fill by imm[5..0]. -/
  | shruk (t : TillId) (rd rs1 : RegNo) (amt : BitVec 6)
  /-- SHRSK (R128): Shifts rs1 right with sign fill by imm[5..0]. -/
  | shrsk (t : TillId) (rd rs1 : RegNo) (amt : BitVec 6)
  /-- ROTRK (R128): Rotates rs1 right by imm[5..0]. -/
  | rotrk (t : TillId) (rd rs1 : RegNo) (amt : BitVec 6)
  /-- BITGETK (R128): Writes bit imm[5..0] of rs1 into rd. -/
  | bitgetk (t : TillId) (rd rs1 : RegNo) (amt : BitVec 6)
  /-- BITSETK (R128): Writes rs1 with bit imm[5..0] set into rd. -/
  | bitsetk (t : TillId) (rd rs1 : RegNo) (amt : BitVec 6)
  /-- BITCLRK (R128): Writes rs1 with bit imm[5..0] cleared into rd. -/
  | bitclrk (t : TillId) (rd rs1 : RegNo) (amt : BitVec 6)
  /-- BITFLPK (R128): Writes rs1 with bit imm[5..0] inverted into rd. -/
  | bitflpk (t : TillId) (rd rs1 : RegNo) (amt : BitVec 6)
  /-- CEQK (R128): Writes 1 if rs1 equals sext(imm12), else 0. -/
  | ceqk (t : TillId) (rd rs1 : RegNo) (imm : BitVec 12)
  /-- LUP (R129): Writes sext(imm20) x 4,096 into rd. -/
  | lup (t : TillId) (rd : RegNo) (imm : BitVec 20)
  /-- DADD (R130): Binary64 addition, round to nearest even. -/
  | dadd (t : TillId) (rd rs1 rs2 : RegNo)
  /-- DSUB (R130): Binary64 subtraction. -/
  | dsub (t : TillId) (rd rs1 rs2 : RegNo)
  /-- DMUL (R130): Binary64 multiplication. -/
  | dmul (t : TillId) (rd rs1 rs2 : RegNo)
  /-- DDIV (R131): Binary64 division with the special results of R131. -/
  | ddiv (t : TillId) (rd rs1 rs2 : RegNo)
  /-- DSQRT (R130): Binary64 square root of rs1. -/
  | dsqrt (t : TillId) (rd rs1 rs2 : RegNo)
  /-- DMIN (R131): Binary64 minimum with the NaN and signed-zero rules. -/
  | dmin (t : TillId) (rd rs1 rs2 : RegNo)
  /-- DMAX (R131): Binary64 maximum with the NaN and signed-zero rules. -/
  | dmax (t : TillId) (rd rs1 rs2 : RegNo)
  /-- DCEQ (R131): Writes integer 1 if rs1 = rs2 as binary64, else 0. -/
  | dceq (t : TillId) (rd rs1 rs2 : RegNo)
  /-- DCLT (R131): Writes integer 1 if rs1 < rs2 as binary64, else 0. -/
  | dclt (t : TillId) (rd rs1 rs2 : RegNo)
  /-- DCLE (R131): Writes integer 1 if rs1 <= rs2 as binary64, else 0. -/
  | dcle (t : TillId) (rd rs1 rs2 : RegNo)
  /-- ITOD (R130): Converts a signed integer to binary64. -/
  | itod (t : TillId) (rd rs1 rs2 : RegNo)
  /-- DTOI (R131): Converts binary64 to a signed integer, rounded and saturated. -/
  | dtoi (t : TillId) (rd rs1 rs2 : RegNo)
  /-- DTOIZ (R131): Converts binary64 to a signed integer, truncated and saturated. -/
  | dtoiz (t : TillId) (rd rs1 rs2 : RegNo)
  /-- DTOS (R130): Rounds binary64 to binary32 in rd[31..0]. -/
  | dtos (t : TillId) (rd rs1 rs2 : RegNo)
  /-- STOD (R130): Converts binary32 in rs1[31..0] to binary64. -/
  | stod (t : TillId) (rd rs1 rs2 : RegNo)
  /-- LD_D (R138): Loads a 64-bit value from rs1 + imm12 into rd, with alignment and access checks. -/
  | ldD (t : TillId) (rd rs1 : RegNo) (imm : BitVec 12)
  /-- LD_W (R138): Loads a sign-extended 32-bit value. -/
  | ldW (t : TillId) (rd rs1 : RegNo) (imm : BitVec 12)
  /-- LD_H (R138): Loads a sign-extended 16-bit value. -/
  | ldH (t : TillId) (rd rs1 : RegNo) (imm : BitVec 12)
  /-- LD_B (R138): Loads a sign-extended byte. -/
  | ldB (t : TillId) (rd rs1 : RegNo) (imm : BitVec 12)
  /-- LD_WU (R138): Loads a zero-extended 32-bit value. -/
  | ldWu (t : TillId) (rd rs1 : RegNo) (imm : BitVec 12)
  /-- LD_HU (R138): Loads a zero-extended 16-bit value. -/
  | ldHu (t : TillId) (rd rs1 : RegNo) (imm : BitVec 12)
  /-- LD_BU (R138): Loads a zero-extended byte. -/
  | ldBu (t : TillId) (rd rs1 : RegNo) (imm : BitVec 12)
  /-- ST_D (R138): Stores rs2 as 64 bits at rs1 + imm. -/
  | stD (t : TillId) (rs1 rs2 : RegNo) (imm : BitVec 12)
  /-- ST_W (R138): Stores rs2[31..0] at rs1 + imm. -/
  | stW (t : TillId) (rs1 rs2 : RegNo) (imm : BitVec 12)
  /-- ST_H (R138): Stores rs2[15..0] at rs1 + imm. -/
  | stH (t : TillId) (rs1 rs2 : RegNo) (imm : BitVec 12)
  /-- ST_B (R138): Stores rs2[7..0] at rs1 + imm. -/
  | stB (t : TillId) (rs1 rs2 : RegNo) (imm : BitVec 12)
  /-- LGET (R142): Lane read merging masked image bits into rd. -/
  | lget (t : TillId) (rd rs1 rm : RegNo) (off : BitVec 6)
  /-- LAND (R142): Lane read ANDing masked image bits into rd. -/
  | land (t : TillId) (rd rs1 rm : RegNo) (off : BitVec 6)
  /-- LOR (R142): Lane read ORing masked image bits into rd. -/
  | lor (t : TillId) (rd rs1 rm : RegNo) (off : BitVec 6)
  /-- LXOR (R142): Lane read XORing masked image bits into rd. -/
  | lxor (t : TillId) (rd rs1 rm : RegNo) (off : BitVec 6)
  /-- LANDN (R142): Lane read clearing rd bits where masked image bits are set. -/
  | landn (t : TillId) (rd rs1 rm : RegNo) (off : BitVec 6)
  /-- LCNT (R142): Lane read counting 1 bits of the masked image word. -/
  | lcnt (t : TillId) (rd rs1 rm : RegNo) (off : BitVec 6)
  /-- LPUT (R142): Lane write putting masked rd bits into the image word. -/
  | lput (t : TillId) (rd rs1 rm : RegNo) (off : BitVec 6)
  /-- LSETB (R142): Lane write setting masked bits of the image word. -/
  | lsetb (t : TillId) (rd rs1 rm : RegNo) (off : BitVec 6)
  /-- LCLRB (R142): Lane write clearing masked bits of the image word. -/
  | lclrb (t : TillId) (rd rs1 rm : RegNo) (off : BitVec 6)
  /-- LINV (R142): Lane write inverting masked bits of the image word. -/
  | linv (t : TillId) (rd rs1 rm : RegNo) (off : BitVec 6)
  /-- BCR (R133): Compares two registers under cond and branches when it holds. -/
  | bcr (t : TillId) (cond : BitVec 3) (rs1 rs2 : RegNo) (disp : BitVec 12)
  /-- BCI (R133): Compares a register with imm5 under cond and branches when it holds. -/
  | bci (t : TillId) (cond : BitVec 3) (rs1 : RegNo) (imm : BitVec 5) (disp : BitVec 12)
  /-- BBS (R141): Branches when bit b6 of the word at rs1 is 1. -/
  | bbs (t : TillId) (rs1 : RegNo) (b : BitVec 6) (disp : BitVec 12)
  /-- BBC (R141): Branches when bit b6 of the word at rs1 is 0. -/
  | bbc (t : TillId) (rs1 : RegNo) (b : BitVec 6) (disp : BitVec 12)
  /-- EDGE_R (R144): Detects a rising edge against the previous-value bit in Market memory and updates it atomically. -/
  | edgeR (t : TillId) (rd rs1 : RegNo) (imm : BitVec 12)
  /-- EDGE_F (R144): Detects a falling edge against the previous-value bit and updates it. -/
  | edgeF (t : TillId) (rd rs1 : RegNo) (imm : BitVec 12)
  /-- EDGE_B (R144): Detects either edge against the previous-value bit and updates it. -/
  | edgeB (t : TillId) (rd rs1 : RegNo) (imm : BitVec 12)
  /-- LR_D (R148): Loads a Market-memory word and sets the reservation. -/
  | lrD (t : TillId) (rd rs1 rs2 : RegNo)
  /-- SC_D (R148): Stores conditionally on the reservation, returns success, and empties the reservation. -/
  | scD (t : TillId) (rd rs1 rs2 : RegNo)
  /-- TAS (R148): Returns a byte and sets it to 1 atomically. -/
  | tas (t : TillId) (rd rs1 rs2 : RegNo)
  /-- SYS (R154): Places a service request in the Market's Teller queue and returns TICKET and STATUS. -/
  | sysCall (t : TillId) (rd rs1 : RegNo) (imm : BitVec 12)
  /-- FENCE (R152): Issues a fence over the named ordering classes for the issuing Till. -/
  | fence (t : TillId) (rd rs1 : RegNo) (imm : BitVec 12)
  /-- FENCE_COMPLETE (R38): A fence completes once every earlier access in its classes has been performed. -/
  | fenceComplete (t : TillId)
  /-- TMRQ (R146): Writes the release instant, tick number or period of the release into rd. -/
  | tmrq (t : TillId) (rd rs1 : RegNo) (imm : BitVec 12)
  /-- NOP (R153): Advances PC by 4 and changes nothing else. -/
  | nop (t : TillId) (rd rs1 : RegNo) (imm : BitVec 12)
  /-- JMP (R134): Jumps PC-relative. -/
  | jmp (t : TillId) (rd : RegNo) (imm : BitVec 20)
  /-- CALL (R134): Saves w29 in w28, sets the instance pointer and return link, and jumps PC-relative. -/
  | call (t : TillId) (rd : RegNo) (imm : BitVec 20)
  /-- CALLR (R134): Calls a register-relative target like CALL. -/
  | callr (t : TillId) (rd rs1 : RegNo) (imm : BitVec 12)
  /-- JR (R134): Jumps to rs1 + imm12; to the release end address it ends the task body. -/
  | jr (t : TillId) (rd rs1 : RegNo) (imm : BitVec 12)
  /-- RET (R134): Returns to w30 and restores w29 from w28; to the release end address it ends the task body. -/
  | ret (t : TillId) (rd rs1 : RegNo) (imm : BitVec 12)
  /-- BREAKPOINT_REACHED (R68): A non-speculative Till reaches a breakpoint, freezes the task and may enter HOLD. -/
  | breakpointReached (t : TillId)
  /-- RESERVATION_TIMEOUT (R149): 1,024 Market cycles after LR.D the reservation becomes empty. -/
  | reservationTimeout (t : TillId)
  /-- TRANSIENT_FAULT (R107): A detected transient fault in a release starts a recovery replay or a task fault. -/
  | transientFault (t : TillId) (kind : Fin 4) (addr : BitVec 40)
  /-- RELEASE_SIGNAL_ARRIVAL (R47): A release signal reaches the Market island and dispatches or skips the release. -/
  | releaseSignalArrival (task : TaskId)
  /-- DISPATCH (R46): A free Stall dispatches its highest-priority pending release and starts its input latch. -/
  | dispatch (stall : StallId)
  /-- SPECULATION_START (R84): A free Stall starts a speculative release of the eligible task with the earliest next instant. -/
  | speculationStart (stall : StallId)
  /-- COMPARISON_COMPLETE (R94): The run-ahead comparison ends and the release commits, continues or rolls back. -/
  | comparisonComplete (t : TillId)
  /-- VERIFICATION_REPLAY_DONE (R114): A verification replay ends with the hash of the outputs it would have committed. -/
  | verificationReplayDone (t : TillId)
  /-- EVENT_TRIGGER_ARRIVAL (R75): An event-task trigger arrives and makes a pending release or is dropped. -/
  | eventTriggerArrival (task : TaskId)
  /-- DIRECT_OUTPUT_WORD (R320): A direct output word reaches the field die and sets owned masked channels. -/
  | directOutputWord
  /-- BANK_TRANSACTION_START (R33): An image bank starts the waiting transaction of highest priority. -/
  | bankTransactionStart (m : MarketId)
  /-- BANK_AGEING (R34): A transaction that has waited 8 us is raised above younger ones. -/
  | bankAgeing (m : MarketId)
  /-- BANK_TRANSACTION_END (R35): A bank transaction completes, such as a commit, latch, frame write or gather. -/
  | bankTransactionEnd (m : MarketId)
  /-- IMAGE_ROUTE (R55): After a commit a route copies a range of the output section into an input half. -/
  | imageRoute (index : Fin 32)
  /-- SCRUB (R26): The scrubber reads the next SRAM word, corrects or repairs errors and counts them. -/
  | scrub (upset : Fin 3)
  /-- NOP_COMMAND (R351): Ring command that does nothing but complete. -/
  | nopCommand (ring : Fin 16)
  /-- FENCE_DESCRIPTOR (R347): Ring FENCE that holds later commands of its ring until earlier accesses are performed. -/
  | fenceDescriptor (ring : Fin 16)
  /-- DMA_COPY (R366): Checks and queues a copy between host and system addresses on a channel. -/
  | dmaCopy (ring : Fin 16)
  /-- DMA_WRITE (R351): Queues a write of one value of 1 to 8 bytes. -/
  | dmaWrite (ring : Fin 16)
  /-- ARM (R63): Enables outputs in STOP, or is refused without a project. -/
  | arm (ring : Fin 16)
  /-- DISARM (R63): Disables outputs and enters STOP with ARMED 0. -/
  | disarm (ring : Fin 16)
  /-- RUN (R82): Starts the project with a start kind after waking the Stalls. -/
  | runCommand (ring : Fin 16)
  /-- STOP (R66): Requests STOP at the effect instant. -/
  | stopCommand (ring : Fin 16)
  /-- CONTINUE (R70): Resumes a frozen task's release. -/
  | continueTask (ring : Fin 16)
  /-- STEP (R70): Executes one instruction of a frozen task and freezes it again. -/
  | stepTask (ring : Fin 16)
  /-- BREAK_SET (R68): Sets a breakpoint for a task at a program-store address. -/
  | breakSet (ring : Fin 16)
  /-- BREAK_CLEAR (R351): Removes a breakpoint. -/
  | breakClear (ring : Fin 16)
  /-- TASK_STATUS (R73): Writes a snapshot of a task's status record into host memory. -/
  | taskStatus (ring : Fin 16)
  /-- TASK_CLEAR (R74): Clears the clearable counters of a task. -/
  | taskClear (ring : Fin 16)
  /-- DBG_STATE (R354): Writes the state of a frozen Till into host memory. -/
  | dbgState (ring : Fin 16)
  /-- PROJECT_LOAD (R511): Writes, verifies and installs a new project in HELD or STOP. -/
  | projectLoad (ring : Fin 16) (data : List Byte)
  /-- CHANGE_LOAD (R170): Loads and checks a change package. -/
  | changeLoad (ring : Fin 16) (data : List Byte)
  /-- CHANGE_APPLY (R179): Applies a loaded change by prepare windows and switches. -/
  | changeApply (ring : Fin 16)
  /-- CHANGE_ABORT (R171): Discards the loaded package before the first switch. -/
  | changeAbort (ring : Fin 16)
  /-- XWRITE (R178): Writes host bytes into Market memory within one exchange window. -/
  | xwrite (ring : Fin 16) (data : List Byte)
  /-- FORCE_SET (R189): Adds or replaces a force table entry. -/
  | forceSet (ring : Fin 16)
  /-- FORCE_CLEAR (R194): Removes a force table entry. -/
  | forceClear (ring : Fin 16)
  /-- FORCE_LIST (R188): Writes the force table into host memory. -/
  | forceList (ring : Fin 16)
  /-- CAM_LOAD (R222): Checks and loads or empties a cam table. -/
  | camLoad (ring : Fin 16) (data : List Byte)
  /-- TIME_CONFIG (R352): Sets PTP and time-sync parameters, effective at the next Sync interval. -/
  | timeConfig (ring : Fin 16)
  /-- TIME_STATUS (R352): Writes the time status record into host memory. -/
  | timeStatus (ring : Fin 16)
  /-- BLOCK_ARM (R363): Arms a host buffer in a mailbox for a task block. -/
  | blockArm (ring : Fin 16)
  /-- BLOCK_CANCEL (R363): Completes every armed buffer of a mailbox with ABORTED. -/
  | blockCancel (ring : Fin 16)
  /-- RTC_GET (R467): Returns RTC.COUNT, OPSEC and PWRCYC. -/
  | rtcGet (ring : Fin 16)
  /-- RTC_SETSEC (R467): Writes the RTC seconds and returns the new count. -/
  | rtcSetsec (ring : Fin 16)
  /-- RTC_SETDATE (R467): Sets the RTC from a calendar date. -/
  | rtcSetdate (ring : Fin 16)
  /-- RTC_SHIFT (R467): Shifts the RTC count by a number of ticks. -/
  | rtcShift (ring : Fin 16)
  /-- RTC_CAL (R467): Sets the RTC calibration. -/
  | rtcCal (ring : Fin 16)
  /-- CAL_TO_DATE (R451): Converts a count to a date. -/
  | calToDate (ring : Fin 16)
  /-- DATE_TO_CAL (R451): Converts a date to a count. -/
  | dateToCal (ring : Fin 16)
  /-- REC_READ (R459): Copies recorder records from a cursor into host memory. -/
  | recRead (ring : Fin 16)
  /-- REC_FLUSH (R455): Flushes buffered recorder records to flash. -/
  | recFlush (ring : Fin 16)
  /-- TREND_CONFIG (R467): Configures and restarts a trend channel. -/
  | trendConfig (ring : Fin 16)
  /-- TREND_READ (R466): Copies trend points and a provisional point to host memory. -/
  | trendRead (ring : Fin 16)
  /-- NVS_PUT (R485): Ring command appending a parameter record. -/
  | nvsPut (ring : Fin 16) (data : List Byte)
  /-- NVS_GET (R485): Ring command reading the winning record of a key. -/
  | nvsGet (ring : Fin 16)
  /-- NVS_COMPACT (R483): Starts a compaction of the parameter store. -/
  | nvsCompact (ring : Fin 16)
  /-- FW_LOAD (R504): Writes and verifies a firmware image in the non-current slot. -/
  | fwLoad (ring : Fin 16) (data : List Byte)
  /-- FW_ACTIVATE (R505): Activates a loaded firmware by reset, or live when LIVE = 1. -/
  | fwActivate (ring : Fin 16)
  /-- FW_ACCEPT (R505): Accepts a trial firmware, burns SECVER and revokes keys. -/
  | fwAccept (ring : Fin 16)
  /-- PROJECT_STORE (R512): Stores the full image of the running project with an empty chain. -/
  | projectStore (ring : Fin 16) (data : List Byte)
  /-- ATTEST (R501): Writes a signed attestation report. -/
  | attest (ring : Fin 16) (data : List Byte)
  /-- SEC_PROVISION (R499): Burns security fuses and project key hashes. -/
  | secProvision (ring : Fin 16) (data : List Byte)
  /-- SEC_KEYLOAD (R500): Unwraps and stores a customer AES key. -/
  | secKeyload (ring : Fin 16) (data : List Byte)
  /-- ID_READ (R519): Copies the identity page to host memory. -/
  | idRead (ring : Fin 16)
  /-- WDG_CHECKIN (R437): Ring check-in of a host-owned watchdog slot. -/
  | wdgCheckin (ring : Fin 16)
  /-- PAIR_FORM (R400): Forms a hot-standby pair and starts the state copy. -/
  | pairForm (ring : Fin 16) (peer : PeerInfo)
  /-- PAIR_SWITCH (R403): Hands the mandate to the standby at a named boundary. -/
  | pairSwitch (ring : Fin 16)
  /-- PAIR_LEAVE (R405): Ends the pair on the active or stops following on the standby. -/
  | pairLeave (ring : Fin 16)
  /-- PAIR_STATUS (R405): Writes the pair status record into host memory. -/
  | pairStatus (ring : Fin 16)
  /-- SEND_BLOCK (R362): The Teller serves a task block into the oldest armed buffer of its mailbox. -/
  | sendBlock (m : MarketId)
  /-- LOG_EVENT (R462): The Teller serves a task-logged event. -/
  | logEvent (m : MarketId)
  /-- WDG_CHECKIN_SERVICE (R412): The Teller performs a task's watchdog check-in. -/
  | wdgCheckinService (m : MarketId)
  /-- NVS_PUT_SERVICE (R485): The Teller serves a task's record append. -/
  | nvsPutService (m : MarketId)
  /-- NVS_GET_SERVICE (R485): The Teller serves a task's record read. -/
  | nvsGetService (m : MarketId)
  /-- CAL_CONVERT (R452): The Teller serves a task's calendar conversion. -/
  | calConvert (m : MarketId)
  /-- COMMAND_COMPLETION (R348): A finished command is written back, handed over and announced. -/
  | commandCompletion (ring : Fin 16) (fail : Bool)
  /-- DOORBELL_POLL (R344): The poll timer issues a read of the doorbell page. -/
  | doorbellPoll
  /-- POLL_DATA_ARRIVAL (R347): Poll data arrive and descriptors of new producer ranges are fetched. -/
  | pollDataArrival (ok : Bool) (data : List Byte)
  /-- DESCRIPTOR_ARRIVAL (R347): Fetched descriptors arrive and are begun in ring order. -/
  | descriptorArrival (ring : Fin 16) (ok : Bool) (data : List Byte)
  /-- OWN_TIMEOUT (R350): A descriptor still owned by the host after 1 ms halts its ring. -/
  | ownTimeout (ring : Fin 16)
  /-- HOST_LOST (R358): HOSTTMO passes without a successful poll and HOST_LOST is raised. -/
  | hostLost
  /-- EVENT_BACKLOG_WRITE (R356): A backlogged event is written to the event ring when a slot is free. -/
  | eventBacklogWrite
  /-- INTERRUPT_MODERATION (R357): IMOD passes and one MSI-X message announces waiting entries. -/
  | interruptModeration (ring : Fin 17)
  /-- DMA_BURST (R365): The engine picks a ready channel and moves one burst of up to 4 KB. -/
  | dmaBurst (data : List Byte)
  /-- DMA_REQUEST_FAILURE (R370): A failing request halts its channel with the cause and address latched. -/
  | dmaRequestFailure (chan : Fin 8) (cause : BitVec 3) (dest : Bool)
  /-- HOST_RESET (R339): FLR, hot reset or link down resets the host island and stops polling and DMA. -/
  | hostReset
  /-- BUS_MASTER_DISABLE (R337): BME cleared or D3hot stops all requests and halts DMA channels. -/
  | busMasterDisable (d3 : Bool)
  /-- BAR0_INVALID_ACCESS (R335): An unsupported BAR0 access is refused and reported. -/
  | bar0InvalidAccess (write : Bool) (off : BitVec 18)
  /-- REGISTER_WRITE (R547): A write to a register without a row of its own is judged field by field. -/
  | registerWrite (off : BitVec 18) (val : Word) (teller : Bool)
  /-- RNG_NUDGE (R344): Forces a poll now or after the outstanding one. -/
  | rngNudge (val : Word)
  /-- RING_CONFIG_WRITE (R361): Writes a ring's base or configuration; enabling resets its index, disabling discards unbegun commands. -/
  | ringConfigWrite (off : BitVec 12) (val : Word)
  /-- DMA_CTL_EN_WRITE (R371): Disabling stops channels 0 to 6 and aborts their commands. -/
  | dmaCtlEnWrite (val : Word)
  /-- DMA_BURST_REQUEST (R368): Writing BURST requests or returns Purse tokens for the higher ceiling. -/
  | dmaBurstRequest (val : Word)
  /-- DMA_RESUME (R370): Runs the queued commands of a halted channel. -/
  | dmaResume (chan : Fin 7) (val : Word)
  /-- DMA_FLUSH (R370): Completes the queued commands of a halted channel with ABORTED. -/
  | dmaFlush (chan : Fin 7) (val : Word)
  /-- TSY_SNAP (R263): Captures T, SEC, NS and F of one instant. -/
  | tsySnap (val : Word)
  /-- TSY_ADJ (R265): Applies a clock correction as a step or hands it to the slew. -/
  | tsyAdj (val : Word) (teller : Bool)
  /-- TSY_RATE_WRITE (R267): Folds the running rate into the offset and sets a new rate. -/
  | tsyRateWrite (val : Word)
  /-- TSY_SLEWMAX_WRITE (R266): Changes the slew rate, folding a running slew. -/
  | tsySlewmaxWrite (val : Word)
  /-- TSY_KEY (R268): A key write that with its partner arms a forced step. -/
  | tsyKey (val : Word)
  /-- SERVOEN_CLEAR (R275): Clearing SERVOEN after READY with the clock unset sets it from the RTC. -/
  | servoenClear (val : Word)
  /-- TCMP_TIME_WRITE (R278): Writing a comparator target arms, fires late or refuses. -/
  | tcmpTimeWrite (n : Fin 64) (val : Word)
  /-- TCMP_CTL_WRITE (R284): Writes comparator control; setting EN arms and clearing it disarms. -/
  | tcmpCtlWrite (n : Fin 64) (val : Word)
  /-- NET_CFG_WRITE (R250): Setting EN requests lane tokens; clearing it stops the port. -/
  | netCfgWrite (port : Fin 4) (val : Word)
  /-- NET_CNTCLR (R293): Clears the counters of the selected ports. -/
  | netCntclr (val : Word)
  /-- FIO_CNT_LOAD (R312): Loads PRESET into a counter. -/
  | fioCntLoad (k : Fin 32) (val : Word)
  /-- FIO_CSNAP (R314): Captures all 32 counters of one field-die cycle. -/
  | fioCsnap (val : Word)
  /-- FIO_ARM (R322): Arms a generator shadow set with a sequence number or refuses it. -/
  | fioArm (c : Fin 32) (val : Word)
  /-- GROUP_FAULT_CLEAR (R328): Writing 1 to FAULT clears it when UV is 0, else sets CLRREF. -/
  | groupFaultClear (g : Fin 4) (val : Word)
  /-- ANA_MMCLR (R331): Restarts MIN and MAX of an analog input. -/
  | anaMmclr (k : Fin 4) (val : Word)
  /-- FIO_CNTCLR (R332): Clears the late-gather and stagger counters. -/
  | fioCntclr (val : Word)
  /-- LATCH_IGN_CLEAR (R316): Any write sets a latch IGN counter to 0. -/
  | latchIgnClear (j : Fin 8) (val : Word)
  /-- MOT_CNTCLR (R248): Clears the overrun, escape and MAXDONE counts of selected engines. -/
  | motCntclr (val : Word)
  /-- MOT_ECFG_WRITE (R245): Stores an engine configuration for the next RUN. -/
  | motEcfgWrite (e : Fin 8) (val : Word)
  /-- MKT_CLK_WRITE (R19): Selects a Market clock, applied only while all its Stalls are held. -/
  | mktClkWrite (m : MarketId) (val : Word)
  /-- SPCTL_WRITE (R115): Sets run-ahead and replay enables; clearing RAEN squashes speculation. -/
  | spctlWrite (val : Word)
  /-- STL_CNTCLR (R118): Clears the counters of selected Stalls. -/
  | stlCntclr (val : Word)
  /-- WDG_SVC (R411): A service key write, judged in key-pair mode. -/
  | wdgSvc (val : Word) (teller : Bool)
  /-- WDG_KEY (R421): A control-sequence write that enables, disables or locks the watchdog. -/
  | wdgKey (val : Word)
  /-- PRS_BUDGET_WRITE (R426): Lowers the Purse budget or refuses a value above STRAP. -/
  | prsBudgetWrite (val : Word)
  /-- PRS_CNTCLR (R430): Clears FAILS and MAXWAIT. -/
  | prsCntclr (val : Word)
  /-- SYS_ECNTCLR (R436): Clears every SRAM error counter. -/
  | sysEcntclr (val : Word)
  /-- SYS_RSTCTL (R540): Key sequence requesting a software reset, after a save in RUN or HOLD. -/
  | sysRstctl (val : Word)
  /-- RTC_SETSEC_WRITE (R443): Sends a seconds write toward the backup domain. -/
  | rtcSetsecWrite (val : Word)
  /-- RTC_SHIFT_WRITE (R444): Sends a tick shift toward the backup domain. -/
  | rtcShiftWrite (val : Word)
  /-- RTC_CAL_WRITE (R445): Sends a calibration value toward the backup domain. -/
  | rtcCalWrite (val : Word)
  /-- RTC_WRITE_APPLY (R446): A pending RTC write is applied at a crystal edge. -/
  | rtcWriteApply
  /-- NVS_LOCK_KEY (R491): Key sequence burning the identity-page lock fuse. -/
  | nvsLockKey (val : Word)
  /-- NVS_CNTCLR (R516): Clears the NVS diagnostic counters. -/
  | nvsCntclr (val : Word)
  /-- RED_CNTCLR (R408): Clears the redundancy counters. -/
  | redCntclr (val : Word)
  /-- MODE_EFFECT (R64): A mode command takes effect at its effect instant Te. -/
  | modeEffect
  /-- STALL_AWAKE (R20): A woken Stall becomes awake after its Purse grant. -/
  | stallAwake (stall : StallId)
  /-- PURSE_GRANT (R428): The head request is granted when enough tokens are free. -/
  | purseGrant
  /-- PURSE_TIMEOUT (R428): A request reaching its timeout is withdrawn and PURSE_NOGRANT raised. -/
  | purseTimeout
  /-- WINDOW_OPEN (R172): An exchange window opens when its conditions hold and the Teller writes the Market. -/
  | windowOpen (m : MarketId)
  /-- WINDOW_CLOSE (R174): A window closes and held DMA writes proceed. -/
  | windowClose (m : MarketId)
  /-- WINDOW_TIMEOUT (R179): A window request reaches TMO and fails or raises CHANGE_STALLED. -/
  | windowTimeout (m : MarketId)
  /-- TICK_BOUNDARY (R273): The tick comparator fires a base tick boundary. -/
  | tickBoundary
  /-- TIME_COMPARATOR_FIRE (R282): An armed comparator fires its action and triggers. -/
  | timeComparatorFire (n : Fin 64)
  /-- SLEW_END (R266): The slew has applied D exactly and ends. -/
  | slewEnd
  /-- FORCED_STEP_TIMEOUT (R268): KEYARM clears 1 ms after arming without a step. -/
  | forcedStepTimeout
  /-- SETWAIT_EXPIRY (R275): No master after SETWAIT seconds: the clock is set from the RTC. -/
  | setwaitExpiry
  /-- PTP_MESSAGE_RECEIVE (R272): A PTP message is time-stamped and served by the time-sync service. -/
  | ptpMessageReceive (port : Fin 4) (msg : PtpMsg)
  /-- SYNC_RECEIPT_TIMEOUT (R272): The receipt timeout expires and the clock enters HOLDOVER. -/
  | syncReceiptTimeout
  /-- GCL_CHANGE (R256): An administrative gate control list is installed at its change time. -/
  | gclChange (port : Fin 4)
  /-- PORT_LINK_CHANGE (R252): A port's link goes up or down. -/
  | portLinkChange (port : Fin 4) (up : Bool) (spd : BitVec 2) (bad : Bool)
  /-- CYCLE_FRAME_RECEIVE (R291): A received cycle frame is checked and accepted or discarded. -/
  | cycleFrameReceive (port : Fin 4) (stamp : Word) (frame : List Byte)
  /-- UNSUPPORTED_FRAME (R254): A frame of another kind is discarded and counted. -/
  | unsupportedFrame (port : Fin 4) (fcsError : Bool)
  /-- RECEIVE_WINDOW_CLOSE (R292): A receive window closes without a frame and the miss is handled. -/
  | receiveWindowClose (entry : Nat)
  /-- TRANSMIT_GATHER (R289): At TXOFF - GLEAD the network engine gathers image and axis blocks. -/
  | transmitGather (entry : Nat)
  /-- FRAME_TRANSMIT (R289): At TXOFF the cycle frame is sent. -/
  | frameTransmit (entry : Nat)
  /-- MOTION_CYCLE (R200): An engine starts its motion cycle at Tm. -/
  | motionCycle (e : Fin 8)
  /-- MOTION_HANDOFF (R200): The engine writes codes to the set-point buffers and signals the network engines. -/
  | motionHandoff (e : Fin 8)
  /-- MOTION_DEADLINE (R202): DL is reached before hand-off and the engine hands off at once. -/
  | motionDeadline (e : Fin 8) (unfinished : List Nat)
  /-- FIELD_INPUT_EDGE (R299): A channel's comparator changes level at its pin. -/
  | fieldInputEdge (c : Fin 32) (level : Bool)
  /-- DEBOUNCE_EXPIRY (R299): A level held for DEB us becomes the filtered state. -/
  | debounceExpiry (c : Fin 32)
  /-- REFLEX_PULSE_END (R318): A reflex PULSE ends after PWID x 5 ns. -/
  | reflexPulseEnd (e : Fin 32)
  /-- FIELD_INPUT_TIME (R304): At Tin the field sequencer takes the sample set and writes it to the banks. -/
  | fieldInputTime
  /-- FIELD_GATHER_START (R303): At Tout - OGLEAD the output block gather starts. -/
  | fieldGatherStart
  /-- FIELD_OUTPUT_TIME (R306): At Tout every output channel takes its value from its source. -/
  | fieldOutputTime
  /-- GENERATOR_EDGE (R321): A generator reaches a scheduled edge of its set. -/
  | generatorEdge (c : Fin 32)
  /-- STAGGERED_SWITCH (R325): Deferred switch changes are made 1 us later. -/
  | staggeredSwitch
  /-- OUTPUT_TRIP (R326): Over-current for 100 us or over-temperature opens the switch. -/
  | outputTrip (c : Fin 32) (thermal : Bool)
  /-- OUTPUT_RETRY (R326): With RETRY the switch closes again 10 ms after a trip. -/
  | outputRetry (c : Fin 32)
  /-- LPLUS_UV_CHANGE (R327): An L+ supply crosses a UV threshold. -/
  | lplusUvChange (g level : Fin 4)
  /-- FIELD_SAG (R327): UV held for 200 us sets SAG. -/
  | fieldSag (g : Fin 4)
  /-- FIELD_CUTOFF (R327): L+ below cut-off for 5 us opens the group's outputs and sets FAULT. -/
  | fieldCutoff (g : Fin 4)
  /-- ANALOG_SAMPLE (R330): An analog input samples at its continuous or field instant. -/
  | analogSample (k : Fin 4)
  /-- ANALOG_CONVERSION_DONE (R331): A conversion completes and updates LAST, LASTT, MIN and MAX. -/
  | analogConversionDone (k : Fin 4) (code : Int)
  /-- WATCHDOG_EXPIRE (R410): COUNT reaches EXPIRE without a valid service. -/
  | watchdogExpire
  /-- HARD_TIMER_END (R416): The hard timer ends and resets the device with cause WATCHDOG. -/
  | hardTimerEnd
  /-- ERASE_SUSPENSION_LIMIT (R420): 1.0 s after an erase began the watchdog count runs again. -/
  | eraseSuspensionLimit
  /-- FATAL_ERROR (R434): A fatal error is captured and a reset is scheduled. -/
  | fatalError (cause : Fin 5)
  /-- FATAL_RESET_TIMER (R434): 40 us after a fatal error the device resets. -/
  | fatalResetTimer
  /-- POWER_LOSS (R526): PFI or a rail warning declares power loss at Tpf. -/
  | powerLoss (source : Fin 5)
  /-- SAVE_COMMIT_DEADLINE (R80): At Tpf + 2 ms releases still running are abandoned. -/
  | saveCommitDeadline
  /-- RETENTIVE_SAVE (R80): The Teller writes the save header, regions and end marker. -/
  | retentiveSave
  /-- POWER_LOSS_RESET (R527): At Tpf + 25 ms, or earlier when the save ends, the device enters reset. -/
  | powerLossReset
  /-- RAIL_BELOW_RESET (R527): A logic rail falls below its reset threshold and the reset enters at once. -/
  | railBelowReset (aonLost : Bool)
  /-- RESET_PIN (R531): RESET_N low for 1 us enters a reset or is latched after Tpf. -/
  | resetPin (low : Bool)
  /-- BACKUP_SWITCHOVER (R528): The backup domain switches between VDD_1V8 and VBAT. -/
  | backupSwitchover (toVbat : Bool)
  /-- BACKUP_POWER_UP (R440): The backup domain powers up without retained state. -/
  | backupPowerUp
  /-- RESET_RELEASE (R532): The reset is released and start-up begins. -/
  | resetRelease (pbud : BitVec 3) (recov : Bool) (brdid : BitVec 4)
  /-- PLL_RETRY (R537): PLLs unlocked at T0 + 10 ms hold the reset and retry every 10 ms. -/
  | pllRetry
  /-- READY (R537): Start-up completes, self-test passes and READY is raised. -/
  | ready (fail : BitVec 6)
  /-- FLASH_PROGRAM_DONE (R471): A flash program and its read-back complete. -/
  | flashProgramDone (ok : Bool)
  /-- FLASH_ERASE_DONE (R472): A sector erase completes. -/
  | flashEraseDone
  /-- RECORDER_FLUSH (R455): Buffered records are programmed to the flash ring. -/
  | recorderFlush
  /-- TREND_SAMPLE (R464): A trend channel takes a sample and may store a point. -/
  | trendSample (ch : Fin 32)
  /-- RETENTION_CHECK (R488): The daily retention check finds sectors that need refreshing. -/
  | retentionCheck
  /-- MARGIN_SCAN (R488): The weekly margin scan reads programmed sectors. -/
  | marginScan (sectors : List Nat)
  /-- OPSEC_COPY (R440): Every 3,600 operating seconds the Teller rewrites its OPSEC and PWRCYC copy. -/
  | opsecCopy
  /-- RTC_SYNC_CHECK (R447): Once per second the RTC is compared with network time and corrected. -/
  | rtcSyncCheck
  /-- ENGINE_SWAP (R508): An engine class changes code halves at a boundary during a live activation. -/
  | engineSwap (cls : Fin 3)
  /-- MAILBOX_WRITE (R514): Recovery mailbox writes a window piece of a firmware image. -/
  | mailboxWrite (off : BitVec 32) (len : BitVec 16) (data : List Byte)
  /-- MAILBOX_VERIFY (R514): Recovery mailbox verifies the loaded image. -/
  | mailboxVerify
  /-- MAILBOX_BOOT (R514): Recovery mailbox resets the device to boot. -/
  | mailboxBoot
  /-- MAILBOX_ABORT (R514): Recovery mailbox abandons a load. -/
  | mailboxAbort
  /-- RECOVERY_WRITE (R515): A recovery frame writes image data. -/
  | recoveryWrite (tool : Word) (xid off : BitVec 32) (data : List Byte)
  /-- RECOVERY_VERIFY (R515): A recovery frame verifies the image. -/
  | recoveryVerify (tool : Word) (xid : BitVec 32)
  /-- RECOVERY_BOOT (R515): A recovery frame boots the image. -/
  | recoveryBoot (tool : Word) (xid : BitVec 32)
  /-- RECOVERY_HELLO (R515): A recovery frame is answered with SERIAL. -/
  | recoveryHello (tool : Word) (xid : BitVec 32)
  /-- HEARTBEAT_INTERVAL (R378): Each lane sends a HEARTBEAT every 1 us. -/
  | heartbeatInterval
  /-- HEARTBEAT (R397): A received heartbeat updates lane state and may end the mandate. -/
  | heartbeat (lane : Fin 2) (mseq : BitVec 32) (n hb : Word) (epoch : BitVec 32)
  /-- INPUT (R386): A mirrored input piece arrives; the last piece lets the standby dispatch. -/
  | inputPiece (lane : Fin 2) (mseq : BitVec 32) (relnum : Word) (task : TaskId) (off : Nat) (last : Bool) (data : List Byte)
  /-- EVENT (R386): A mirrored event record arrives for the standby. -/
  | eventPiece (lane : Fin 2) (mseq : BitVec 32) (relnum : Word) (task : TaskId) (evt : List Word)
  /-- JOURNAL (R385): Mirrored effect and global-read entries arrive. -/
  | journal (lane : Fin 2) (mseq : BitVec 32) (relnum : Word) (task : TaskId) (entries : List Word)
  /-- MOTION (R385): Mirrored motion read content arrives. -/
  | motionPiece (lane : Fin 2) (mseq : BitVec 32) (count : Word) (engine : Fin 8) (data : List Byte)
  /-- HASH (R390): A peer hash arrives and settles or starts adjudication of a release. -/
  | hashMessage (lane : Fin 2) (mseq : BitVec 32) (relnum w0 w1 : Word)
  /-- VERDICT (R392): The peer's verification verdict arrives. -/
  | verdict (lane : Fin 2) (mseq : BitVec 32) (relnum : Word) (task : TaskId) (reproduced : Bool)
  /-- CONTROL (R388): A forwarded host command or record arrives on the standby. -/
  | control (lane : Fin 2) (mseq : BitVec 32) (n : Word) (data : List Byte)
  /-- STATE (R401): A state-copy piece arrives on the standby. -/
  | stateCopy (lane : Fin 2) (mseq : BitVec 32) (addr : Word) (data : List Byte)
  /-- EPOCHCOPY (R398): A mirrored-epoch piece arrives; the closing piece completes the epoch. -/
  | epochcopy (lane : Fin 2) (mseq : BitVec 32) (n : Word) (closing : Bool) (data : List Byte)
  /-- ABDICATE (R395): The active hands over the mandate with a cause. -/
  | abdicate (lane : Fin 2) (mseq : BitVec 32) (n : Word) (cause : BitVec 4)
  /-- LEAVE (R405): The peer leaves the pair. -/
  | leave (lane : Fin 2) (mseq : BitVec 32)
  /-- LINK_MESSAGE_DISCARD (R377): A message with a CRC error or reserved MTYPE is discarded and counted. -/
  | linkMessageDiscard (lane : Fin 2)
  /-- LANE_DOWN (R378): HBTMO passes without a valid message and the lane is down. -/
  | laneDown (lane : Fin 2)
  /-- PEER_WATCH_WINDOW (R395): A peer-watch window closes, possibly deciding a SILENCE takeover. -/
  | peerWatchWindow (seen : Bool)
  /-- TAKEOVER (R396): At the transfer boundary the standby takes the mandate. -/
  | takeover
  /-- SETTLE_TIMEOUT (R390): SETTLEMAX ends a latch wait and the release is unsettled. -/
  | settleTimeout (stall : StallId)
  /-- MIRRORED_EPOCH (R398): Every RETPER ms the active sends a mirrored epoch. -/
  | mirroredEpoch
  /-- AUTORS_TIMER (R406): 100 ms after DETACHED the active starts a formation. -/
  | autorsTimer (peer : PeerInfo)
  /-- CONFIRM_EXPIRY (R401): CONFIRM ms without trouble makes the pair SYNCED. -/
  | confirmExpiry
  /-- PAIR_FORM_TIMEOUT (R400): No peer heard within 100 ms: solo mandate or NO_PEER. -/
  | pairFormTimeout
  /-- UNDEFINED_INSTRUCTION (R125): A Till reaches a word with an undefined opcode or a reserved function code, for example unloaded or zeroed program store, and raises ILLEGAL. -/
  | undefinedInstruction (t : TillId) (word : BitVec 32)
  /-- BUS_MASTER_ENABLE (R337): The host sets Bus Master Enable again, or returns the function from D3hot to D0, and the N9 may issue requests and poll again. -/
  | busMasterEnable (d0 : Bool)
  /-- PTP_MESSAGE_TRANSMIT (R271): At each configured Sync, Announce or delay-request interval, the time-sync service sends a PTP message through a port, with its egress time-stamp. -/
  | ptpMessageTransmit (port : Fin 4) (kind : Fin 3) (stamp : Word)
  /-- CRYSTAL_EDGE (R441): Each 32.768 kHz crystal edge advances RTC.COUNT, applies CAL adjusting edges, counts down SHREM, and advances OPSEC each second. -/
  | crystalEdge
  /-- WDG_WINDOW_OPEN (R413): The watchdog COUNT reaches WOPEN while every enabled slot is satisfied or owned by a task that is not live, and the period completes as a valid service. -/
  | wdgWindowOpen
  /-- CB_RECOVERY_RESET_TIMEOUT (R255): The 802.1CB vector recovery reset timeout of a stream expires and its sequence history is reset. -/
  | cbRecoveryResetTimeout (entry : Nat)
  /-- PREEMPTION_VERIFICATION (R252): An 802.3br verify or response mPacket is received, or the verify timer expires, and VSTATE and PREACT of the port change. -/
  | preemptionVerification (port : Fin 4) (what : Fin 3)
  /-- RESET_SAVE_DEADLINE (R533): Te + 25 ms passes after a SOFTWARE or UPDATE reset requested in RUN or HOLD, and the reset enters even though the save's end marker is not yet programmed. -/
  | resetSaveDeadline
deriving DecidableEq, Repr

end Sys2Proof
end

