-- ==== Sys2Proof/Machine/State.lean ====
section
/-!
DEFINITION. The state of the Novrak N9 as plain data: one structure per unit of the manual, the outcome reasons, and the state at the release of a power-on reset.
-/
namespace Sys2Proof.Machine

/-! ### Markets, Stalls, Tills and tasks (chapters 01 to 05) -/

/-- STATE of a Till area (R101): what the Till holds. -/
inductive AreaState where
  | empty
  | speculative
  | live
  | retained
deriving DecidableEq, Repr

/-- KIND of a journal entry (R102). -/
inductive JKind where
  | undo
  | globalRead
  | effect
deriving DecidableEq, Repr

/-- A journal entry (R102): ADDR is the Stall effective address of the word, or the PC for an effect. -/
structure JEntry where
  kind : JKind
  interval : Nat
  ue : Bool
  addr : Nat
  value : Word
deriving DecidableEq, Repr

/-- A read-ledger image entry (R87, R88): byte offset of the word in the input half, value returned, interval of first read. -/
structure ImgEntry where
  off : Nat
  value : Word
  interval : Nat
deriving DecidableEq, Repr

/-- A read-ledger watch entry (R87, R88): byte offset of the word in Market memory. -/
structure WatchEntry where
  off : Nat
  interval : Nat
  changed : Bool
deriving DecidableEq, Repr

/-- A checkpoint (R92): registers, PC, held output writes, and the speculative time spent before it (R117, SPSAVE). -/
structure Checkpoint where
  regs : Vector Word 32
  pc : BitVec 20
  held : List Host.Cell
  spent : Nat
deriving DecidableEq, Repr

/-- A trap (R161): cause, PC, instruction word and ADDR. -/
structure TrapInfo where
  cause : Nat
  pc : BitVec 20
  word : BitVec 32
  addr : Word
deriving DecidableEq, Repr

/-- The kind of a detected transient fault (R106), in the encoding of REPLAY_OK (R461). -/
inductive FaultKind where
  | programStore
  | localData
  | lane
  | tillState
deriving DecidableEq, Repr

/-- A replay in progress (R107, R114): the journal length where it began, the next effect and global-read entries, and the stores a verification replay holds. -/
structure Replay where
  verify : Bool
  base : Nat
  nextEffect : Nat
  nextGlobal : Nat
  stores : List Host.Cell
  kind : FaultKind
  addr : Nat
deriving DecidableEq, Repr

/-- One release of a task (R44, R76): its task, release instant T, tick number, RELNUM, when its signal arrived, and the event record of an event release. -/
structure Release where
  task : TaskId
  instant : Word
  tick : Nat
  relnum : Nat
  arrived : Nat
  evt : List Word
deriving DecidableEq, Repr

/-- Why a Till is frozen (R68, R70, R71): 0 no fault, else the CAUSE of R161. -/
structure Freeze where
  cause : Nat
  fault : Bool
  scopeAll : Bool
deriving DecidableEq, Repr

/-- A Till: the architectural state (R119), its release, and its records (R87, R92, R101, R102, R116); `damaged` lists the 8-byte words of its Till area that hold an uncorrectable error (R431). -/
structure Till where
  area : AreaState
  rel : Release
  dispatched : Bool
  latched : Bool
  committing : Bool
  regs : Vector Word 32
  pc : BitVec 20
  resv : Option Nat
  resvAt : Nat
  held : List Host.Cell
  image : List ImgEntry
  watch : List WatchEntry
  ckpts : List Checkpoint
  journal : List JEntry
  regw : Vector Word 32
  unprot : Bool
  replayed : Bool
  rolled : Bool
  outhash : Word
  damaged : List Nat
  stallCause : Nat
  trap : Option TrapInfo
  waiting : Bool
  paused : Bool
  frozen : Option Freeze
  stepping : Bool
  passBreak : Bool
  replay : Option Replay
  sample : Word
  dispatchAt : Nat
  runSince : Nat
  spent : Nat
deriving DecidableEq, Repr

/-- A breakpoint (R68). -/
structure Breakpoint where
  task : TaskId
  addr : BitVec 20
  scopeAll : Bool
deriving DecidableEq, Repr

/-- The outstanding FENCE of a Till (R38): the classes it waits for, and the SYS tickets that were accepted before it (R39). -/
structure FenceWait where
  mask : BitVec 6
  tickets : List (BitVec 32)
deriving DecidableEq, Repr

/-- A Stall (R13, R20, R46, R68, R117, R154). -/
structure Stall where
  awake : Bool
  wakeGrant : Option Nat
  tills : Vector Till 2
  running : Option (Fin 2)
  pend : List Release
  posted : List TaskId
  fence : Option FenceWait
  ticket : BitVec 32
  bps : Vector (Option Breakpoint) 4
  sprun : Nat
  sphit : Nat
  sprb : Nat
  spsq : Nat
  spsave : Nat
  rply : Nat
  rplate : Nat
  rpfail : Nat
  spflt : Nat
deriving DecidableEq, Repr

/-- An accepted SYS request waiting for the Teller (R154). -/
structure SysReq where
  service : BitVec 12
  arg : Word
  stall : StallId
  task : TaskId
  ticket : BitVec 32
deriving DecidableEq, Repr

/-- Who a gather transaction works for (R33, R55, R289, R303). -/
inductive GatherFor where
  | frame (port entry : Nat)
  | field
  | route (srcTask : TaskId) (index : Nat)
deriving DecidableEq, Repr

/-- A command that has been begun (R347). -/
structure Cmd where
  ring : Nat
  idx : Nat
  opcode : Nat
  nocq : Bool
  tag : Nat
  w : Vector Word 5
deriving DecidableEq, Repr

/-- The content of a bank transaction (R33). Lengths are in bytes; data are the bytes to be written. -/
inductive BankKind where
  | commit (till : TillId)
  | latch (till : TillId)
  | frameWrite (writes : List (Nat × List Byte)) (fresh : Option (Nat × Bool))
  | fieldSample (writes : List (Nat × List Byte))
  | gather (who : GatherFor) (ranges : List (Nat × Nat))
  | motionRead (engine : Nat)
  | dma (channel : Nat)
  | forceWrite (cmd : Cmd) (off : Nat)
deriving DecidableEq, Repr

/-- A bank transaction waiting or in progress, with the bytes a gather has taken at its start (R33 to R35). -/
structure BankTx where
  kind : BankKind
  len : Nat
  since : Nat
  aged : Bool
  start : Nat
  data : List Byte
deriving DecidableEq, Repr

/-- What an open or requested exchange window is for (R172, R178, R179, R398, R401). -/
inductive WinUse where
  | prepare
  | switch
  | xwrite (cmd : Cmd) (off : Nat) (data : List Byte)
  | copy
  | epoch
deriving DecidableEq, Repr

/-- A requested or open exchange window (R172): its purpose, length in ns, and the instant of the request or of the opening. -/
structure Window where
  use : WinUse
  len : Nat
  at_ : Nat
deriving DecidableEq, Repr

/-- A Market (R13, R33, R154, R172 to R177, R551). -/
structure Market where
  clk : Word
  xwin : Word
  phase : Nat
  lastlen : Nat
  xcnt : Nat
  winReq : Option Window
  winOpen : Option Window
  queue : List BankTx
  active : Option BankTx
  sysQueue : List SysReq
deriving DecidableEq, Repr

/-- A task table entry (R48), field by field. -/
structure TaskEntry where
  id : TaskId
  event : Bool
  runahead : Bool
  stopOff : Bool
  prio : Nat
  stall : StallId
  market : MarketId
  faultReact : Nat
  ovrlim : Nat
  periodM1 : Nat
  phase : Nat
  trigSrc : Nat
  trigIndex : Nat
  trigEdge : Nat
  inOff : Nat
  inLen : Nat
  outOff : Nat
  outLen : Nat
  entry : Nat
  instOff : Nat
  instLen : Nat
deriving DecidableEq, Repr

/-- The reaction due at the commit of a release whose task faulted with OVERRUN while it committed (R71). -/
inductive AfterCommit where
  | none
  | stopTask
  | stopAll
  | hold
deriving DecidableEq, Repr

/-- A task: its table entry, its status (R73), and the bookkeeping of R60, R75, R83 and R70. -/
structure Task where
  e : TaskEntry
  ovrcnt : Nat
  relcnt : Nat
  commitcnt : Nat
  hskip : Nat
  faultcnt : Nat
  lastexec : Nat
  maxexec : Nat
  lastcommit : Word
  lastdisp : Nat
  maxdisp : Nat
  run : Nat
  stopped : Bool
  hadRelease : Bool
  lastCommitted : Bool
  firstAfterChange : Bool
  noSpec : Option Nat
  evSeq : Nat
  evDropped : Nat
  freezeNext : Option Freeze
  afterCommit : AfterCommit
deriving DecidableEq, Repr

/-- A release signal on its way from the time island to a Market (R47, R273). -/
structure RelSignal where
  task : TaskId
  tick : Nat
deriving DecidableEq, Repr

/-- A trigger of an event task on its way to its Stall (R75, R76): source, index, edge, T, pin states and count. -/
structure Trigger where
  task : TaskId
  src : Nat
  index : Nat
  edge : Nat
  t : Word
  pins : BitVec 32
  count : BitVec 32
deriving DecidableEq, Repr

/-- An image route (R575). -/
structure Route where
  srcTask : TaskId
  dstMkt : MarketId
  len : Nat
  srcOff : Nat
  dstOff : Nat
deriving DecidableEq, Repr

/-- A retentive region (R576). -/
structure Region where
  market : MarketId
  offset : Nat
  length : Nat
deriving DecidableEq, Repr

/-- An instance entry of a layout map (R169). -/
structure Inst where
  ikey : Word
  tkey : Word
  offset : Nat
  length : Nat
  kind : Nat
  output : Bool
  task : Nat
  nmemb : Nat
  midx : Nat
deriving DecidableEq, Repr

/-- A member entry of a layout map (R169). -/
structure Member where
  mkey : Word
  offset : Nat
  width : Nat
deriving DecidableEq, Repr

/-- The instance layout map of one Market (R168, R169). -/
structure Layout where
  insts : List Inst
  members : List Member
deriving DecidableEq, Repr

/-- A force table entry (R188). -/
structure Force where
  skey : Word
  value : Word
  bitoff : Nat
  width : Nat
  output : Bool
  market : MarketId
  settime : Word
deriving DecidableEq, Repr

/-- A segment of a code image or a change package (R168, R498): type, Market, Stall or engine, and body. -/
structure Segment where
  stype : Nat
  market : MarketId
  stall : StallId
  body : List Byte
deriving DecidableEq, Repr

/-- A change package that has been loaded and checked (R170). -/
structure Package where
  baseId : Word
  newId : Word
  segs : List Segment
  bytes : List Byte
deriving DecidableEq, Repr

/-- The step an applied change has reached (R179). -/
inductive ChangeStep where
  | idle
  | writing
  | preparing (m : Nat) (rest : List Nat)
  | switching (m : Nat)
deriving DecidableEq, Repr

/-- An online change in progress (R179): the ring of its CHANGE_APPLY, its step, the sampled limits, and the counts. -/
structure Change where
  ring : Nat
  step : ChangeStep
  wlenmax : Vector Nat 4
  tmo : Vector Nat 4
  retained : Nat
  fresh : Nat
  discarded : Nat
  switched : Bool
deriving DecidableEq, Repr

/-- A mode of SYS.OPMODE (R62). -/
inductive Mode where
  | held
  | stop
  | run
  | hold
deriving DecidableEq, Repr

/-- A start kind of RUN (R82). -/
inductive StartKind where
  | cold
  | warm
  | resume
deriving DecidableEq, Repr

/-- A cause of a device reset (R529). -/
inductive ResetCause where
  | poweron
  | brownout
  | pin
  | software
  | watchdog
  | fatal
  | update
deriving DecidableEq, Repr

/-- What a waiting mode command does at Te (R64). -/
inductive ModeAction where
  | arm
  | run (kind : StartKind)
  | stop
  | disarm
  | restart (cause : ResetCause)
deriving DecidableEq, Repr

/-- A mode command that waits for its effect instant (R64): its ring, its action, and the least T of its boundary, once known. -/
structure ModeWait where
  ring : Nat
  action : ModeAction
  wakes : List StallId
  ready : Option Word
deriving DecidableEq, Repr

/-- The operating mode and all that depends on it (R62 to R72, R82). -/
structure Control where
  mode : Mode
  armed : Bool
  reason : Nat
  ftask : TaskId
  waits : List ModeWait
  scopeAll : Bool
  ranSinceReset : Bool
  resumeOk : Bool
  saveByHandler : Bool
  pfDeadline : Option Nat
deriving DecidableEq, Repr

/-! ### Time unit (chapter 07) -/

/-- The local clock (R260 to R270) and the tick comparator (R273 to R276); `o` and `slewRem` are in units of 2^-40 ns. -/
structure Clock where
  f : Word
  a : Word
  o : Int
  rate : Int
  slewRem : Int
  slewMax : Nat
  ctl : Word
  state : Nat
  set : Bool
  jref : Bool
  stepped : Bool
  gmself : Bool
  keyFirst : Bool
  keyArm : Option Nat
  snapT : Word
  snapSec : Nat
  snapNs : Nat
  snapFrc : Word
  jumpLim : Nat
  offsMeas : Int
  ticknum : Nat
  tskip : Nat
  firstBoundary : Option Nat
deriving DecidableEq, Repr

/-- A time comparator (R277 to R284). -/
structure Comparator where
  ctl : Word
  time : Word
  per : Word
  armed : Bool
  fired : Bool
  late : Bool
  range : Bool
  wdrop : Bool
  stepdis : Bool
  lateness : Nat
  skips : Nat
deriving DecidableEq, Repr

/-- The time-sync service of the Teller (R271, R272, R352). -/
structure TimeSync where
  logSync : Int
  logAnn : Int
  syncTmo : Nat
  annTmo : Nat
  lockThr : Nat
  ptpEn : Nat
  oneStep : Nat
  p2p : Nat
  prio1 : Nat
  prio2 : Nat
  clockClass : Nat
  accuracy : Nat
  variance : Nat
  gmcap : Bool
  setWait : Nat
  setWaitFrom : Option Nat
  master : Option Word
  masterSet : List Nat
  steps : Nat
  mpd : Int
  syncDiff : Int
  delayReq : Option Word
  auxGmid : Word
  auxOff : Int
  auxValid : Bool
  goodRun : Nat
  badRun : Nat
  rates : List Int
  pendingConfig : Option (Word × Word)
  firstOffset : Bool
deriving DecidableEq, Repr

/-! ### Host interface and DMA (chapter 09) -/

/-- What the device sends to the host through PCI Express, in the order of the posted queue (R334): memory writes, read requests, and MSI-X messages. -/
inductive HostOut where
  | write (addr : Nat) (bytes : List Byte)
  | read (addr : Nat) (len : Nat)
  | msix (vector : Nat)
deriving DecidableEq, Repr

/-- A fetched command descriptor: index in its ring and its eight words (R346). -/
structure Desc where
  idx : Nat
  w : Vector Word 8
deriving DecidableEq, Repr

/-- A finished command whose completion has not yet been handed over (R348). -/
structure Done where
  cmd : Cmd
  status : Nat
  result0 : Word
  result1 : Word
deriving DecidableEq, Repr

/-- A command ring (R340, R341, R347, R350, R359): `cur` is begun and not yet carried out, `busy` is under way, `handed` lists the handed-off commands in progress. -/
structure CmdRing where
  base : Word
  cfg : Word
  cons : Nat
  prod : Nat
  halt : Bool
  hcause : Nat
  fetched : List Desc
  fetching : Option (Nat × Nat)
  cur : Option Cmd
  busy : Option Cmd
  handed : List Nat
  notOwned : Option Nat
deriving DecidableEq, Repr

/-- A completion ring or the event ring (R340, R341, R357, R360). -/
structure OutRing where
  base : Word
  cfg : Word
  prod : Nat
  cons : Nat
  halt : Bool
  reserved : Nat
  lastMsg : Option Nat
  announce : Bool
deriving DecidableEq, Repr

/-- An event (R355). -/
structure Event where
  code : Nat
  sev : Nat
  seq : Nat
  t : Word
  p0 : Word
  p1 : Word
  p2 : Word
  p3 : Word
deriving DecidableEq, Repr

/-- An armed buffer of a mailbox (R363). -/
structure Armed where
  cmd : Cmd
  addr : Word
  len : Nat
deriving DecidableEq, Repr

/-- One MSI-X table entry as PCI Express lays it out (R357). -/
structure MsixEntry where
  addr : Word
  data : BitVec 32
  ctrl : BitVec 32
deriving DecidableEq, Repr

/-- The PCI Express endpoint, the ring engine with the bytes that channel 7 moved, and the event path (R333 to R364). -/
structure HostIf where
  bme : Bool
  d3 : Bool
  msixEn : Bool
  msixMask : Bool
  msix : Vector MsixEntry 64
  pba : Word
  ctl : Word
  dbbase : Word
  dbper : Nat
  evdrop : Nat
  polls : Nat
  rings : Vector CmdRing 16
  comps : Vector OutRing 16
  ev : OutRing
  pollOut : Bool
  nudged : Bool
  lastPoll : Option Nat
  lastGood : Nat
  hostLost : Bool
  turn : Nat
  finished : List Done
  evSeq : Nat
  backlog : List Event
  droppedSince : Nat
  firstDropped : Nat
  mailboxes : Vector (List Armed) 64
  posted : List HostOut
  ringBytes : Nat
deriving DecidableEq, Repr

/-- A DMA command on a channel (R351, R364, R369); `val` holds the bytes of a DMA_WRITE. -/
structure DmaCmd where
  cmd : Cmd
  src : Nat
  dst : Nat
  len : Nat
  srcSys : Bool
  dstSys : Bool
  val : Option (List Byte)
  done : Nat
deriving DecidableEq, Repr

/-- A DMA channel (R364, R370, R372). -/
structure DmaChan where
  prio : Nat
  queue : List DmaCmd
  active : Option DmaCmd
  waiting : Option (List Byte)
  halted : Bool
  cause : Nat
  side : Bool
  space : Bool
  addr : Word
  bytes : Nat
deriving DecidableEq, Repr

/-- The DMA engine (R364 to R372). -/
structure Dma where
  en : Bool
  burst : Bool
  burstOn : Bool
  burstFail : Bool
  rate : Nat
  bucket : Nat
  level : Nat
  levelAt : Nat
  turn : Nat
  chans : Vector DmaChan 8
deriving DecidableEq, Repr

/-! ### Watchdog, Purse and errors (chapter 11) -/

/-- The system watchdog (R409 to R424). -/
structure Watchdog where
  en : Bool
  lock : Bool
  cfg : Word
  win : Word
  sloten : BitVec 32
  own : Vector Word 4
  base : Nat
  since : Nat
  susp : Option Nat
  key1 : Bool
  expired : Bool
  foreign : Bool
  stray : Bool
  cfgen : Bool
  cfgbad : Bool
  chk : BitVec 32
  dup : BitVec 32
  dupRaised : BitVec 32
  svccnt : Nat
  keyFirst : Option Nat
  expCause : Nat
  expValid : Bool
  expMissing : BitVec 32
  exppc : Word
  expt : Word
  expops : Nat
  lastsvct : Word
  liveSvct : Word
  hard : Option Nat
deriving DecidableEq, Repr

/-- A request waiting at the Purse (R427, R428). -/
structure PurseReq where
  src : Nat
  tokens : Nat
  who : Nat
  made : Nat
deriving DecidableEq, Repr

/-- The Purse (R426 to R430): `use` is indexed by SRC. -/
structure Purse where
  tokens : Nat
  strap : Nat
  use : Vector Nat 8
  waiting : List PurseReq
  budref : Bool
  grants : Nat
  fails : Nat
  maxwait : Nat
  refusing : Bool
deriving DecidableEq, Repr

/-- The error registers (R434 to R436). -/
structure Errors where
  rsvdw : Bool
  accbar : Bool
  accsys : Bool
  ce : Bool
  ue : Bool
  purse : Bool
  wdgprev : Bool
  fatalprev : Bool
  erraddr : Word
  agent : Nat
  write : Bool
  ueaddr : Word
  ueown : Nat
  fatalCause : Nat
  fatalValid : Bool
  fatalAt : Option Nat
  ces : Vector Nat 68
  ues : Vector Nat 68
deriving DecidableEq, Repr

/-! ### Backup domain, recorder and trends (chapter 12) -/

/-- A write on its way to the backup domain (R443 to R446). -/
inductive RtcWrite where
  | setsec (sec : Nat) (source : Nat)
  | shift (s : Int)
  | cal (c : Int)
deriving DecidableEq, Repr

/-- The backup domain (R438 to R448). -/
structure Rtc where
  count : Nat
  wseq : Nat
  cal : Int
  sync : Bool
  write : Option RtcWrite
  writeRing : Option Nat
  busy : Bool
  tvalid : Bool
  bklost : Bool
  lockdisc : Bool
  vbatlow : Bool
  shrem : Nat
  winpos : Nat
  edges : Nat
  opsec : Nat
  pwrcyc : Nat
  lockout : Bool
  onVbat : Bool
  syncSum : Int
  syncSecs : Nat
deriving DecidableEq, Repr

/-- A captured record (R454). -/
structure Record where
  ev : Event
  restart : Bool
  rnum : Nat
  rtc : Word
  opsec : Nat
  pwrcyc : Nat
  snaps : List Word
  trig : Nat
  snapv : Nat
  at_ : Nat
deriving DecidableEq, Repr

/-- The event recorder (R453 to R460): the buffer, oldest first, and the records of the flash ring, oldest first. -/
structure Recorder where
  ctl : Word
  trg : Vector Word 16
  tsel : Vector Word 16
  next : Nat
  overwr : Nat
  lost : Nat
  corrupt : Nat
  lostSince : Nat
  fresh : Bool
  buffer : List Record
  stored : List Record
  slots : Nat
  flushRing : Option Nat
deriving DecidableEq, Repr

/-- A trend point (R466). -/
structure Point where
  num : Nat
  gap : Bool
  value : Int
deriving DecidableEq, Repr

/-- A trend channel (R463 to R467): kind 0 is off. -/
structure Trend where
  kind : Nat
  src : Nat
  perM1 : Nat
  moff : Nat
  maxseg : Nat
  points : Nat
  tol : Nat
  next : Nat
  anchor : Option (Nat × Int)
  seg : List (Nat × Int)
  stored : List Point
  lost : Nat
  gapped : Bool
  lastTick : Option Nat
deriving DecidableEq, Repr

/-! ### Motion engines (chapter 06) -/

/-- The state of an axis (R210). -/
inductive AxisState where
  | standby
  | held
  | moving
  | stopping
  | fault
deriving DecidableEq, Repr

/-- What drives a moving or stopping axis (R213, R218, R223, R230). -/
inductive AxisMode where
  | none
  | move
  | jog
  | gear
  | cam
  | direct
  | vmaster
  | xmaster
deriving DecidableEq, Repr

/-- How a stopping axis comes to rest (R205, R217, R230). -/
inductive StopHow where
  | follow
  | ramp
  | hold
deriving DecidableEq, Repr

/-- The data of a cam command (R223): CAMID, master offset, slave offset. -/
structure CamRef where
  camid : Nat
  moff : Word
  soff : Word
deriving DecidableEq, Repr

/-- A registration correction under way (R228): its size, the offset before it, and the master position where it began. -/
structure CorrRamp where
  c : Int
  base : Word
  start : Word
deriving DecidableEq, Repr

/-- An axis slot at run time (R205 to R235): status block content, command data, registration and coder. -/
structure Axis where
  state : AxisState
  mode : AxisMode
  result : Nat
  cause : Nat
  inpos : Bool
  clutched : Bool
  camdone : Bool
  setpt : Word
  svel : Word
  acc : Word
  ackseq : Nat
  ferr : Word
  regerr : Word
  regcnt : Nat
  regmiss : Nat
  regofs : Word
  history : List Word
  p1 : Word
  vlim : Word
  alim : Word
  jlim : Word
  gnum : Int
  gden : Nat
  gcl : Word
  soff : Word
  dec : Word
  stopHow : StopHow
  camRef : CamRef
  camNext : Option CamRef
  lastq : Option Int
  masters : List (Word × Word)
  markCount : Nat
  markSeen : Bool
  pendCorr : Option (Int × Int)
  ramp : Option CorrRamp
  accepted : Bool
  missing : Bool
  jump : Bool
  refresh : Nat
  r : Word
  v : Word
  fbPrev : Word
deriving DecidableEq, Repr

/-- The code of one slot in one motion cycle, with its escape, and the coder before it (R234, R235). -/
structure SlotCode where
  slot : Nat
  code : BitVec 8
  esc : Option Word
  r0 : Word
  v0 : Word
deriving DecidableEq, Repr

/-- A motion cycle in progress (R200): boundary number, bank reads still awaited, the words read, by bank and offset (`none` is an unreadable word), and the command blocks read, by slot; `initAll` is the first cycle after a warm takeover (R399). -/
structure MotionRun where
  tick : Nat
  started : Nat
  waiting : List Nat
  reads : List (Nat × Nat × Option Word)
  cmds : List (Nat × List Byte)
  discardCmds : Bool
  initAll : Bool
  computed : Bool
deriving DecidableEq, Repr

/-- A motion engine (R197 to R248). -/
structure Engine where
  ecfg : Word
  cfg : Word
  state : Nat
  lastdone : Nat
  maxdone : Nat
  ecyc : Nat
  eovr : Nat
  eesc : Nat
  run : Nat
  refreshPos : Nat
  axes : List Axis
  due : Option Nat
  cycle : Option MotionRun
  codes : List SlotCode
  codesFor : Option Nat
  missed : List (Nat × Nat × Nat)
  stale : Bool
deriving DecidableEq, Repr

/-! ### Network ports (chapter 07) -/

/-- A gate control list (R256, R577): cycle time, base time, entries of gates and interval. -/
structure Gcl where
  cycle : Nat
  base : Word
  entries : List (BitVec 8 × Nat)
deriving DecidableEq, Repr

/-- A content entry of the frame schedule (R287). -/
inductive Content where
  | image (market : Nat) (len off : Nat)
  | axis (engine first nax : Nat)
deriving DecidableEq, Repr

/-- A frame schedule entry (R287) with its run-time state (R289 to R292). -/
structure SchedEntry where
  frameId : Nat
  rx : Bool
  port : Nat
  cb : Bool
  queue : Nat
  freshen : Bool
  periodM1 : Nat
  phase : Nat
  off : Nat
  off2 : Nat
  mac : Nat
  vid : Nat
  pcp : Nat
  freshBit : Nat
  freshMkt : Nat
  content : List Content
  due : Option Nat
  accepted : Option Nat
  missRun : Nat
  gathers : Nat
  gathered : List (Nat × Nat × List Byte)
  axisBlocks : List (List Byte)
  built : Option (List Byte)
  prev : List (Nat × Nat × List Byte)
  lateRun : Bool
  cbSeq : Nat
  cbRecent : List Nat
deriving DecidableEq, Repr

/-- A network port (R249 to R259, R293). -/
structure Port where
  cfg : Word
  started : Bool
  link : Bool
  spd : Nat
  badspd : Bool
  nogrant : Bool
  vstate : Nat
  preact : Bool
  lastdisc : Nat
  mac : Word
  tsc : Vector Word 4
  rxcyc : Nat
  txcyc : Nat
  rxdisc : Nat
  rxmiss : Nat
  glate : Nat
  cbelim : Nat
  rxfcs : Nat
  rxother : Nat
  oper : Option Gcl
  admin : Option Gcl
deriving DecidableEq, Repr

/-- A frame that has left a port (R285): port, bytes from the destination MAC on, and T of its delimiter. -/
structure WireFrame where
  port : Nat
  bytes : List Byte
  t : Word
deriving DecidableEq, Repr

/-- The network side (R249 to R293). -/
structure Net where
  ports : Vector Port 4
  sched : List SchedEntry
  wire : List WireFrame
deriving DecidableEq, Repr

/-! ### Field die (chapter 08) -/

/-- A generator set (R321) in units of 5 ns. -/
structure GenSet where
  mode : Nat
  cnt : Nat
  per : Nat
  wid : Nat
  dly : Nat
deriving DecidableEq, Repr

/-- An armed generator set (R322, R323): SEQ, the set, and whether it came by the image path. -/
structure ArmedSet where
  seq : Nat
  set : GenSet
  image : Bool
  at_ : Nat
deriving DecidableEq, Repr

/-- A running generator (R321): its set, the hand-over instant, the pulses begun, and its output. -/
structure Generator where
  set : GenSet
  h : Nat
  begun : Nat
  out : Bool
  active : Bool
deriving DecidableEq, Repr

/-- A field channel (R294 to R300, R306, R320 to R326). -/
structure Channel where
  cfg : Word
  sha : Word
  shb : Word
  level : Bool
  levelT : Word
  levelAt : Nat
  filt : Bool
  on : Bool
  ocf : Bool
  otf : Bool
  tripAt : Option Nat
  relatch : Bool
  imageOn : Bool
  eventOn : Bool
  gen : Generator
  pend : Option ArmedSet
  appliedSeq : Nat
  appliedN : Nat
  busy : Bool
  rej : Bool
deriving DecidableEq, Repr

/-- A field counter (R310 to R315). -/
structure Counter where
  cfg : Word
  value : BitVec 32
  preset : BitVec 32
  cmp : BitVec 32
  wrap : Bool
  sat : Bool
  qerr : Bool
  cmphit : Bool
  csv : BitVec 32
  edges : Nat
  firstT : Word
  lastT : Option Word
  prevT : Option Word
  slot : BitVec 32
  span : BitVec 32
deriving DecidableEq, Repr

/-- A latch unit (R316, R317). -/
structure LatchUnit where
  cfg : Word
  ign : Nat
  t : Word
  lcount : BitVec 32
  capval : BitVec 32
  captured : Bool
deriving DecidableEq, Repr

/-- A reflex table entry (R318, R319). -/
structure Reflex where
  mask : Word
  ctl : Word
  latched : Bool
  pulse : Option Nat
  term : Bool
deriving DecidableEq, Repr

/-- The L+ supply of a group as its comparators see it (R327). -/
inductive Lplus where
  | absent
  | belowCutoff
  | low
  | good
deriving DecidableEq, Repr

/-- A supply group (R327, R328). -/
structure Group where
  lplus : Lplus
  uv : Bool
  sag : Bool
  fault : Bool
  clrref : Bool
  uvSince : Nat
  cutSince : Option Nat
  sagRun : Bool
  minCode : Option Nat
deriving DecidableEq, Repr

/-- An analog monitor input (R329 to R331). -/
structure Analog where
  cfg : Word
  last : Nat
  valid : Bool
  lastt : Word
  min : Nat
  max : Nat
  mmvalid : Bool
  ovr : Bool
  tdrop : Bool
  sampling : Option Word
  sampledAt : Option Nat
  since : Nat
deriving DecidableEq, Repr

/-- The field die (R294 to R332). -/
structure Field where
  tcfg : Word
  map : Word
  pcfg : Nat
  granted : Nat
  nogrant : Bool
  cfgarm : Bool
  glate : Nat
  stagger : Nat
  channels : Vector Channel 32
  counters : Vector Counter 32
  latches : Vector LatchUnit 8
  reflexes : Vector Reflex 32
  groups : Vector Group 4
  analogs : Vector Analog 4
  tinDue : Option Nat
  gatherDue : Option Nat
  toutDue : Option Nat
  gathering : Option Nat
  gathered : Option (List Byte)
  out : BitVec 32
  lateRun : Bool
  lastSeq : Vector (Option Nat) 8
  deferred : List (Nat × Bool)
  deferAt : Nat
  tout0 : Bool
  tout1 : Bool
deriving DecidableEq, Repr

/-! ### Hot-standby pairs (chapter 10) -/

/-- ROLE (R381). -/
inductive Role where
  | solo
  | active
  | standby
  | candidate
deriving DecidableEq, Repr

/-- PSTATE (R381). -/
inductive PState where
  | none
  | checking
  | copying
  | confirming
  | synced
  | detached
deriving DecidableEq, Repr

/-- A link message that has left the unit (R377): MTYPE, MSEQ, REF and payload. -/
structure LinkMsg where
  mtype : Nat
  mseq : BitVec 32
  ref : Word
  payload : List Byte
deriving DecidableEq, Repr

/-- A lane of the Bolist link (R376, R378). -/
structure Lane where
  granted : Bool
  up : Bool
  valid : Nat
  lastValid : Nat
  errs : Nat
deriving DecidableEq, Repr

/-- What is known of the peer (R377, R400). -/
structure Peer where
  heard : Bool
  linkver : Nat
  role : Nat
  pstate : Nat
  mandate : Bool
  compat : Nat
  epoch : Nat
  serial : Word
  project : Word
  gmid : Word
  locked : Bool
  clkdom : Nat
  enabled : Bool
  prefer : Bool
  mac : Word
  block : Nat
deriving DecidableEq, Repr

/-- A mirrored release waiting on the standby (R385, R386): its input pieces or event record and its journal entries. -/
structure Mirror where
  task : TaskId
  relnum : Nat
  data : List (Nat × List Byte)
  complete : Bool
  evt : List Word
  journal : List JEntry
deriving DecidableEq, Repr

/-- An adjudication in progress (R392): the release, both hashes, and the verdicts known so far. -/
structure Adjudication where
  stall : StallId
  task : TaskId
  relnum : Nat
  own : Word
  peer : Word
  ownVerdict : Option Bool
  peerVerdict : Option Bool
deriving DecidableEq, Repr

/-- A mirrored epoch (R398): boundary, ARMED, project identity and retentive data. -/
structure EpochCopy where
  n : Word
  armed : Bool
  project : Word
  data : List Byte
deriving DecidableEq, Repr

/-- A takeover decided and waiting for its transfer boundary (R396). -/
structure Takeover where
  cause : Nat
  boundary : Word
  warm : Bool
deriving DecidableEq, Repr

/-- The redundancy unit (R376 to R408); `handover` is the transfer boundary of an abdication and whether it was planned. The state copy: `copied` pages of the first pass, `copyAt` the instant of the next page, `copyShadow` what the standby holds, and the parts that it already follows; `seenSeq` holds the numbers of the last 4,096 messages, `motions` the mirrored motion reads by cycle count and engine with their completeness, `switches` the Markets whose switch waits, `mirroredTo` the last mirrored RELNUM of each task. -/
structure Red where
  ctl : Word
  pwatch : Word
  fhold : BitVec 32
  role : Role
  pstate : PState
  lanes : Vector Lane 2
  peerSeen : Bool
  mandate : Bool
  cmpOff : Bool
  reason : Nat
  acquired : Bool
  epoch : Nat
  blockEnd : Nat
  lastto : Nat
  lastWarm : Bool
  lasttot : Word
  cmpok : Nat
  cmpbad : Nat
  unsettled : Nat
  takeovers : Nat
  detach : Nat
  mseq : BitVec 32
  seenSeq : List (BitVec 32)
  sent : List LinkMsg
  peer : Peer
  mirrors : List Mirror
  motions : List (Nat × Nat × Bool × List Byte)
  ownHashes : List (TaskId × Nat × Word)
  peerHashes : List (TaskId × Nat × Word)
  motHashes : List (Nat × Nat × Word)
  settledTasks : List (TaskId × Nat)
  unsettledRun : List (TaskId × Nat)
  adjudication : Option Adjudication
  mirroredTo : List (TaskId × Nat)
  copied : Nat
  copyAt : Nat
  copyShadow : List Host.Cell
  motionCopied : Bool
  marketCopied : Vector Bool 4
  lastEpochAt : Nat
  epochHeld : Option EpochCopy
  epochBuild : Word × List Byte
  epochPlan : List (Nat × Nat × Nat)
  heartAt : Nat
  linkLost : Bool
  confirmFrom : Option Nat
  autorsFrom : Option Nat
  forming : Option (Nat × Nat × Bool)
  handover : Option (Nat × Bool)
  takeover : Option Takeover
  initAxes : List Nat
  bufferedControl : List Byte
  switches : List Nat
  watched : Bool
  lingering : Bool
deriving DecidableEq, Repr

/-! ### Flash, parameter store, security and update (chapter 13) -/

/-- A flash operation of the die (R471), with what follows its end. -/
inductive FlashOp where
  | program (off : Nat) (data : List Byte)
  | erase (sector : Nat)
deriving DecidableEq, Repr

/-- Which service a flash operation works for. -/
inductive FlashUser where
  | record (rtype rid : Nat) (seq : Nat)
  | compactErase (sector : Nat)
  | bankHeader
  | recorder (n : Nat)
  | recorderErase
  | saveErase (area : Nat)
  | saveWrite
  | refresh (sector : Nat) (margin : Bool)
  | image (cmd : Cmd)
  | other
deriving DecidableEq, Repr

/-- A flash operation waiting for its Purse grant or in progress (R427, R471). -/
structure FlashJob where
  op : FlashOp
  user : FlashUser
  granted : Bool
  started : Nat
deriving DecidableEq, Repr

/-- A parameter record (R475), as a scan of its bank finds it (R478, R479). -/
structure NvsRecord where
  rtype : Nat
  rid : Nat
  del : Bool
  seq : Nat
  payload : List Byte
  bank : Nat
  off : Nat
  committed : Bool
  good : Bool
deriving DecidableEq, Repr

/-- Who waits for a record append or another parameter-store operation (R485). -/
inductive NvsWaiter where
  | ring (cmd : Cmd)
  | task (req : SysReq)
  | firmware
deriving DecidableEq, Repr

/-- An append in progress (R476): its record and who waits. -/
structure NvsAppend where
  record : NvsRecord
  who : NvsWaiter
  marked : Bool
deriving DecidableEq, Repr

/-- A compaction in progress (R483): the bank being filled and the sectors still to erase. -/
structure Compaction where
  bank : Nat
  sectors : Nat
  copying : Bool
  cmd : Option Cmd
deriving DecidableEq, Repr

/-- A retentive save (R492): area, CAUSE, project, SAVESEQ, TPF, regions, data, whether its end marker is programmed and whether it is consumed. -/
structure Save where
  cause : Nat
  project : Word
  seq : Nat
  tpf : Word
  regions : List Region
  data : List Byte
  ended : Bool
  consumed : Bool
deriving DecidableEq, Repr

/-- The header of an image wrapper (R495). -/
structure Wrapper where
  kind : Nat
  enc : Bool
  liveok : Bool
  revoke : Nat
  version : Nat
  secver : Nat
  compat : Nat
  bodylen : Nat
  signer : Nat
  keyslot : Nat
  id : Word
  bodyhash : List Byte
deriving DecidableEq, Repr

/-- A firmware slot (R502, R518): its state and the header of its image, which lies in flash. -/
structure FwSlot where
  state : Nat
  hdr : Option Wrapper
deriving DecidableEq, Repr

/-- A project slot (R510): the headers of its code image and of the packages of its chain, which lie in flash one after another. -/
structure PrjSlot where
  image : Option Wrapper
  chain : List Wrapper
deriving DecidableEq, Repr

/-- A live activation in progress (R507): slot, ring, step (0 to 4), and the last exchange boundary. -/
structure LiveAct where
  slot : Nat
  ring : Nat
  step : Nat
  lastSwap : Nat
deriving DecidableEq, Repr

/-- The recovery mailbox (R514) and the recovery port (R515). -/
structure Recovery where
  active : Bool
  offset : Nat
  len : Nat
  window : List Byte
  state : Nat
  err : Nat
  image : List Byte
  verified : Bool
  slot : Nat
  lastXid : Option (BitVec 32 × List Byte)
  byPort : Bool
  used : Bool
deriving DecidableEq, Repr

/-- Flash, parameter store, security unit and firmware slots (R469 to R520). -/
structure Nvs where
  job : Option FlashJob
  queue : List FlashJob
  eraseFrom : Option Nat
  records : List NvsRecord
  boot : List NvsRecord
  append : Option NvsAppend
  waiting : List NvsAppend
  compact : Option Compaction
  actbank : Nat
  gen : Nat
  nextSeq : Nat
  appendPos : Nat
  recent : List (Nat × Nat)
  dupseq : Nat
  badrec : Nat
  flashue : Nat
  flashce : Nat
  refresh : Nat
  maxerase : Nat
  eraseCounts : List (Nat × Nat)
  progDays : List (Nat × Nat × Nat)
  weak : List Nat
  idpage : Bool
  idref : Bool
  lockFirst : Bool
  saves : Vector (Option Save) 3
  saveDirty : Vector Bool 3
  saving : Option (Nat × Nat)
  saveSeq : Nat
  secver : Nat
  reqsign : Bool
  jtaglock : Bool
  pkh : Vector (Option (List Byte)) 2
  wrevoked : BitVec 4
  kslots : BitVec 4
  fwA : FwSlot
  fwB : FwSlot
  fwrun : Nat
  prjA : PrjSlot
  prjB : PrjSlot
  prjcur : Nat
  half : Nat
  recboot : Bool
  live : Option LiveAct
  recovery : Recovery
deriving DecidableEq, Repr

/-- A cam table of the project or of CAM_LOAD lies in the cam store; this records which came by CAM_LOAD (R433). -/
structure Project where
  id : Word
  loaded : Bool
  raenok : Bool
  pair : Bool
  wdgen : Bool
  wdglock : Bool
  mirrorLoad : Nat
  routes : List Route
  regions : List Region
  layouts : Vector Layout 4
  code : List Segment
  inits : List Segment
  regs : List (Nat × Word)
  fieldcfg : List (Nat × Word)
  camLoaded : List Nat
  raw : List Segment
deriving DecidableEq, Repr

/-! ### Power and reset (chapter 14) -/

/-- A device reset in progress (R532): its cause and the instant it entered. -/
structure InReset where
  cause : ResetCause
  entered : Nat
deriving DecidableEq, Repr

/-- A power loss (R524, R526): Tpf as an always-on instant and as T, its source, and whether a save was written with its end marker. -/
structure PowerLoss where
  at_ : Nat
  tpf : Word
  source : Nat
  saveOk : Bool
deriving DecidableEq, Repr

/-- Supplies, resets and start-up (R521 to R541); `tpfSeen` is the Tpf of the loss before the last reset, `pwrcycSat` a saturation of PWRCYC to report. -/
structure Power where
  railsGood : Bool
  aonLost : Bool
  goodSince : Nat
  loss : Option PowerLoss
  inReset : Option InReset
  wanted : Option (ResetCause × Option Nat)
  resetNLow : Bool
  resetNHighAt : Nat
  pinLatched : Bool
  rstoutLow : Bool
  pbud : Nat
  recov : Bool
  brdid : Nat
  cause : ResetCause
  pfseen : Bool
  saveok : Bool
  pinlate : Bool
  rstKey : Bool
  fail : Nat
  done : Bool
  resets : Nat
  resetsSat : Bool
  t0 : Nat
  ready : Bool
  pllUnlocked : Bool
  tpfSeen : Word
  pwrcycSat : Bool
deriving DecidableEq, Repr

/-! ### The whole device -/

/-- Why the machine stops: no unit of the N9 stops the block in this model, so the type has one constructor that nothing raises. -/
inductive Fault where
  /-- Raised by nothing: every error of the manual is a state change of the block (safe). -/
  | none
deriving DecidableEq, Repr

/-- Why a command has no meaning in this model. -/
inductive Refusal where
  /-- Raised only by the dispatcher for a row of the opcode table that has no meaning yet (safe). -/
  | notModelled (mnemonic : String)
deriving DecidableEq, Repr

/-- The state of the Novrak N9 and the queue of commands waiting at the block. -/
structure State where
  pending : List Instr
  mono : Nat
  fresh : Nat
  mem : List Host.Cell
  ue : List Nat
  ctl : Control
  stalls : Vector Stall 16
  markets : Vector Market 4
  tasks : List Task
  signals : List RelSignal
  spctl : Word
  project : Project
  package : Option Package
  change : Option Change
  forces : List Force
  routeJobs : List Nat
  trigs : List Trigger
  directs : List (TaskId × Word)
  sysTurn : Nat
  scrubPos : Nat
  clock : Clock
  tcmp : Vector Comparator 64
  sync : TimeSync
  host : HostIf
  dma : Dma
  wdg : Watchdog
  purse : Purse
  errs : Errors
  rtc : Rtc
  recorder : Recorder
  trends : Vector Trend 32
  engines : Vector Engine 8
  net : Net
  field : Field
  red : Red
  nvs : Nvs
  power : Power
deriving DecidableEq, Repr

/-! ### The state at the release of a power-on reset (R535, R536) -/

/-- The register file with every word 0. -/
def zeroRegs : Vector Word 32 := Vector.replicate 32 0

/-- No release. -/
def Release.none : Release := { task := 0, instant := 0, tick := 0, relnum := 0, arrived := 0, evt := [] }

/-- A Till that holds nothing (R118, R119). -/
def Till.idle : Till :=
  { area := .empty, rel := Release.none, dispatched := false, latched := false, committing := false,
    regs := zeroRegs, pc := 0, resv := none, resvAt := 0, held := [], image := [], watch := [], ckpts := [],
    journal := [], regw := zeroRegs, unprot := false, replayed := false, rolled := false, outhash := 0,
    damaged := [], stallCause := 0, trap := none, waiting := false, paused := false, frozen := none, stepping := false,
    passBreak := false, replay := none, sample := 0, dispatchAt := 0, runSince := 0, spent := 0 }

/-- A Stall asleep, with both Tills idle and every counter 0; its first TICKET is a DESIGN CHOICE (R20, R117, R154; log 5). -/
def Stall.reset : Stall :=
  { awake := false, wakeGrant := none, tills := Vector.replicate 2 Till.idle, running := none, pend := [],
    posted := [], fence := none, ticket := 0, bps := Vector.replicate 4 none, sprun := 0, sphit := 0, sprb := 0,
    spsq := 0, spsave := 0, rply := 0, rplate := 0, rpfail := 0, spflt := 0 }

/-- A Market at reset: 1.6 GHz, WLENMAX 20, TMO 100 (R175, R551). -/
def Market.reset : Market :=
  { clk := 0, xwin := 0x6414, phase := 0, lastlen := 0, xcnt := 0, winReq := none, winOpen := none, queue := [],
    active := none, sysQueue := [] }

/-- Mode HELD, ARMED 0 (R62). -/
def Control.reset : Control :=
  { mode := .held, armed := false, reason := 0, ftask := 0, waits := [], scopeAll := false, ranSinceReset := false, resumeOk := false, saveByHandler := false, pfDeadline := none }

/-- The local clock at reset: T = F = 0, not set (R260, R269). -/
def Clock.reset : Clock :=
  { f := 0, a := 0, o := 0, rate := 0, slewRem := 0, slewMax := 2 ^ 27, ctl := 0, state := 0, set := false,
    jref := false, stepped := false, gmself := false, keyFirst := false, keyArm := none, snapT := 0, snapSec := 0,
    snapNs := 0, snapFrc := 0, jumpLim := 1000, offsMeas := 0, ticknum := 0, tskip := 0, firstBoundary := none }

/-- A disarmed comparator (R284). -/
def Comparator.reset : Comparator :=
  { ctl := 0, time := 0, per := 0, armed := false, fired := false, late := false, range := false, wdrop := false,
    stepdis := false, lateness := 0, skips := 0 }

/-- The time-sync service before the first TIME_CONFIG (R271, R352; the values the manual does not give are a DESIGN CHOICE, log 13). -/
def TimeSync.reset : TimeSync :=
  { logSync := -3, logAnn := 0, syncTmo := 3, annTmo := 3, lockThr := 100, ptpEn := 0, oneStep := 0, p2p := 0,
    prio1 := 128, prio2 := 128, clockClass := 248, accuracy := 254, variance := 0xFFFF, gmcap := false, setWait := 10,
    setWaitFrom := none, master := none, masterSet := [], steps := 0, mpd := 0, syncDiff := 0, delayReq := none, auxGmid := 0, auxOff := 0, auxValid := false,
    goodRun := 0, badRun := 0, rates := [], pendingConfig := none, firstOffset := false }

/-- A command ring at reset (R359). -/
def CmdRing.reset : CmdRing :=
  { base := 0, cfg := 0x408, cons := 0, prod := 0, halt := false, hcause := 0, fetched := [], fetching := none,
    cur := none, busy := none, handed := [], notOwned := none }

/-- A completion ring or the event ring at reset (R360). -/
def OutRing.reset : OutRing :=
  { base := 0, cfg := 0x8, prod := 0, cons := 0, halt := false, reserved := 0, lastMsg := none, announce := false }

/-- A masked MSI-X entry (R357; the mask bit is PCI Express's, PRESUMED, log 6). -/
def MsixEntry.reset : MsixEntry := { addr := 0, data := 0, ctrl := 1 }

/-- The host island at reset; the first EVSEQ is a DESIGN CHOICE (R338, R355, R358; log 5). -/
def HostIf.reset : HostIf :=
  { bme := false, d3 := false, msixEn := false, msixMask := false, msix := Vector.replicate 64 MsixEntry.reset,
    pba := 0, ctl := 0, dbbase := 0, dbper := 100, evdrop := 0, polls := 0,
    rings := Vector.replicate 16 CmdRing.reset, comps := Vector.replicate 16 OutRing.reset, ev := OutRing.reset,
    pollOut := false, nudged := false, lastPoll := none, lastGood := 0, hostLost := false, turn := 0, finished := [],
    evSeq := 0, backlog := [], droppedSince := 0, firstDropped := 0, mailboxes := Vector.replicate 64 [],
    posted := [], ringBytes := 0 }

/-- A DMA channel at reset (R372). -/
def DmaChan.reset : DmaChan :=
  { prio := 1, queue := [], active := none, waiting := none, halted := false, cause := 0, side := false,
    space := false, addr := 0, bytes := 0 }

/-- The DMA engine at reset (R372). -/
def Dma.reset : Dma :=
  { en := false, burst := false, burstOn := false, burstFail := false, rate := 0, bucket := 64, level := 0,
    levelAt := 0, turn := 0, chans := Vector.replicate 8 DmaChan.reset }

/-- The watchdog after a power-on reset (R424): HTMS 10, WOPEN 1, EXPIRE 100,000, every owner ANY. -/
def Watchdog.reset : Watchdog :=
  { en := false, lock := false, cfg := 0x140, win := 0x1_86A0_00_0001, sloten := 0,
    own := Vector.replicate 4 0x7F7F_7F7F_7F7F_7F7F, base := 0, since := 0, susp := none, key1 := false,
    expired := false, foreign := false, stray := false, cfgen := false, cfgbad := false, chk := 0, dup := 0,
    dupRaised := 0, svccnt := 0, keyFirst := none, expCause := 0, expValid := false, expMissing := 0, exppc := 0,
    expt := 0, expops := 0, lastsvct := 0, liveSvct := 0, hard := none }

/-- The Purse after a power-on reset with open straps: 16 tokens, 2 held for the save (R426, R430, R534). -/
def Purse.reset : Purse :=
  { tokens := 16, strap := 16, use := (Vector.replicate 8 0).set 1 2, waiting := [], budref := false, grants := 0,
    fails := 0, maxwait := 0, refusing := false }

/-- The error registers after a power-on reset (R435, R436). -/
def Errors.reset : Errors :=
  { rsvdw := false, accbar := false, accsys := false, ce := false, ue := false, purse := false, wdgprev := false,
    fatalprev := false, erraddr := 0, agent := 0, write := false, ueaddr := 0, ueown := 0, fatalCause := 0,
    fatalValid := false, fatalAt := none, ces := Vector.replicate 68 0, ues := Vector.replicate 68 0 }

/-- The backup domain at its power-up without retained state (R440, R448). -/
def Rtc.reset : Rtc :=
  { count := 0, wseq := 0, cal := 0, sync := false, write := none, writeRing := none, busy := false, tvalid := false,
    bklost := true, lockdisc := false, vbatlow := false, shrem := 0, winpos := 0, edges := 0, opsec := 0,
    pwrcyc := 0, lockout := false, onVbat := false, syncSum := 0, syncSecs := 0 }

/-- The recorder at reset, its ring empty (R460). -/
def Recorder.reset : Recorder :=
  { ctl := 5, trg := Vector.replicate 16 0, tsel := Vector.replicate 16 0, next := 0, overwr := 0, lost := 0,
    corrupt := 0, lostSince := 0, fresh := true, buffer := [], stored := [], slots := 0, flushRing := none }

/-- A trend channel that is off (R467). -/
def Trend.reset : Trend :=
  { kind := 0, src := 0, perM1 := 0, moff := 0, maxseg := 2, points := 0, tol := 0, next := 0, anchor := none,
    seg := [], stored := [], lost := 0, gapped := false, lastTick := none }

/-- A motion engine at reset: MCYC 1, DL 2,100, RFRN 2, MOVRLIM 8 (R244). -/
def Engine.reset : Engine :=
  { ecfg := 0x82_0834_0001, cfg := 0x82_0834_0001, state := 0, lastdone := 0, maxdone := 0, ecyc := 0, eovr := 0,
    eesc := 0, run := 0, refreshPos := 0, axes := [], due := none, cycle := none, codes := [],
    codesFor := none, missed := [], stale := false }

/-- A network port at reset (R250 to R258). -/
def Port.reset : Port :=
  { cfg := 0x05F2_FF2E, started := false, link := false, spd := 0, badspd := false, nogrant := false, vstate := 0,
    preact := false, lastdisc := 0, mac := 0, tsc := Vector.replicate 4 0, rxcyc := 0, txcyc := 0, rxdisc := 0,
    rxmiss := 0, glate := 0, cbelim := 0, rxfcs := 0, rxother := 0, oper := none, admin := none }

/-- The generator in MODE 0 (R321). -/
def Generator.off : Generator :=
  { set := { mode := 0, cnt := 0, per := 0, wid := 0, dly := 0 }, h := 0, begun := 0, out := false, active := false }

/-- A channel at reset: Type 1 input, debounce off, switch open (R297). -/
def Channel.reset : Channel :=
  { cfg := 0, sha := 0, shb := 0, level := false, levelT := 0, levelAt := 0, filt := false, on := false, ocf := false,
    otf := false, tripAt := none, relatch := false, imageOn := false, eventOn := false, gen := Generator.off,
    pend := none, appliedSeq := 0, appliedN := 0, busy := false, rej := false }

/-- A counter that is off (R310, R314). -/
def Counter.reset : Counter :=
  { cfg := 0, value := 0, preset := 0, cmp := 0, wrap := false, sat := false, qerr := false, cmphit := false, csv := 0,
    edges := 0, firstT := 0, lastT := none, prevT := none, slot := 0, span := 0 }

/-- A latch unit that is off, EDGE rising (R316). -/
def LatchUnit.reset : LatchUnit := { cfg := 0x40, ign := 0, t := 0, lcount := 0, capval := 0, captured := false }

/-- A reflex entry that is off, PWID 1 (R319). -/
def Reflex.reset : Reflex := { mask := 0, ctl := 0x80, latched := false, pulse := none, term := false }

/-- A supply group whose L+ is absent (R523; the level at reset is a DESIGN CHOICE, log 3). -/
def Group.reset : Group :=
  { lplus := .absent, uv := true, sag := false, fault := false, clrref := false, uvSince := 0, cutSince := some 0,
    sagRun := false, minCode := none }

/-- An analog input that is off (R330). -/
def Analog.reset : Analog :=
  { cfg := 0, last := 0, valid := false, lastt := 0, min := 0, max := 0, mmvalid := false, ovr := false,
    tdrop := false, sampling := none, sampledAt := none, since := 0 }

/-- The field die at reset (R297, R302). -/
def Field.reset : Field :=
  { tcfg := 0x32_0000_0000_0000, map := 0, pcfg := 0, granted := 0, nogrant := false, cfgarm := false, glate := 0,
    stagger := 0, channels := Vector.replicate 32 Channel.reset, counters := Vector.replicate 32 Counter.reset,
    latches := Vector.replicate 8 LatchUnit.reset, reflexes := Vector.replicate 32 Reflex.reset,
    groups := Vector.replicate 4 Group.reset, analogs := Vector.replicate 4 Analog.reset, tinDue := none,
    gatherDue := none, toutDue := none, gathering := none, gathered := none, out := 0, lateRun := false,
    lastSeq := Vector.replicate 8 none, deferred := [], deferAt := 0, tout0 := false, tout1 := false }

/-- No peer heard (R400). -/
def Peer.none : Peer :=
  { heard := false, linkver := 0, role := 0, pstate := 0, mandate := false, compat := 0, epoch := 0, serial := 0,
    project := 0, gmid := 0, locked := false, clkdom := 0, enabled := false, prefer := false, mac := 0, block := 0 }

/-- A Bolist lane that is off (R536). -/
def Lane.reset : Lane := { granted := false, up := false, valid := 0, lastValid := 0, errs := 0 }

/-- The redundancy unit at reset: SOLO, AUTORS 1, HBTMO 4, SETTLEMAX 10, COPYRATE 16, RETPER 10, CONFIRM 500 (R406, R407). -/
def Red.reset : Red :=
  { ctl := 0x3E80_5080_5024, pwatch := 0, fhold := 0, role := .solo, pstate := .none,
    lanes := Vector.replicate 2 Lane.reset, peerSeen := false, mandate := false, cmpOff := false, reason := 0, acquired := false,
    epoch := 0, blockEnd := 0, lastto := 0, lastWarm := false, lasttot := 0, cmpok := 0, cmpbad := 0, unsettled := 0,
    takeovers := 0, detach := 0, mseq := 0, seenSeq := [], sent := [], peer := Peer.none, mirrors := [],
    motions := [], ownHashes := [], peerHashes := [], motHashes := [], settledTasks := [], unsettledRun := [],
    adjudication := none, mirroredTo := [], copied := 0, copyAt := 0, copyShadow := [], motionCopied := false,
    marketCopied := Vector.replicate 4 false, lastEpochAt := 0, epochHeld := none, epochBuild := (0, []), epochPlan := [],
    heartAt := 0, linkLost := false, confirmFrom := none, autorsFrom := none, forming := none, handover := none,
    takeover := none, initAxes := [], bufferedControl := [], switches := [], watched := false, lingering := false }

/-- An empty firmware slot (R502). -/
def FwSlot.empty : FwSlot := { state := 0, hdr := none }

/-- The recovery mailbox idle and recovery mode off (R513, R514). -/
def Recovery.reset : Recovery :=
  { active := false, offset := 0, len := 0, window := [], state := 0, err := 0, image := [], verified := false,
    slot := 0, lastXid := none, byPort := false, used := false }

/-- Flash, store and slots of a part as Worell ships it: identity page locked, everything else erased (R491; the erased content is a DESIGN CHOICE, log 7). -/
def Nvs.reset : Nvs :=
  { job := none, queue := [], eraseFrom := none, records := [], boot := [], append := none,
    waiting := [], compact := none, actbank := 0, gen := 1, nextSeq := 1, appendPos := 64, recent := [], dupseq := 0,
    badrec := 0, flashue := 0, flashce := 0, refresh := 0, maxerase := 0, eraseCounts := [], progDays := [], weak := [],
    idpage := true, idref := false, lockFirst := false, saves := Vector.replicate 3 none,
    saveDirty := Vector.replicate 3 false, saving := none, saveSeq := 1, secver := 0, reqsign := false,
    jtaglock := false, pkh := Vector.replicate 2 none, wrevoked := 0, kslots := 0, fwA := FwSlot.empty,
    fwB := FwSlot.empty, fwrun := 0, prjA := { image := none, chain := [] }, prjB := { image := none, chain := [] },
    prjcur := 0, half := 0, recboot := false, live := none, recovery := Recovery.reset }

/-- No project (R509). -/
def Project.none : Project :=
  { id := 0, loaded := false, raenok := false, pair := false, wdgen := false, wdglock := false, mirrorLoad := 0,
    routes := [], regions := [], layouts := Vector.replicate 4 { insts := [], members := [] }, code := [], inits := [],
    regs := [], fieldcfg := [], camLoaded := [], raw := [] }

/-- The always-on domain at the release of a power-on reset with open straps (R534, R540). -/
def Power.reset : Power :=
  { railsGood := true, aonLost := false, goodSince := 0, loss := none, inReset := none, wanted := none,
    resetNLow := false, resetNHighAt := 0, pinLatched := false, rstoutLow := true, pbud := 0, recov := false,
    brdid := 0, cause := .poweron, pfseen := false, saveok := false, pinlate := false, rstKey := false, fail := 0,
    done := false, resets := 0, resetsSat := false, t0 := 0, ready := false,
    pllUnlocked := false, tpfSeen := 0, pwrcycSat := false }

/-- The machine at the release of a power-on reset with open straps (R535, R536, log 2). -/
def State.reset : State :=
  { pending := [], mono := 0, fresh := 0, mem := [], ue := [], ctl := Control.reset,
    stalls := Vector.replicate 16 Stall.reset, markets := Vector.replicate 4 Market.reset, tasks := [], signals := [],
    spctl := 2, project := Project.none, package := none, change := none, forces := [], routeJobs := [], trigs := [],
    directs := [], sysTurn := 0, scrubPos := 0, clock := Clock.reset, tcmp := Vector.replicate 64 Comparator.reset,
    sync := TimeSync.reset, host := HostIf.reset, dma := Dma.reset, wdg := Watchdog.reset, purse := Purse.reset,
    errs := Errors.reset, rtc := Rtc.reset, recorder := Recorder.reset, trends := Vector.replicate 32 Trend.reset,
    engines := Vector.replicate 8 Engine.reset, net := { ports := Vector.replicate 4 Port.reset, sched := [], wire := [] },
    field := Field.reset, red := Red.reset, nvs := Nvs.reset, power := Power.reset }

end Sys2Proof.Machine
end

