-- ==== Sys2Proof/Machine/Clock.lean ====
section
/-!
DEFINITION. The free-running count, the local clock T and the passing of time (R260 to R267, R44; what of time is left out, log 9).
-/
namespace Sys2Proof.Machine

/-- `a - b` of two counts of F, which is never negative in a run (R260). -/
def elapsedF (c : Clock) : Int := ((c.f - c.a).toNat : Int)

/-- The slew applied since A, in units of 2^-40 ns, never more than the remaining amount (R266). -/
def slewApplied (c : Clock) : Int :=
  let want := c.slewRem
  let run := elapsedF c * (c.slewMax : Int)
  if 0 ≤ want then min want run else max want (-run)

/-- The local clock time T as an exact integer (R260, R266). -/
def clockT (c : Clock) : Int :=
  (c.f.toNat : Int) + fdiv (c.o + elapsedF c * c.rate + slewApplied c) (2 ^ 40)

/-- The local clock time T in ns, as a word (R44, R260). -/
def localT (s : State) : Word := wordOfInt (clockT s.clock)

/-- T as a natural number of ns. -/
def nowT (s : State) : Nat := (localT s).toNat

/-- The fold of R267: O takes what the running rate has added and A becomes F; the rest of a slew stays to be applied. -/
def foldClock (c : Clock) : Clock :=
  { c with
    o := c.o + elapsedF c * c.rate + slewApplied c
    a := c.f
    slewRem := c.slewRem - slewApplied c }

/-- The remaining slew in ns, rounded toward zero (R266, TSY.SLEWREM). -/
def slewLeft (c : Clock) : Int :=
  let left := c.slewRem - slewApplied c
  if 0 ≤ left then left / 2 ^ 40 else -((-left) / 2 ^ 40)

/-- `d` ns pass: the always-on time base always runs, F only outside a reset (R260; log 1). -/
def passTime (d : Nat) (s : State) : State :=
  { s with
    mono := s.mono + d
    clock := if s.power.inReset.isSome then s.clock else { s.clock with f := s.clock.f + BitVec.ofNat 64 d } }

/-- The block idles until the always-on instant `t`; nothing when it is past (log 1). -/
def untilMono (t : Nat) (s : State) : State := passTime (t - s.mono) s

/-- ns of F until T reaches `t` at the present rate, searched upward from the difference (R262 bounds the rate); `fuel` bounds the search. -/
def waitForT : Nat → Nat → State → State
  | 0, _, s => s
  | fuel + 1, t, s =>
    if t ≤ nowT s then s else waitForT fuel t (passTime (max 1 ((t - nowT s) * 997 / 1003)) s)

/-- The block idles until the local clock T has reached `t` (R273, R277; log 1). -/
def untilT (t : Nat) (s : State) : State := waitForT 4096 t s

/-- Market cycles in ns, rounded up, at the clock MKTn.CLK selects: 1.6, 1.2, 0.8 or 0.4 GHz (R19, R21). -/
def cyclesNs (m : Market) (cycles : Nat) : Nat :=
  match bits m.clk 1 0 with
  | 0 => ceilDiv (cycles * 5) 8
  | 1 => ceilDiv (cycles * 5) 6
  | 2 => ceilDiv (cycles * 5) 4
  | _ => ceilDiv (cycles * 5) 2

/-- ns in Market cycles, rounded down (R117). -/
def nsCycles (m : Market) (ns : Nat) : Nat :=
  match bits m.clk 1 0 with
  | 0 => ns * 8 / 5
  | 1 => ns * 6 / 5
  | 2 => ns * 4 / 5
  | _ => ns * 2 / 5

/-- The watchdog count at the always-on time base: 1 per us since the period began, stopped while suspended, expired or disabled (R409, R420). -/
def wdgCount (s : State) : Nat :=
  if s.wdg.en && !s.wdg.expired && s.wdg.susp.isNone && s.power.loss.isNone then
    (s.wdg.base + (s.mono - s.wdg.since) / 1000) % 2 ^ 24
  else s.wdg.base

end Sys2Proof.Machine
end

