-- ==== Sys2Proof/Machine/Memory.lean ====
section
/-!
DEFINITION. The memory of R23 and R27 as one canonical list of cells, the system address map, the SECDED marks of R24 and R25, and the reads and writes every agent uses.
-/
namespace Sys2Proof.Machine

/-- First address of the memory-mapped flash die (R27). -/
def flashBase : Nat := 0x8000_0000

/-- What an unlisted address reads as: 0 in SRAM, 16#FF in erased flash (R535, R471; log 7). -/
def blank (a : Nat) : Byte := if flashBase ≤ a then 0xFF else 0

/-- The byte that a cell list gives for an address. -/
def memGet : List Host.Cell → Nat → Byte
  | [], a => blank a
  | (k, v) :: r, a => if k = a then v else memGet r a

/-- The cells of a byte string that lies at `a`, those that read as unlisted left out. -/
def cellsFrom : Nat → List Byte → List Host.Cell
  | _, [] => []
  | a, b :: r => if b = blank a then cellsFrom (a + 1) r else (a, b) :: cellsFrom (a + 1) r

/-- A byte string written at an address, the canonical form kept. -/
def memSplice (m : List Host.Cell) (a : Nat) (bs : List Byte) : List Host.Cell :=
  m.filter (fun c => c.1 < a) ++ cellsFrom a bs ++ m.filter (fun c => a + bs.length ≤ c.1)

/-- Addresses strictly rising, from a lower bound on, and no cell equal to what an unlisted address reads as. -/
def Memory.wfFrom : Nat → List Host.Cell → Bool
  | _, [] => true
  | lo, (k, v) :: r => decide (lo ≤ k) && (v != blank k) && Memory.wfFrom (k + 1) r

/-- The canonical form of memory. -/
def Memory.wf (m : List Host.Cell) : Bool := Memory.wfFrom 0 m

/-- A byte of memory. -/
def readByte (s : State) (a : Nat) : Byte := memGet s.mem a

/-- Bytes of memory from an address on. -/
def readBytes (s : State) : Nat → Nat → List Byte
  | _, 0 => []
  | a, n + 1 => readByte s a :: readBytes s (a + 1) n

/-- The 64-bit word at an address (R3). -/
def readWord (s : State) (a : Nat) : Word := wordOfBytes (readBytes s a 8)

/-- The word addresses that an access of `n` bytes at `a` touches (R24). -/
def wordsOf (a n : Nat) : List Nat :=
  if n = 0 then [] else (List.range ((a + n - 1) / 8 - a / 8 + 1)).map (fun i => 8 * (a / 8 + i))

/-- The first word of an access that holds an uncorrectable error (R24). -/
def ueIn (s : State) (a n : Nat) : Option Nat := (wordsOf a n).find? (fun w => s.ue.contains w)

/-- A word address added to the uncorrectable marks, kept in rising order. -/
def ueInsert (w : Nat) : List Nat → List Nat
  | [] => [w]
  | x :: r => if w < x then w :: x :: r else if w = x then x :: r else x :: ueInsert w r

/-- A word marked uncorrectable (R24). -/
def markUe (s : State) (w : Nat) : State := { s with ue := ueInsert (8 * (w / 8)) s.ue }

/-- The uncorrectable mark of a word cleared (R25). -/
def clearUe (s : State) (w : Nat) : State := { s with ue := s.ue.filter (fun x => x != w) }

/-- Bytes written with no regard to error marks: the content alone changes. -/
def putBytes (s : State) (a : Nat) (bs : List Byte) : State := { s with mem := memSplice s.mem a bs }

/-- One piece of a write, inside one 8-byte word: a whole word clears its error, a narrow write into a damaged word is discarded and reported (R25). -/
def writePiece (s : State) (a : Nat) (bs : List Byte) : State × List Nat :=
  let w := 8 * (a / 8)
  if bs.length = 8 then (clearUe (putBytes s a bs) w, [])
  else if s.ue.contains w then (s, [w])
  else (putBytes s a bs, [])

/-- A byte string cut at word boundaries and written piece by piece; the second part lists the damaged words that kept their error (R25). -/
def writeMemAux : Nat → State → Nat → List Byte → State × List Nat
  | 0, s, _, _ => (s, [])
  | fuel + 1, s, a, bs =>
    if bs.isEmpty then (s, [])
    else
      let n := 8 - a % 8
      let r := writePiece s a (bs.take n)
      let q := writeMemAux fuel r.1 (a + n) (bs.drop n)
      (q.1, r.2 ++ q.2)

/-- A write of bytes to memory under R25, with the damaged words it met. -/
def writeMem (s : State) (a : Nat) (bs : List Byte) : State × List Nat := writeMemAux (bs.length + 1) s a bs

/-- A write of a whole 64-bit word (R25). -/
def writeWord (s : State) (a : Nat) (v : Word) : State := clearUe (putBytes s a (bytesOfWord v)) a

/-- A range of memory with no uncorrectable mark left in it. -/
def clearUeRange (s : State) (a n : Nat) : State := { s with ue := s.ue.filter (fun x => x < a || a + n ≤ x) }

/-- A range filled with zero bytes. -/
def zeroRange (s : State) (a n : Nat) : State :=
  clearUeRange { s with mem := s.mem.filter (fun c => c.1 < a || a + n ≤ c.1) } a n

/-! ### The system address map (R27) -/

/-- A row of the system address map with its index (R27). -/
inductive MemRow where
  | teller
  | market (m : Nat)
  | image (m : Nat)
  | prog (k : Nat)
  | local_ (k : Nat)
  | daybook (k : Nat)
  | motion (e : Nat)
  | cam
  | netMem (k : Nat)
  | regs
  | flash
deriving DecidableEq, Repr

/-- Base of Market memory m (R27). -/
def marketBase (m : Nat) : Nat := 0x1000_0000 + m * 0x40_0000

/-- Base of the image bank of Market m; outputs lie at +16#4_0000 (R27). -/
def imageBase (m : Nat) : Nat := 0x1100_0000 + m * 0x8_0000

/-- Base of the output half of image bank m (R27). -/
def outBase (m : Nat) : Nat := imageBase m + 0x4_0000

/-- Base of the program store of Stall k (R27). -/
def progBase (k : Nat) : Nat := 0x2000_0000 + k * 0x10_0000

/-- Base of the local data of Stall k (R27). -/
def localBase (k : Nat) : Nat := 0x2100_0000 + k * 0x4_0000

/-- Base of the Daybook of Stall k (R27). -/
def dayBase (k : Nat) : Nat := 0x2200_0000 + k * 0x2_0000

/-- Base of the private memory of motion engine e (R27). -/
def motBase (e : Nat) : Nat := 0x3000_0000 + e * 0x8_0000

/-- Base of the shared cam store (R27). -/
def camBase : Nat := 0x3040_0000

/-- Base of the memory of network engine k (R27). -/
def netBase (k : Nat) : Nat := 0x3100_0000 + k * 0x10_0000

/-- Index of an address in a repeated range (R27). -/
def inRow (a base stride n : Nat) : Option Nat :=
  if base ≤ a ∧ a < base + stride * n then some ((a - base) / stride) else none

/-- The row of R27 that an address lies in, and the end of that row. -/
def locate (a : Nat) : Option (MemRow × Nat) :=
  if a < 0x40_0000 then some (.teller, 0x40_0000)
  else match inRow a 0x1000_0000 0x40_0000 4 with
  | some m => some (.market m, marketBase (m + 1))
  | none => match inRow a 0x1100_0000 0x8_0000 4 with
  | some m => some (.image m, imageBase (m + 1))
  | none => match inRow a 0x2000_0000 0x10_0000 16 with
  | some k => some (.prog k, progBase (k + 1))
  | none => match inRow a 0x2100_0000 0x4_0000 16 with
  | some k => some (.local_ k, localBase (k + 1))
  | none => match inRow a 0x2200_0000 0x2_0000 16 with
  | some k => some (.daybook k, dayBase (k + 1))
  | none => match inRow a 0x3000_0000 0x8_0000 8 with
  | some e => some (.motion e, motBase (e + 1))
  | none => match inRow a camBase 0x20_0000 1 with
  | some _ => some (.cam, camBase + 0x20_0000)
  | none => match inRow a 0x3100_0000 0x10_0000 2 with
  | some k => some (.netMem k, netBase (k + 1))
  | none => match inRow a 0x4000_0000 0x4_0000 1 with
  | some _ => some (.regs, 0x4004_0000)
  | none => match inRow a flashBase 0x800_0000 1 with
  | some _ => some (.flash, 0x8800_0000)
  | none => none

/-- Owner index of an SRAM address (R436). -/
def ownerOf (a : Nat) : Nat :=
  match locate a with
  | some (.prog k, _) => k
  | some (.local_ k, _) => 16 + k
  | some (.market m, _) => 32 + m
  | some (.image m, _) => 36 + m
  | some (.motion e, _) => 40 + e
  | some (.cam, _) => 48
  | some (.netMem k, _) => 49 + k
  | some (.teller, _) => 51
  | some (.daybook k, _) => 52 + k
  | _ => 68

/-- CAMID + 1 of the cam table that a cam-store address lies in, else 0 (R219, R220, R461). -/
def camidAt (s : State) (a : Nat) : Nat :=
  if camBase ≤ a ∧ a < camBase + 0x20_0000 then
    match (List.range 256).find? (fun i =>
      let off := bits (readWord s (camBase + 8 * i)) 20 0
      let nseg := bits (readWord s (camBase + off)) 13 0
      off != 0 && decide (off ≤ a - camBase) && decide (a - camBase < off + 64 + 64 * nseg)) with
    | some i => i + 1
    | none => 0
  else 0

end Sys2Proof.Machine
end

