-- ==== Sys2Proof/Machine/Regs.lean ====
section
/-!
DEFINITION. Reading a BAR0 register: every register of R549 as the word that its fields make, by block.
-/
namespace Sys2Proof.Machine

/-- The code of a mode (R62). -/
def Mode.code : Mode → Nat
  | .held => 0
  | .stop => 1
  | .run => 2
  | .hold => 3

/-- SYS.OPMODE (R62). -/
def opmodeWord (s : State) : Word :=
  field 0 s.ctl.mode.code ||| flag 3 s.ctl.armed ||| field 8 s.ctl.reason ||| field 16 s.ctl.ftask.toNat

/-- The code of a reset cause (R529). -/
def ResetCause.code : ResetCause → Nat
  | .poweron => 0
  | .brownout => 1
  | .pin => 2
  | .software => 3
  | .watchdog => 4
  | .fatal => 5
  | .update => 6

/-- SYS.ERRS (R435). -/
def errsWord (e : Errors) : Word :=
  flag 0 e.rsvdw ||| flag 1 e.accbar ||| flag 2 e.accsys ||| flag 3 e.ce ||| flag 4 e.ue ||| flag 5 e.purse |||
    flag 6 e.wdgprev ||| flag 7 e.fatalprev

/-- SYS.RSTCAUSE (R540). -/
def rstcauseWord (p : Power) : Word :=
  field 0 p.cause.code ||| flag 3 p.pfseen ||| flag 4 p.saveok ||| flag 5 p.pinlate

/-- SYS.FATAL (R435). -/
def fatalWord (e : Errors) : Word := field 0 e.fatalCause ||| flag 4 e.fatalValid

/-- SYS.SELFTEST (R540). -/
def selftestWord (p : Power) : Word := field 0 p.fail ||| flag 6 p.done

/-- The element `i` of a register group that starts at `base` with a stride and a count, if `off` is one of them (R549). -/
def slotOf (base stride n off : Nat) : Option Nat :=
  if base ≤ off ∧ (off - base) % stride = 0 ∧ (off - base) / stride < n then some ((off - base) / stride) else none

/-- The SYS block (R62, R435, R436, R540, R550). -/
def readSys (s : State) (o : Nat) : Option Word :=
  match o with
  | 0x00 => some (opmodeWord s)
  | 0x08 => some (field 0 0xA1 ||| field 8 0x9648)
  | 0x10 => some (errsWord s.errs)
  | 0x18 => some s.errs.erraddr
  | 0x20 => some (field 0 s.errs.agent ||| flag 4 s.errs.write)
  | 0x28 => some s.errs.ueaddr
  | 0x30 => some (field 0 s.errs.ueown)
  | 0x38 => some (fatalWord s.errs)
  | 0x40 => some 0
  | 0x48 => some (rstcauseWord s.power)
  | 0x50 => some 0
  | 0x58 => some (field 0 s.power.pbud ||| flag 3 s.power.recov ||| field 4 s.power.brdid)
  | 0x60 => some (selftestWord s.power)
  | 0x68 => some (field 0 s.power.resets)
  | _ =>
    match slotOf 0x400 8 68 o with
    | some k => some (field 0 (vget s.errs.ces k 0))
    | none =>
      match slotOf 0x800 8 68 o with
      | some k => some (field 0 (vget s.errs.ues k 0))
      | none => none

/-- Tokens held, the save's included (R430). -/
def purseHeld (p : Purse) : Nat := p.use.toList.foldl (· + ·) 0

/-- BUDGET minus HELD, or 0 when negative (R430). -/
def purseFree (p : Purse) : Nat := p.tokens - purseHeld p

/-- The PRIO of a request is its SRC (R427). -/
def purseBefore (a b : PurseReq) : Bool :=
  if a.src ≠ b.src then a.src < b.src else if a.made ≠ b.made then a.made < b.made else a.who < b.who

/-- The head request of the Purse (R428). -/
def purseHead : List PurseReq → Option PurseReq
  | [] => none
  | a :: r =>
    match purseHead r with
    | none => some a
    | some b => if purseBefore b a then some b else some a

/-- PRS.REQ (R430). -/
def prsReqWord (s : State) : Word :=
  match purseHead s.purse.waiting with
  | none => 0
  | some r => flag 0 true ||| field 1 r.src ||| field 4 r.tokens ||| field 10 (satTo 22 ((s.mono - r.made) / 1000))

/-- PRS.USE (R430). -/
def prsUseWord (p : Purse) : Word :=
  (enumFrom 0 p.use.toList).foldl (fun w x => if x.1 = 0 then w else w ||| field (6 * x.1 - 6) x.2) 0

/-- The PRS block (R430). -/
def readPrs (s : State) (o : Nat) : Option Word :=
  match o with
  | 0x00 => some (field 0 s.purse.tokens ||| field 8 s.purse.strap)
  | 0x08 => some (field 0 (purseFree s.purse) ||| field 8 (purseHeld s.purse) ||| field 14 s.purse.waiting.length |||
      flag 19 s.purse.budref)
  | 0x10 => some (prsReqWord s)
  | 0x18 => some (prsUseWord s.purse)
  | 0x20 => some (field 0 s.purse.grants)
  | 0x28 => some (field 0 s.purse.fails)
  | 0x30 => some (field 0 s.purse.maxwait)
  | 0x38 => some 0
  | _ => none

/-- WDG.EXP (R418). -/
def wdgExpWord (w : Watchdog) : Word :=
  field 0 w.expCause ||| flag 3 w.expValid ||| field 4 w.expMissing.toNat

/-- WDG.STAT (R424). -/
def wdgStatWord (s : State) : Word :=
  let w := s.wdg
  field 0 (wdgCount s) ||| flag 24 w.susp.isSome ||| flag 25 w.key1 ||| flag 26 w.expired ||| flag 27 w.foreign |||
    flag 28 w.stray ||| flag 29 w.cfgen ||| flag 30 w.cfgbad

/-- The WDG block (R418, R424). -/
def readWdg (s : State) (o : Nat) : Option Word :=
  let w := s.wdg
  match o with
  | 0x00 => some (w.cfg ||| flag 0 w.en ||| flag 1 w.lock)
  | 0x08 => some w.win
  | 0x10 => some (field 0 w.sloten.toNat)
  | 0x18 => some w.own[0]
  | 0x20 => some w.own[1]
  | 0x28 => some w.own[2]
  | 0x30 => some w.own[3]
  | 0x38 => some 0
  | 0x40 => some 0
  | 0x48 => some (wdgStatWord s)
  | 0x50 => some (field 0 w.chk.toNat)
  | 0x58 => some (field 0 w.dup.toNat)
  | 0x60 => some (field 0 w.svccnt)
  | 0x68 => some (wdgExpWord w)
  | 0x70 => some w.exppc
  | 0x78 => some w.expt
  | 0x80 => some (field 0 w.expops)
  | 0x88 => some w.lastsvct
  | _ => none

/-- The RNUM of the oldest stored record, or the next one when none is stored (R460). -/
def recOldest (r : Recorder) : Nat :=
  match r.stored ++ r.buffer with
  | [] => r.next
  | x :: _ => x.rnum

/-- The REC block (R460). -/
def readRec (s : State) (o : Nat) : Option Word :=
  let r := s.recorder
  match o with
  | 0x00 => some r.ctl
  | 0x08 => some (field 0 r.next)
  | 0x10 => some (field 0 (recOldest r))
  | 0x18 => some (field 0 r.buffer.length)
  | 0x20 => some (field 0 r.overwr)
  | 0x28 => some (field 0 r.lost)
  | 0x30 => some (field 0 r.corrupt)
  | _ =>
    match slotOf 0x100 8 16 o with
    | some k => some (vget r.trg k 0)
    | none => (slotOf 0x200 8 16 o).map (fun k => vget r.tsel k 0)

/-- RTC.COUNT with WSEQ (R448). -/
def rtcCountWord (r : Rtc) : Word := field 0 r.count ||| field 48 r.wseq

/-- The RTC block (R448). -/
def readRtc (s : State) (o : Nat) : Option Word :=
  let r := s.rtc
  match o with
  | 0x00 => some (rtcCountWord r)
  | 0x08 => some 0
  | 0x10 => some 0
  | 0x18 => some (putBits 0 10 0 (r.cal % 2048).toNat)
  | 0x20 => some (flag 0 r.sync)
  | 0x28 => some (flag 0 r.write.isSome ||| flag 1 r.busy ||| flag 2 r.tvalid ||| flag 3 r.bklost |||
      flag 4 r.lockdisc ||| flag 5 r.vbatlow ||| field 6 r.shrem)
  | 0x30 => some (field 0 r.opsec)
  | 0x38 => some (field 0 r.pwrcyc)
  | _ => none

/-- The size of a record on flash: 32 bytes and its payload padded to 8 (R475). -/
def recordSize (r : NvsRecord) : Nat := 32 + 8 * ceilDiv r.payload.length 8

/-- A record of the same key that R482 prefers to `r`. -/
def nvsBetter (l : List NvsRecord) (r : NvsRecord) : Bool :=
  l.any (fun x => x.good && x.rtype == r.rtype && x.rid == r.rid && (r.seq < x.seq ||
    (r.seq == x.seq && (r.bank * 2 ^ 32 + r.off < x.bank * 2 ^ 32 + x.off))))

/-- The winning records, deletions included (R482). -/
def nvsWinners (l : List NvsRecord) : List NvsRecord := l.filter (fun r => r.good && !nvsBetter l r)

/-- Live bytes of the parameter store (R484). -/
def nvsLive (l : List NvsRecord) : Nat :=
  ((nvsWinners l).filter (fun r => !r.del)).foldl (fun n r => n + recordSize r) 0

/-- Bytes appended in the last 3,600 s (R484). -/
def nvsHour (s : State) : Nat :=
  (s.nvs.recent.filter (fun x => s.mono < x.1 + 3600 * 10 ^ 9)).foldl (fun n x => n + x.2) 0

/-- The NVS block (R516). -/
def readNvs (s : State) (o : Nat) : Option Word :=
  let n := s.nvs
  match o with
  | 0x00 => some (field 0 n.actbank ||| flag 1 n.compact.isSome ||| flag 2 n.job.isSome ||| field 16 n.dupseq |||
      field 32 n.badrec)
  | 0x08 => some (field 0 n.gen)
  | 0x10 => some (field 0 n.nextSeq)
  | 0x18 => some (field 0 (nvsLive n.records) ||| field 20 (2 ^ 21 - n.appendPos) ||| field 42 (nvsHour s))
  | 0x20 => some (flag 0 n.idpage ||| flag 1 n.idref)
  | 0x28 => some (field 0 n.flashue)
  | 0x30 => some (field 0 n.flashce)
  | 0x38 => some (field 0 n.refresh)
  | 0x40 => some (field 0 n.maxerase)
  | 0x48 => some 0
  | _ => none

/-- UPD.FWVERA or UPD.FWVERB (R518). -/
def fwverWord (f : FwSlot) : Word :=
  match f.state, f.hdr with
  | 0, _ => 0
  | _, none => 0
  | _, some h => field 0 h.version ||| field 32 h.secver ||| field 48 h.compat

/-- The current project slot (R510). -/
def curPrj (n : Nvs) : PrjSlot := if n.prjcur = 0 then n.prjA else n.prjB

/-- The UPD block (R518). -/
def readUpd (s : State) (o : Nat) : Option Word :=
  let n := s.nvs
  match o with
  | 0x00 => some (field 0 n.fwA.state ||| field 3 n.fwB.state ||| field 6 n.fwrun ||| flag 7 n.live.isSome |||
      flag 8 n.recboot ||| field 9 n.prjcur ||| field 10 (curPrj n).chain.length)
  | 0x08 => some (fwverWord n.fwA)
  | 0x10 => some (fwverWord n.fwB)
  | 0x18 => some (if s.project.loaded then s.project.id else 0)
  | _ => none

/-- SEC.STAT (R517). -/
def secStatWord (n : Nvs) : Word :=
  field 0 n.secver ||| flag 6 n.reqsign ||| flag 7 n.jtaglock ||| flag 8 n.pkh[0].isSome ||| flag 9 n.pkh[1].isSome |||
    field 10 n.wrevoked.toNat ||| field 14 n.kslots.toNat

/-- A word whose bit `i` is `f` of element `i`. -/
def flagsOf {α : Type} (f : α → Bool) (l : List α) : Word :=
  (enumFrom 0 l).foldl (fun w x => w ||| flag x.1 (f x.2)) 0

/-- The DMA block (R372). -/
def readDma (s : State) (o : Nat) : Option Word :=
  let d := s.dma
  let ch (k : Nat) : DmaChan := vget d.chans k DmaChan.reset
  match o with
  | 0x00 => some (flag 0 d.en ||| flag 1 d.burst)
  | 0x08 => some (flag 0 d.burstOn ||| flag 1 d.burstFail ||| (flagsOf DmaChan.halted d.chans.toList <<< 2) |||
      (flagsOf (fun c => c.active.isSome) d.chans.toList <<< 10) |||
      flag 17 (s.host.pollOut || s.host.rings.toList.any (fun r => r.fetching.isSome)))
  | 0x10 => some (field 0 d.rate ||| field 16 d.bucket)
  | _ =>
    match slotOf 0x100 8 7 o with
    | some k => some (field 0 (ch k).prio)
    | none =>
      match slotOf 0x180 8 7 o with
      | some _ => some 0
      | none =>
        match slotOf 0x200 8 7 o with
        | some k => some (field 0 (ch k).cause ||| flag 3 (ch k).side ||| flag 4 (ch k).space)
        | none =>
          match slotOf 0x280 8 7 o with
          | some k => some (ch k).addr
          | none => (slotOf 0x300 8 8 o).map (fun k => field 0 (if k = 7 then s.host.ringBytes else (ch k).bytes))

/-- CRSTATn (R359). -/
def crstatWord (r : CmdRing) : Word :=
  field 0 r.cons ||| field 16 r.prod ||| flag 32 r.halt ||| field 33 r.hcause

/-- Entries of a ring: 2^LOG2 (R340). -/
def ringSize (cfg : Word) : Nat := 2 ^ bits cfg 4 1

/-- Occupancy of an output ring: (P - C) modulo 65,536 (R341). -/
def ringUsed (p c : Nat) : Nat := (p + 65536 - c) % 65536

/-- CPSTATn or EVSTAT (R360). -/
def outStatWord (r : OutRing) : Word :=
  field 0 r.prod ||| field 16 r.cons ||| flag 32 (ringUsed r.prod r.cons == ringSize r.cfg) ||| flag 33 r.halt

/-- One MSI-X table entry as two words (R357). -/
def msixWord (e : MsixEntry) (hi : Bool) : Word :=
  if hi then field 0 e.data.toNat ||| field 32 e.ctrl.toNat else e.addr

/-- The RNG block, the MSI-X table and the PBA (R357 to R360). -/
def readRng (s : State) (o : Nat) : Option Word :=
  let h := s.host
  let cr (k : Nat) : CmdRing := vget h.rings k CmdRing.reset
  let cp (k : Nat) : OutRing := vget h.comps k OutRing.reset
  match o with
  | 0x00 => some h.ctl
  | 0x08 => some h.dbbase
  | 0x10 => some (field 0 h.dbper)
  | 0x18 => some 0
  | 0x20 => some (field 0 h.evdrop)
  | 0x28 => some (field 0 h.polls)
  | 0x30 => some h.ev.base
  | 0x38 => some h.ev.cfg
  | 0x40 => some (outStatWord h.ev)
  | 0xC00 => some h.pba
  | _ =>
    match slotOf 0x100 8 96 o with
    | some i =>
      let k := i % 16
      match i / 16 with
      | 0 => some (cr k).base
      | 1 => some (cr k).cfg
      | 2 => some (crstatWord (cr k))
      | 3 => some (cp k).base
      | 4 => some (cp k).cfg
      | _ => some (outStatWord (cp k))
    | none =>
      (slotOf 0x800 8 128 o).map (fun i => msixWord (vget h.msix (i / 2) MsixEntry.reset) (i % 2 == 1))

/-- NETn.STAT (R252). -/
def netStatWord (p : Port) : Word :=
  flag 0 p.link ||| field 1 p.spd ||| flag 3 p.badspd ||| flag 4 p.nogrant ||| field 5 p.vstate ||| flag 7 p.preact |||
    flag 8 p.admin.isSome ||| field 9 p.lastdisc

/-- A NETn block (R250 to R258, R293). -/
def readNet (s : State) (n o : Nat) : Option Word :=
  let p := vget s.net.ports n Port.reset
  match o with
  | 0x00 => some p.cfg
  | 0x08 => some (netStatWord p)
  | 0x10 => some p.mac
  | 0x18 => some p.tsc[0]
  | 0x20 => some p.tsc[1]
  | 0x28 => some p.tsc[2]
  | 0x30 => some p.tsc[3]
  | 0x100 => some (field 0 p.rxcyc)
  | 0x108 => some (field 0 p.txcyc)
  | 0x110 => some (field 0 p.rxdisc)
  | 0x118 => some (field 0 p.rxmiss)
  | 0x120 => some (field 0 p.glate)
  | 0x128 => some (field 0 p.cbelim)
  | 0x130 => some (field 0 p.rxfcs)
  | 0x138 => some (field 0 p.rxother)
  | 0x200 => if n = 0 then some 0 else none
  | _ => none

/-- TSY.STAT (R270). -/
def tsyStatWord (c : Clock) : Word :=
  field 0 c.state ||| flag 2 c.set ||| flag 3 c.jref ||| flag 4 c.stepped ||| flag 5 (c.slewRem != slewApplied c) |||
    flag 6 c.keyArm.isSome ||| flag 7 c.gmself

/-- The TSY block (R269, R270). -/
def readTsy (s : State) (o : Nat) : Option Word :=
  let c := s.clock
  match o with
  | 0x00 => some c.ctl
  | 0x08 => some (tsyStatWord c)
  | 0x10 => some c.f
  | 0x18 => some 0
  | 0x20 => some c.snapT
  | 0x28 => some (field 0 c.snapSec)
  | 0x30 => some (field 0 c.snapNs)
  | 0x38 => some c.snapFrc
  | 0x40 => some (putBits 0 31 0 (c.rate % 2 ^ 32).toNat)
  | 0x48 => some 0
  | 0x50 => some (field 0 c.jumpLim)
  | 0x58 => some (field 0 c.slewMax)
  | 0x60 => some (wordOfInt (slewLeft c))
  | 0x68 => some 0
  | 0x70 => some (wordOfInt c.offsMeas)
  | 0x78 => some (field 0 c.ticknum)
  | 0x80 => some (field 0 c.tskip)
  | _ => none

/-- TCMP.STATn (R284). -/
def tcmpStatWord (c : Comparator) : Word :=
  flag 0 c.armed ||| flag 1 c.fired ||| flag 2 c.late ||| flag 3 c.range ||| flag 4 c.wdrop ||| flag 5 c.stepdis |||
    field 8 c.lateness ||| field 48 c.skips

/-- The TCMP block (R284). -/
def readTcmp (s : State) (o : Nat) : Option Word :=
  if o % 8 ≠ 0 ∨ 0x800 ≤ o then none
  else
    let c := vget s.tcmp (o / 0x20) Comparator.reset
    match o % 0x20 / 8 with
    | 0 => some c.ctl
    | 1 => some c.time
    | 2 => some c.per
    | _ => some (tcmpStatWord c)

/-- Configured axes of an engine: the records whose TYPE is not NONE (R205, R246). -/
def axesConfigured (s : State) (k : Nat) : Nat :=
  ((List.range (vget s.engines k Engine.reset).axes.length).filter (fun i =>
    bits (readWord s (motBase k + 128 * i)) 2 0 != 0)).length

/-- The MOT block (R244 to R248). -/
def readMot (s : State) (o : Nat) : Option Word :=
  let e (k : Nat) : Engine := vget s.engines k Engine.reset
  if o = 0 then some 0
  else
    match slotOf 0x100 8 40 o with
    | none => none
    | some i =>
      let k := i % 8
      match i / 8 with
      | 0 => some (e k).ecfg
      | 1 => some (field 0 (e k).state ||| field 2 (axesConfigured s k) ||| field 10 (e k).lastdone |||
          field 26 (e k).maxdone)
      | 2 => some (field 0 (e k).ecyc)
      | 3 => some (field 0 (e k).eovr)
      | _ => some (field 0 (e k).eesc)

/-- FIO.GRPg.STAT (R328). -/
def groupWord (g : Group) : Word :=
  flag 0 g.uv ||| flag 1 g.sag ||| flag 2 g.fault ||| flag 3 (g.lplus != .absent) ||| flag 4 g.clrref

/-- FIO.CHn.PSTAT (R324). -/
def pstatWord (c : Channel) : Word :=
  field 0 c.appliedSeq ||| field 16 c.appliedN ||| flag 32 c.pend.isSome ||| flag 33 c.busy ||| flag 34 c.rej |||
    flag 35 c.gen.active

/-- Counter k has a conflict with its neighbour or its channels (R310). -/
def counterConflict (f : Field) (k : Nat) : Bool :=
  let cfg (i : Nat) : Word := (vget f.counters i Counter.reset).cfg
  let isIn (c : Nat) : Bool := !bit (vget f.channels c Channel.reset).cfg 0
  let m := bits (cfg k) 2 0
  (3 ≤ m && m ≤ 6 && (k % 2 == 1 || bits (cfg (k + 1)) 2 0 != 0)) ||
    (3 ≤ m && m ≤ 5 && !(isIn k && isIn (k + 1))) || (m == 6 && !isIn k)

/-- The value of a counter as FIO.CNTk.VALUE shows it (R314). -/
def counterShown (c : Counter) : BitVec 32 := if 6 ≤ bits c.cfg 2 0 then c.slot else c.value

/-- FIO.CNTk.STAT (R314). -/
def counterStatWord (f : Field) (k : Nat) : Word :=
  let c := vget f.counters k Counter.reset
  flag 0 c.wrap ||| flag 1 c.sat ||| flag 2 c.qerr ||| flag 3 c.cmphit ||| flag 4 (counterConflict f k)

/-- The FIO block (R296 to R332), over its 8 KB. -/
def readFio (s : State) (o : Nat) : Option Word :=
  let f := s.field
  match o with
  | 0x00 => some f.tcfg
  | 0x08 => some f.map
  | 0x10 => some (field 0 f.pcfg)
  | 0x18 => some (field 0 f.granted ||| flag 2 f.nogrant ||| flag 3 f.cfgarm)
  | 0x20 => some (field 0 f.glate)
  | 0x28 => some (field 0 f.stagger)
  | 0x30 => some 0
  | 0x38 => some 0
  | _ =>
    match slotOf 0x40 8 4 o with
    | some g => some (groupWord (vget f.groups g Group.reset))
    | none =>
      match slotOf 0x80 8 16 o with
      | some i =>
        let l := vget f.latches (i / 2) LatchUnit.reset
        some (if i % 2 = 0 then l.cfg else field 0 l.ign)
      | none =>
        match slotOf 0x100 8 64 o with
        | some i =>
          let r := vget f.reflexes (i / 2) Reflex.reset
          some (if i % 2 = 0 then r.mask else r.ctl)
        | none =>
          match slotOf 0x400 8 192 o with
          | some i =>
            let c := vget f.channels (i / 6) Channel.reset
            match i % 6 with
            | 0 => some c.cfg
            | 1 => some (flag 0 c.filt ||| flag 1 c.on ||| flag 2 c.ocf ||| flag 3 c.otf)
            | 2 => some c.sha
            | 3 => some c.shb
            | 4 => some 0
            | _ => some (pstatWord c)
          | none =>
            match slotOf 0xA00 8 192 o with
            | some i =>
              let c := vget f.counters (i / 6) Counter.reset
              match i % 6 with
              | 0 => some c.cfg
              | 1 => some (field 0 (counterShown c).toNat)
              | 2 => some (field 0 c.preset.toNat)
              | 3 => some (field 0 c.cmp.toNat)
              | 4 => some 0
              | _ => some (counterStatWord f (i / 6))
            | none => (slotOf 0x1000 8 32 o).map (fun k => field 0 (vget f.counters k Counter.reset).csv.toNat)

/-- The ANA block (R330, R331). -/
def readAna (s : State) (o : Nat) : Option Word :=
  if o % 8 ≠ 0 ∨ 0x100 ≤ o then none
  else
    let a := vget s.field.analogs (o / 0x40) Analog.reset
    match o % 0x40 / 8 with
    | 0 => some a.cfg
    | 1 => some (field 0 a.last ||| flag 16 a.valid)
    | 2 => some a.lastt
    | 3 => some (field 0 a.min ||| field 16 a.max ||| flag 32 a.mmvalid)
    | 4 => some (flag 0 a.ovr ||| flag 1 a.tdrop)
    | 5 => some 0
    | _ => none

/-- The code of a role (R381). -/
def Role.code : Role → Nat
  | .solo => 0
  | .active => 1
  | .standby => 2
  | .candidate => 3

/-- The code of a pair state (R381). -/
def PState.code : PState → Nat
  | .none => 0
  | .checking => 1
  | .copying => 2
  | .confirming => 3
  | .synced => 4
  | .detached => 5

/-- RED.STAT (R407). -/
def redStatWord (r : Red) : Word :=
  field 0 r.role.code ||| field 2 r.pstate.code ||| flag 5 r.lanes[0].up ||| flag 6 r.lanes[1].up |||
    flag 7 r.peerSeen ||| flag 8 r.mandate ||| flag 9 r.epochHeld.isSome ||| flag 10 r.cmpOff ||| field 11 r.reason

/-- The RED block (R406 to R408). -/
def readRed (s : State) (o : Nat) : Option Word :=
  let r := s.red
  match o with
  | 0x00 => some r.ctl
  | 0x08 => some r.pwatch
  | 0x10 => some (field 0 r.fhold.toNat)
  | 0x18 => some (redStatWord r)
  | 0x20 => some (field 0 r.epoch)
  | 0x28 => some (match r.epochHeld with | some e => e.n | none => 0)
  | 0x30 => some (field 0 r.lastto ||| flag 4 r.lastWarm)
  | 0x38 => some r.lasttot
  | 0x40 => some (field 0 r.cmpok)
  | 0x48 => some (field 0 r.cmpbad)
  | 0x50 => some (field 0 r.unsettled)
  | 0x58 => some (field 0 r.takeovers)
  | 0x60 => some (field 0 r.detach)
  | 0x68 => some (field 0 r.lanes[0].errs)
  | 0x70 => some (field 0 r.lanes[1].errs)
  | 0x78 => some 0
  | _ => none

/-- The bits a value of width code `w` covers: 1, 8, 16, 32 or 64 (R169). -/
def widthBits (w : Nat) : Nat := if w = 0 then 1 else 2 ^ (w + 2)

/-- The image words of a Market with at least one forced bit, as pairs of half and word number (R176, R189). -/
def forcedWords (l : List Force) (m : Nat) : List (Bool × Nat) :=
  ((l.filter (fun f => f.market.val == m)).map (fun f => (f.output, f.bitoff / 64))).eraseDups

/-- MKTn.XSTAT (R176). -/
def xstatWord (s : State) (m : Nat) : Word :=
  let k := vget s.markets m Market.reset
  field 0 k.phase ||| flag 3 k.winOpen.isSome ||| field 4 k.lastlen ||| field 22 (forcedWords s.forces m).length

/-- A MKTn block (R175 to R177, R551). -/
def readMkt (s : State) (m o : Nat) : Option Word :=
  let k := vget s.markets m Market.reset
  match o with
  | 0x00 => some k.clk
  | 0x08 => some k.xwin
  | 0x10 => some (xstatWord s m)
  | 0x18 => some (field 0 k.xcnt)
  | _ => none

/-- STL.SPSTATn (R116). -/
def spstatWord (k : Stall) : Word :=
  match k.tills.toList.find? (fun t => t.area == .speculative) with
  | none => 0
  | some t => flag 0 true ||| flag 1 t.waiting ||| flag 2 t.paused ||| field 3 t.rel.task.toNat |||
      field 10 t.stallCause ||| field 14 t.ckpts.length ||| field 24 t.image.length ||| field 36 t.watch.length |||
      field 46 t.journal.length

/-- The STL block (R115 to R118). -/
def readStl (s : State) (o : Nat) : Option Word :=
  match o with
  | 0x00 => some s.spctl
  | 0x08 => some 0
  | _ =>
    match slotOf 0x100 8 160 o with
    | none => none
    | some i =>
      let k := vget s.stalls (i % 16) Stall.reset
      match i / 16 with
      | 0 => some (spstatWord k)
      | 1 => some (field 0 k.sprun)
      | 2 => some (field 0 k.sphit)
      | 3 => some (field 0 k.sprb)
      | 4 => some (field 0 k.spsq)
      | 5 => some (field 0 k.spsave)
      | 6 => some (field 0 k.rply)
      | 7 => some (field 0 k.rplate)
      | 8 => some (field 0 k.rpfail)
      | _ => some (field 0 k.spflt)

/-- A task is frozen: its Till is, or a freeze waits for its next dispatched release (R68, R71). -/
def taskFrozen (s : State) (id : TaskId) : Bool :=
  s.stalls.toList.any (fun k => k.tills.toList.any (fun t =>
    t.area == .live && t.rel.task == id && t.frozen.isSome)) ||
  s.tasks.any (fun t => t.e.id == id && (match t.freezeNext with | some f => f.fault | none => false))

/-- DBG.FROZEN0 or DBG.FROZEN1 (R552). -/
def frozenWord (s : State) (base n : Nat) : Word :=
  (List.range n).foldl (fun w i => w ||| flag i (taskFrozen s (BitVec.ofNat 7 (base + i)))) 0

/-- The DBG block (R552). -/
def readDbg (s : State) (o : Nat) : Option Word :=
  match o with
  | 0x00 => some (frozenWord s 0 64)
  | 0x08 => some (frozenWord s 64 32)
  | _ =>
    (slotOf 0x100 8 16 o).map (fun k =>
      let b := (vget s.stalls k Stall.reset).bps.toList
      flagsOf Option.isSome b ||| (flagsOf (fun x => match x with | some y => y.scopeAll | none => false) b <<< 4))

/-- The register at a BAR0 offset, or none where no register stands (R542, R549). -/
def readReg (s : State) (off : Nat) : Option Word :=
  let o := off % 0x1000
  match off / 0x1000 with
  | 0x00 => readSys s o
  | 0x01 => readPrs s o
  | 0x02 => readWdg s o
  | 0x03 => readRec s o
  | 0x04 => readRtc s o
  | 0x05 => readNvs s o
  | 0x06 => readUpd s o
  | 0x07 => if o = 0 then some (secStatWord s.nvs) else none
  | 0x08 => readDma s o
  | 0x09 => readRng s o
  | 0x0A => readNet s 0 o
  | 0x0B => readNet s 1 o
  | 0x0C => readNet s 2 o
  | 0x0D => readNet s 3 o
  | 0x0E => readTsy s o
  | 0x0F => readTcmp s o
  | 0x10 => readMot s o
  | 0x11 => readFio s o
  | 0x12 => readFio s (o + 0x1000)
  | 0x13 => readAna s o
  | 0x14 => readRed s o
  | 0x15 => readMkt s 0 o
  | 0x16 => readMkt s 1 o
  | 0x17 => readMkt s 2 o
  | 0x18 => readMkt s 3 o
  | 0x19 => readStl s o
  | 0x1A => readDbg s o
  | _ => none

/-- An 8-byte read of BAR0: an offset without a register reads 0 (R335, R543). -/
def bar0Read (s : State) (off : Nat) : Word := (readReg s off).getD 0

end Sys2Proof.Machine
end

