-- ==== Sys2Proof/Machine/Force.lean ====
section
/-!
DEFINITION. The force table as it acts on image words: the bits that a Market's forces hold in one 64-bit word of an image half (R188, R190, R191).
-/
namespace Sys2Proof.Machine

/-- The forces of a Market and half that lie in the 8-byte word at a byte offset (R188). -/
def forcesAt (s : State) (m : Nat) (out : Bool) (off : Nat) : List Force :=
  s.forces.filter (fun f => f.market.val == m && f.output == out && f.bitoff / 64 == off / 8)

/-- An image word with one force applied. -/
def forceOne (w : Word) (f : Force) : Word :=
  let lo := f.bitoff % 64
  putBits w (lo + widthBits f.width - 1) lo f.value.toNat

/-- An image word with the forces of its Market and half applied; `off` is its byte offset in the half (R190, R191). -/
def forceWord (s : State) (m : Nat) (out : Bool) (off : Nat) (w : Word) : Word :=
  (forcesAt s m out off).foldl forceOne w

/-- Bytes of the input half as a Stall, a motion engine or a route reads them: forced bits substituted (R190). `off` and `n` are bytes of the half, and a whole number of words. -/
def forcedInput (s : State) (m off n : Nat) (l : List Byte) : List Byte :=
  if s.forces.any (fun f => f.market.val == m && !f.output) then
    (List.range (n / 8)).flatMap (fun i =>
      bytesOfWord (forceWord s m false (off + 8 * i) (wordOfBytes (l.drop (8 * i)))))
  else l

/-- The forced value of one word of an input half (R190). -/
def inputWord (s : State) (m off : Nat) : Word := forceWord s m false off (readWord s (imageBase m + off))

end Sys2Proof.Machine
end

