-- ==== Sys2Proof/Decode.lean ====
section
/-!
DEFINITION. The Tally instruction words of R122 to R153: the six formats, the word of every Tally command and the command a word spells; and the opcode table's words, of which this block has none.
-/
namespace Sys2Proof

/-- Format W (R122). -/
def encW (op fn : Nat) (rd rs1 rs2 : RegNo) : BitVec 32 :=
  BitVec.ofNat 10 fn ++ rs2 ++ rs1 ++ rd ++ BitVec.ofNat 7 op

/-- Format I (R122). -/
def encI (op fn : Nat) (rd rs1 : RegNo) (imm : BitVec 12) : BitVec 32 :=
  imm ++ BitVec.ofNat 3 fn ++ rs1 ++ rd ++ BitVec.ofNat 7 op

/-- Format B with a compare-and-branch layout (R122). -/
def encB (op : Nat) (cond : BitVec 3) (rs1 r : RegNo) (disp : BitVec 12) : BitVec 32 :=
  disp ++ cond ++ r ++ rs1 ++ BitVec.ofNat 7 op

/-- Format B with an image bit branch layout (R122). -/
def encBit (fn : Nat) (rs1 : RegNo) (b : BitVec 6) (disp : BitVec 12) : BitVec 32 :=
  disp ++ BitVec.ofNat 2 fn ++ b ++ rs1 ++ BitVec.ofNat 7 0x25

/-- Format S (R122). -/
def encS (fn : Nat) (rs1 rs2 : RegNo) (imm : BitVec 12) : BitVec 32 :=
  imm.extractLsb' 5 7 ++ BitVec.ofNat 3 fn ++ rs2 ++ rs1 ++ imm.extractLsb' 0 5 ++ BitVec.ofNat 7 0x15

/-- Format M (R122). -/
def encM (fn : Nat) (rd rs1 rm : RegNo) (off : BitVec 6) : BitVec 32 :=
  off ++ BitVec.ofNat 4 fn ++ rm ++ rs1 ++ rd ++ BitVec.ofNat 7 0x19

/-- Format J (R122). -/
def encJ (op : Nat) (rd : RegNo) (imm : BitVec 20) : BitVec 32 := imm ++ rd ++ BitVec.ofNat 7 op

/-- The constant of an SHK instruction: sub-function and amount (R128). -/
def shkImm (sub : Nat) (amt : BitVec 6) : BitVec 12 := BitVec.ofNat 6 sub ++ amt

/-- The word of a Tally command; none for the commands that are no instructions (R125 to R153). -/
def encodeTally : Instr → Option (BitVec 32)
  | .add _ rd rs1 rs2 => some (encW 0x05 0 rd rs1 rs2)
  | .sub _ rd rs1 rs2 => some (encW 0x05 1 rd rs1 rs2)
  | .and _ rd rs1 rs2 => some (encW 0x05 2 rd rs1 rs2)
  | .or _ rd rs1 rs2 => some (encW 0x05 3 rd rs1 rs2)
  | .xor _ rd rs1 rs2 => some (encW 0x05 4 rd rs1 rs2)
  | .andc _ rd rs1 rs2 => some (encW 0x05 5 rd rs1 rs2)
  | .orc _ rd rs1 rs2 => some (encW 0x05 6 rd rs1 rs2)
  | .shl _ rd rs1 rs2 => some (encW 0x05 7 rd rs1 rs2)
  | .shru _ rd rs1 rs2 => some (encW 0x05 8 rd rs1 rs2)
  | .shrs _ rd rs1 rs2 => some (encW 0x05 9 rd rs1 rs2)
  | .rotr _ rd rs1 rs2 => some (encW 0x05 10 rd rs1 rs2)
  | .clts _ rd rs1 rs2 => some (encW 0x05 11 rd rs1 rs2)
  | .cltu _ rd rs1 rs2 => some (encW 0x05 12 rd rs1 rs2)
  | .ceq _ rd rs1 rs2 => some (encW 0x05 13 rd rs1 rs2)
  | .mins _ rd rs1 rs2 => some (encW 0x05 14 rd rs1 rs2)
  | .maxs _ rd rs1 rs2 => some (encW 0x05 15 rd rs1 rs2)
  | .minu _ rd rs1 rs2 => some (encW 0x05 16 rd rs1 rs2)
  | .maxu _ rd rs1 rs2 => some (encW 0x05 17 rd rs1 rs2)
  | .mul _ rd rs1 rs2 => some (encW 0x05 32 rd rs1 rs2)
  | .mulhs _ rd rs1 rs2 => some (encW 0x05 33 rd rs1 rs2)
  | .mulhu _ rd rs1 rs2 => some (encW 0x05 34 rd rs1 rs2)
  | .divs _ rd rs1 rs2 => some (encW 0x05 35 rd rs1 rs2)
  | .divu _ rd rs1 rs2 => some (encW 0x05 36 rd rs1 rs2)
  | .mods _ rd rs1 rs2 => some (encW 0x05 37 rd rs1 rs2)
  | .modu _ rd rs1 rs2 => some (encW 0x05 38 rd rs1 rs2)
  | .exts8 _ rd rs1 rs2 => some (encW 0x05 64 rd rs1 rs2)
  | .exts16 _ rd rs1 rs2 => some (encW 0x05 65 rd rs1 rs2)
  | .exts32 _ rd rs1 rs2 => some (encW 0x05 66 rd rs1 rs2)
  | .extu8 _ rd rs1 rs2 => some (encW 0x05 67 rd rs1 rs2)
  | .extu16 _ rd rs1 rs2 => some (encW 0x05 68 rd rs1 rs2)
  | .extu32 _ rd rs1 rs2 => some (encW 0x05 69 rd rs1 rs2)
  | .lzc _ rd rs1 rs2 => some (encW 0x05 70 rd rs1 rs2)
  | .tzc _ rd rs1 rs2 => some (encW 0x05 71 rd rs1 rs2)
  | .popc _ rd rs1 rs2 => some (encW 0x05 72 rd rs1 rs2)
  | .bitget _ rd rs1 rs2 => some (encW 0x05 80 rd rs1 rs2)
  | .bitset _ rd rs1 rs2 => some (encW 0x05 81 rd rs1 rs2)
  | .bitclr _ rd rs1 rs2 => some (encW 0x05 82 rd rs1 rs2)
  | .bitflp _ rd rs1 rs2 => some (encW 0x05 83 rd rs1 rs2)
  | .addk _ rd rs1 imm => some (encI 0x09 0 rd rs1 imm)
  | .cltsk _ rd rs1 imm => some (encI 0x09 1 rd rs1 imm)
  | .cltuk _ rd rs1 imm => some (encI 0x09 2 rd rs1 imm)
  | .andk _ rd rs1 imm => some (encI 0x09 3 rd rs1 imm)
  | .ork _ rd rs1 imm => some (encI 0x09 4 rd rs1 imm)
  | .xork _ rd rs1 imm => some (encI 0x09 5 rd rs1 imm)
  | .ceqk _ rd rs1 imm => some (encI 0x09 7 rd rs1 imm)
  | .shlk _ rd rs1 amt => some (encI 0x09 6 rd rs1 (shkImm 0 amt))
  | .shruk _ rd rs1 amt => some (encI 0x09 6 rd rs1 (shkImm 1 amt))
  | .shrsk _ rd rs1 amt => some (encI 0x09 6 rd rs1 (shkImm 2 amt))
  | .rotrk _ rd rs1 amt => some (encI 0x09 6 rd rs1 (shkImm 3 amt))
  | .bitgetk _ rd rs1 amt => some (encI 0x09 6 rd rs1 (shkImm 4 amt))
  | .bitsetk _ rd rs1 amt => some (encI 0x09 6 rd rs1 (shkImm 5 amt))
  | .bitclrk _ rd rs1 amt => some (encI 0x09 6 rd rs1 (shkImm 6 amt))
  | .bitflpk _ rd rs1 amt => some (encI 0x09 6 rd rs1 (shkImm 7 amt))
  | .lup _ rd imm => some (encJ 0x41 rd imm)
  | .dadd _ rd rs1 rs2 => some (encW 0x0D 0 rd rs1 rs2)
  | .dsub _ rd rs1 rs2 => some (encW 0x0D 1 rd rs1 rs2)
  | .dmul _ rd rs1 rs2 => some (encW 0x0D 2 rd rs1 rs2)
  | .ddiv _ rd rs1 rs2 => some (encW 0x0D 3 rd rs1 rs2)
  | .dsqrt _ rd rs1 rs2 => some (encW 0x0D 4 rd rs1 rs2)
  | .dmin _ rd rs1 rs2 => some (encW 0x0D 5 rd rs1 rs2)
  | .dmax _ rd rs1 rs2 => some (encW 0x0D 6 rd rs1 rs2)
  | .dceq _ rd rs1 rs2 => some (encW 0x0D 8 rd rs1 rs2)
  | .dclt _ rd rs1 rs2 => some (encW 0x0D 9 rd rs1 rs2)
  | .dcle _ rd rs1 rs2 => some (encW 0x0D 10 rd rs1 rs2)
  | .itod _ rd rs1 rs2 => some (encW 0x0D 16 rd rs1 rs2)
  | .dtoi _ rd rs1 rs2 => some (encW 0x0D 17 rd rs1 rs2)
  | .dtoiz _ rd rs1 rs2 => some (encW 0x0D 18 rd rs1 rs2)
  | .dtos _ rd rs1 rs2 => some (encW 0x0D 19 rd rs1 rs2)
  | .stod _ rd rs1 rs2 => some (encW 0x0D 20 rd rs1 rs2)
  | .ldD _ rd rs1 imm => some (encI 0x11 0 rd rs1 imm)
  | .ldW _ rd rs1 imm => some (encI 0x11 1 rd rs1 imm)
  | .ldH _ rd rs1 imm => some (encI 0x11 2 rd rs1 imm)
  | .ldB _ rd rs1 imm => some (encI 0x11 3 rd rs1 imm)
  | .ldWu _ rd rs1 imm => some (encI 0x11 5 rd rs1 imm)
  | .ldHu _ rd rs1 imm => some (encI 0x11 6 rd rs1 imm)
  | .ldBu _ rd rs1 imm => some (encI 0x11 7 rd rs1 imm)
  | .stD _ rs1 rs2 imm => some (encS 0 rs1 rs2 imm)
  | .stW _ rs1 rs2 imm => some (encS 1 rs1 rs2 imm)
  | .stH _ rs1 rs2 imm => some (encS 2 rs1 rs2 imm)
  | .stB _ rs1 rs2 imm => some (encS 3 rs1 rs2 imm)
  | .lget _ rd rs1 rm off => some (encM 0 rd rs1 rm off)
  | .land _ rd rs1 rm off => some (encM 1 rd rs1 rm off)
  | .lor _ rd rs1 rm off => some (encM 2 rd rs1 rm off)
  | .lxor _ rd rs1 rm off => some (encM 3 rd rs1 rm off)
  | .landn _ rd rs1 rm off => some (encM 4 rd rs1 rm off)
  | .lcnt _ rd rs1 rm off => some (encM 5 rd rs1 rm off)
  | .lput _ rd rs1 rm off => some (encM 8 rd rs1 rm off)
  | .lsetb _ rd rs1 rm off => some (encM 9 rd rs1 rm off)
  | .lclrb _ rd rs1 rm off => some (encM 10 rd rs1 rm off)
  | .linv _ rd rs1 rm off => some (encM 11 rd rs1 rm off)
  | .bcr _ cond rs1 rs2 disp => some (encB 0x1D cond rs1 rs2 disp)
  | .bci _ cond rs1 imm disp => some (encB 0x21 cond rs1 imm disp)
  | .bbs _ rs1 b disp => some (encBit 0 rs1 b disp)
  | .bbc _ rs1 b disp => some (encBit 1 rs1 b disp)
  | .edgeR _ rd rs1 imm => some (encI 0x29 0 rd rs1 imm)
  | .edgeF _ rd rs1 imm => some (encI 0x29 1 rd rs1 imm)
  | .edgeB _ rd rs1 imm => some (encI 0x29 2 rd rs1 imm)
  | .lrD _ rd rs1 rs2 => some (encW 0x2D 0 rd rs1 rs2)
  | .scD _ rd rs1 rs2 => some (encW 0x2D 1 rd rs1 rs2)
  | .tas _ rd rs1 rs2 => some (encW 0x2D 2 rd rs1 rs2)
  | .sysCall _ rd rs1 imm => some (encI 0x31 0 rd rs1 imm)
  | .fence _ rd rs1 imm => some (encI 0x31 1 rd rs1 imm)
  | .tmrq _ rd rs1 imm => some (encI 0x31 2 rd rs1 imm)
  | .nop _ rd rs1 imm => some (encI 0x31 3 rd rs1 imm)
  | .jmp _ rd imm => some (encJ 0x35 rd imm)
  | .call _ rd imm => some (encJ 0x39 rd imm)
  | .callr _ rd rs1 imm => some (encI 0x3D 0 rd rs1 imm)
  | .jr _ rd rs1 imm => some (encI 0x3D 1 rd rs1 imm)
  | .ret _ rd rs1 imm => some (encI 0x3D 2 rd rs1 imm)
  | _ => none

/-- The ALU group by fn10 (R126). -/
def decAlu (fn : Nat) (t : TillId) (rd rs1 rs2 : RegNo) : Option Instr :=
  match fn with
  | 0 => some (.add t rd rs1 rs2)
  | 1 => some (.sub t rd rs1 rs2)
  | 2 => some (.and t rd rs1 rs2)
  | 3 => some (.or t rd rs1 rs2)
  | 4 => some (.xor t rd rs1 rs2)
  | 5 => some (.andc t rd rs1 rs2)
  | 6 => some (.orc t rd rs1 rs2)
  | 7 => some (.shl t rd rs1 rs2)
  | 8 => some (.shru t rd rs1 rs2)
  | 9 => some (.shrs t rd rs1 rs2)
  | 10 => some (.rotr t rd rs1 rs2)
  | 11 => some (.clts t rd rs1 rs2)
  | 12 => some (.cltu t rd rs1 rs2)
  | 13 => some (.ceq t rd rs1 rs2)
  | 14 => some (.mins t rd rs1 rs2)
  | 15 => some (.maxs t rd rs1 rs2)
  | 16 => some (.minu t rd rs1 rs2)
  | 17 => some (.maxu t rd rs1 rs2)
  | 32 => some (.mul t rd rs1 rs2)
  | 33 => some (.mulhs t rd rs1 rs2)
  | 34 => some (.mulhu t rd rs1 rs2)
  | 35 => some (.divs t rd rs1 rs2)
  | 36 => some (.divu t rd rs1 rs2)
  | 37 => some (.mods t rd rs1 rs2)
  | 38 => some (.modu t rd rs1 rs2)
  | 64 => some (.exts8 t rd rs1 rs2)
  | 65 => some (.exts16 t rd rs1 rs2)
  | 66 => some (.exts32 t rd rs1 rs2)
  | 67 => some (.extu8 t rd rs1 rs2)
  | 68 => some (.extu16 t rd rs1 rs2)
  | 69 => some (.extu32 t rd rs1 rs2)
  | 70 => some (.lzc t rd rs1 rs2)
  | 71 => some (.tzc t rd rs1 rs2)
  | 72 => some (.popc t rd rs1 rs2)
  | 80 => some (.bitget t rd rs1 rs2)
  | 81 => some (.bitset t rd rs1 rs2)
  | 82 => some (.bitclr t rd rs1 rs2)
  | 83 => some (.bitflp t rd rs1 rs2)
  | _ => none

/-- The FPU group by fn10 (R130). -/
def decFpu (fn : Nat) (t : TillId) (rd rs1 rs2 : RegNo) : Option Instr :=
  match fn with
  | 0 => some (.dadd t rd rs1 rs2)
  | 1 => some (.dsub t rd rs1 rs2)
  | 2 => some (.dmul t rd rs1 rs2)
  | 3 => some (.ddiv t rd rs1 rs2)
  | 4 => some (.dsqrt t rd rs1 rs2)
  | 5 => some (.dmin t rd rs1 rs2)
  | 6 => some (.dmax t rd rs1 rs2)
  | 8 => some (.dceq t rd rs1 rs2)
  | 9 => some (.dclt t rd rs1 rs2)
  | 10 => some (.dcle t rd rs1 rs2)
  | 16 => some (.itod t rd rs1 rs2)
  | 17 => some (.dtoi t rd rs1 rs2)
  | 18 => some (.dtoiz t rd rs1 rs2)
  | 19 => some (.dtos t rd rs1 rs2)
  | 20 => some (.stod t rd rs1 rs2)
  | _ => none

/-- The ATOM group by fn10 (R148). -/
def decAtom (fn : Nat) (t : TillId) (rd rs1 rs2 : RegNo) : Option Instr :=
  match fn with
  | 0 => some (.lrD t rd rs1 rs2)
  | 1 => some (.scD t rd rs1 rs2)
  | 2 => some (.tas t rd rs1 rs2)
  | _ => none

/-- The SHK row by sub-function (R128). -/
def decShk (fn : Nat) (t : TillId) (rd rs1 : RegNo) (amt : BitVec 6) : Option Instr :=
  match fn with
  | 0 => some (.shlk t rd rs1 amt)
  | 1 => some (.shruk t rd rs1 amt)
  | 2 => some (.shrsk t rd rs1 amt)
  | 3 => some (.rotrk t rd rs1 amt)
  | 4 => some (.bitgetk t rd rs1 amt)
  | 5 => some (.bitsetk t rd rs1 amt)
  | 6 => some (.bitclrk t rd rs1 amt)
  | 7 => some (.bitflpk t rd rs1 amt)
  | _ => none

/-- The ALUI group by fn3 (R128). -/
def decAlui (fn : Nat) (t : TillId) (rd rs1 : RegNo) (imm : BitVec 12) : Option Instr :=
  match fn with
  | 0 => some (.addk t rd rs1 imm)
  | 1 => some (.cltsk t rd rs1 imm)
  | 2 => some (.cltuk t rd rs1 imm)
  | 3 => some (.andk t rd rs1 imm)
  | 4 => some (.ork t rd rs1 imm)
  | 5 => some (.xork t rd rs1 imm)
  | 7 => some (.ceqk t rd rs1 imm)
  | 6 => decShk (imm.extractLsb' 6 6).toNat t rd rs1 (imm.extractLsb' 0 6)
  | _ => none

/-- The LOAD group by fn3 (R138). -/
def decLoad (fn : Nat) (t : TillId) (rd rs1 : RegNo) (imm : BitVec 12) : Option Instr :=
  match fn with
  | 0 => some (.ldD t rd rs1 imm)
  | 1 => some (.ldW t rd rs1 imm)
  | 2 => some (.ldH t rd rs1 imm)
  | 3 => some (.ldB t rd rs1 imm)
  | 5 => some (.ldWu t rd rs1 imm)
  | 6 => some (.ldHu t rd rs1 imm)
  | 7 => some (.ldBu t rd rs1 imm)
  | _ => none

/-- The EDGE group by fn3 (R144). -/
def decEdge (fn : Nat) (t : TillId) (rd rs1 : RegNo) (imm : BitVec 12) : Option Instr :=
  match fn with
  | 0 => some (.edgeR t rd rs1 imm)
  | 1 => some (.edgeF t rd rs1 imm)
  | 2 => some (.edgeB t rd rs1 imm)
  | _ => none

/-- The SYSTEM group by fn3 (R146, R152 to R154). -/
def decSystem (fn : Nat) (t : TillId) (rd rs1 : RegNo) (imm : BitVec 12) : Option Instr :=
  match fn with
  | 0 => some (.sysCall t rd rs1 imm)
  | 1 => some (.fence t rd rs1 imm)
  | 2 => some (.tmrq t rd rs1 imm)
  | 3 => some (.nop t rd rs1 imm)
  | _ => none

/-- The CTRL group by fn3 (R134). -/
def decCtrl (fn : Nat) (t : TillId) (rd rs1 : RegNo) (imm : BitVec 12) : Option Instr :=
  match fn with
  | 0 => some (.callr t rd rs1 imm)
  | 1 => some (.jr t rd rs1 imm)
  | 2 => some (.ret t rd rs1 imm)
  | _ => none

/-- The STORE group by fn3 (R138). -/
def decStore (fn : Nat) (t : TillId) (rs1 rs2 : RegNo) (imm : BitVec 12) : Option Instr :=
  match fn with
  | 0 => some (.stD t rs1 rs2 imm)
  | 1 => some (.stW t rs1 rs2 imm)
  | 2 => some (.stH t rs1 rs2 imm)
  | 3 => some (.stB t rs1 rs2 imm)
  | _ => none

/-- The LANE group by fn4 (R142). -/
def decLane (fn : Nat) (t : TillId) (rd rs1 rm : RegNo) (off : BitVec 6) : Option Instr :=
  match fn with
  | 0 => some (.lget t rd rs1 rm off)
  | 1 => some (.land t rd rs1 rm off)
  | 2 => some (.lor t rd rs1 rm off)
  | 3 => some (.lxor t rd rs1 rm off)
  | 4 => some (.landn t rd rs1 rm off)
  | 5 => some (.lcnt t rd rs1 rm off)
  | 8 => some (.lput t rd rs1 rm off)
  | 9 => some (.lsetb t rd rs1 rm off)
  | 10 => some (.lclrb t rd rs1 rm off)
  | 11 => some (.linv t rd rs1 rm off)
  | _ => none

/-- The image bit branches by fn2 (R141). -/
def decBit (fn : Nat) (t : TillId) (rs1 : RegNo) (b : BitVec 6) (disp : BitVec 12) : Option Instr :=
  match fn with
  | 0 => some (.bbs t rs1 b disp)
  | 1 => some (.bbc t rs1 b disp)
  | _ => none

/-- The Tally command that a word spells for a Till; none for an undefined opcode or a reserved function code (R125, R162). -/
def decodeTally (t : TillId) (w : BitVec 32) : Option Instr :=
  let rd : RegNo := w.extractLsb' 7 5
  let rs1 : RegNo := w.extractLsb' 12 5
  let rs2 : RegNo := w.extractLsb' 17 5
  let imm : BitVec 12 := w.extractLsb' 20 12
  let fn10 := (w.extractLsb' 22 10).toNat
  let fn3 := (w.extractLsb' 17 3).toNat
  match (w.extractLsb' 0 7).toNat with
  | 0x05 => decAlu fn10 t rd rs1 rs2
  | 0x09 => decAlui fn3 t rd rs1 imm
  | 0x0D => decFpu fn10 t rd rs1 rs2
  | 0x11 => decLoad fn3 t rd rs1 imm
  | 0x15 => decStore (w.extractLsb' 22 3).toNat t rs1 rs2 (w.extractLsb' 25 7 ++ w.extractLsb' 7 5)
  | 0x19 => decLane (w.extractLsb' 22 4).toNat t rd rs1 rs2 (w.extractLsb' 26 6)
  | 0x1D => some (.bcr t (w.extractLsb' 17 3) rd rs1 imm)
  | 0x21 => some (.bci t (w.extractLsb' 17 3) rd rs1 imm)
  | 0x25 => decBit (w.extractLsb' 18 2).toNat t rd (w.extractLsb' 12 6) imm
  | 0x29 => decEdge fn3 t rd rs1 imm
  | 0x2D => decAtom fn10 t rd rs1 rs2
  | 0x31 => decSystem fn3 t rd rs1 imm
  | 0x35 => some (.jmp t rd (w.extractLsb' 12 20))
  | 0x39 => some (.call t rd (w.extractLsb' 12 20))
  | 0x3D => decCtrl fn3 t rd rs1 imm
  | 0x41 => some (.lup t rd (w.extractLsb' 12 20))
  | _ => none

/-- The command that an opcode-table word spells: no row of this block's table gives bits (log 16). -/
def decodeTableWord (_nbits _w : Nat) : Option Instr := none

end Sys2Proof
end

