-- ==== Sys2Proof/Machine/Hash.lean ====
section
/-!
DEFINITION. The checks the manual names: CRC-32 of IEEE 802.3, the CRC-64 of R389, and SHA-256.
-/
namespace Sys2Proof.Machine

/-- `n` shifts of the reflected CRC-32 register. -/
def crc32Shift : Nat → BitVec 32 → BitVec 32
  | 0, c => c
  | n + 1, c => crc32Shift n (if c.getLsbD 0 then (c >>> 1) ^^^ 0xEDB88320 else c >>> 1)

/-- The CRC-32 register, as a number, after a byte string. -/
def crc32From : List Byte → Nat → Nat
  | [], c => c
  | b :: r, c => withNat (crc32Shift 8 (BitVec.ofNat 32 c ^^^ b.setWidth 32)).toNat (crc32From r)

/-- The CRC-32 of IEEE 802.3 over a byte string (R377, R454, R475). -/
def crc32 (l : List Byte) : BitVec 32 := BitVec.ofNat 32 (crc32From l 0xFFFF_FFFF) ^^^ 0xFFFF_FFFF

/-- `n` shifts of the CRC-64 register of R389. -/
def crc64Shift : Nat → Word → Word
  | 0, h => h
  | n + 1, h => crc64Shift n (if h.getLsbD 63 then (h <<< 1) ^^^ 0x42F0_E1EB_A9EA_3693 else h <<< 1)

/-- The CRC-64 register, as a number, after a byte string. -/
def crc64From : List Byte → Nat → Nat
  | [], h => h
  | b :: r, h => withNat (crc64Shift 8 (BitVec.ofNat 64 h ^^^ (BitVec.setWidth 64 b <<< (56 : Nat)))).toNat (crc64From r)

/-- The CRC-64 of R389 over a byte string. -/
def crc64 (l : List Byte) : Word := BitVec.ofNat 64 (crc64From l 0xFFFF_FFFF_FFFF_FFFF) ^^^ 0xFFFF_FFFF_FFFF_FFFF

/-- The round constants of SHA-256, first half (FIPS 180-4; PRESUMED, log 15). -/
def shaK1 : List (BitVec 32) :=
  [0x428a2f98, 0x71374491, 0xb5c0fbcf, 0xe9b5dba5, 0x3956c25b, 0x59f111f1, 0x923f82a4, 0xab1c5ed5, 0xd807aa98,
   0x12835b01, 0x243185be, 0x550c7dc3, 0x72be5d74, 0x80deb1fe, 0x9bdc06a7, 0xc19bf174, 0xe49b69c1, 0xefbe4786,
   0x0fc19dc6, 0x240ca1cc, 0x2de92c6f, 0x4a7484aa, 0x5cb0a9dc, 0x76f988da, 0x983e5152, 0xa831c66d, 0xb00327c8,
   0xbf597fc7, 0xc6e00bf3, 0xd5a79147, 0x06ca6351, 0x14292967]

/-- The round constants of SHA-256, second half. -/
def shaK2 : List (BitVec 32) :=
  [0x27b70a85, 0x2e1b2138, 0x4d2c6dfc, 0x53380d13, 0x650a7354, 0x766a0abb, 0x81c2c92e, 0x92722c85, 0xa2bfe8a1,
   0xa81a664b, 0xc24b8b70, 0xc76c51a3, 0xd192e819, 0xd6990624, 0xf40e3585, 0x106aa070, 0x19a4c116, 0x1e376c08,
   0x2748774c, 0x34b0bcb5, 0x391c0cb3, 0x4ed8aa4a, 0x5b9cca4f, 0x682e6ff3, 0x748f82ee, 0x78a5636f, 0x84c87814,
   0x8cc70208, 0x90befffa, 0xa4506ceb, 0xbef9a3f7, 0xc67178f2]

/-- Rotation of a 32-bit word to the right. -/
def rotr32 (x : BitVec 32) (n : Nat) : BitVec 32 := x.rotateRight n

/-- The message schedule, newest word first. -/
def shaSchedule : Nat → List (BitVec 32) → List (BitVec 32)
  | 0, w => w
  | n + 1, w =>
    let w2 := w.getD 1 0
    let w7 := w.getD 6 0
    let w15 := w.getD 14 0
    let w16 := w.getD 15 0
    let s0 := rotr32 w15 7 ^^^ rotr32 w15 18 ^^^ (w15 >>> 3)
    let s1 := rotr32 w2 17 ^^^ rotr32 w2 19 ^^^ (w2 >>> 10)
    shaSchedule n ((w16 + s0 + w7 + s1) :: w)

/-- The eight working words of SHA-256. -/
structure Sha where
  a : BitVec 32
  b : BitVec 32
  c : BitVec 32
  d : BitVec 32
  e : BitVec 32
  f : BitVec 32
  g : BitVec 32
  h : BitVec 32
deriving DecidableEq, Repr

/-- One round. -/
def shaRound (s : Sha) (k w : BitVec 32) : Sha :=
  let s1 := rotr32 s.e 6 ^^^ rotr32 s.e 11 ^^^ rotr32 s.e 25
  let ch := (s.e &&& s.f) ^^^ (~~~s.e &&& s.g)
  let t1 := s.h + s1 + ch + k + w
  let s0 := rotr32 s.a 2 ^^^ rotr32 s.a 13 ^^^ rotr32 s.a 22
  let mj := (s.a &&& s.b) ^^^ (s.a &&& s.c) ^^^ (s.b &&& s.c)
  { a := t1 + s0 + mj, b := s.a, c := s.b, d := s.c, e := s.d + t1, f := s.e, g := s.f, h := s.g }

/-- A big-endian 32-bit word of four bytes. -/
def be32 (l : List Byte) : BitVec 32 := l.foldl (fun w b => (w <<< 8) ||| b.setWidth 32) 0

/-- Sixteen words of a 64-byte block. -/
def shaWords (l : List Byte) : List (BitVec 32) := (List.range 16).map (fun i => be32 ((l.drop (4 * i)).take 4))

/-- One block compressed. -/
def shaBlock (s : Sha) (l : List Byte) : Sha :=
  let w := (shaSchedule 48 (shaWords l).reverse).reverse
  let r := ((shaK1 ++ shaK2).zip w).foldl (fun q x => shaRound q x.1 x.2) s
  { a := s.a + r.a, b := s.b + r.b, c := s.c + r.c, d := s.d + r.d, e := s.e + r.e, f := s.f + r.f, g := s.g + r.g,
    h := s.h + r.h }

/-- The padding of SHA-256 for a message of `n` bytes. -/
def shaPad (n : Nat) : List Byte :=
  (0x80 : Byte) :: List.replicate ((119 - n % 64) % 64) 0 ++ (bytesOfNat 8 (8 * n)).reverse

/-- `f` of the working words, each evaluated first. -/
def withSha {α : Type} (s : Sha) (f : Sha → α) : α :=
  withNat s.a.toNat fun a => withNat s.b.toNat fun b => withNat s.c.toNat fun c => withNat s.d.toNat fun d =>
  withNat s.e.toNat fun e => withNat s.f.toNat fun g => withNat s.g.toNat fun h => withNat s.h.toNat fun i =>
    f { a := BitVec.ofNat 32 a, b := BitVec.ofNat 32 b, c := BitVec.ofNat 32 c, d := BitVec.ofNat 32 d,
        e := BitVec.ofNat 32 e, f := BitVec.ofNat 32 g, g := BitVec.ofNat 32 h, h := BitVec.ofNat 32 i }

/-- The blocks folded, by structural recursion on a count. -/
def shaBlocks : Nat → List Byte → Sha → Sha
  | 0, _, s => s
  | n + 1, l, s => if l.isEmpty then s else withSha (shaBlock s (l.take 64)) (shaBlocks n (l.drop 64))

/-- The start value of SHA-256. -/
def shaInit : Sha :=
  { a := 0x6a09e667, b := 0xbb67ae85, c := 0x3c6ef372, d := 0xa54ff53a, e := 0x510e527f, f := 0x9b05688c, g := 0x1f83d9ab,
    h := 0x5be0cd19 }

/-- SHA-256 of a byte string, 32 bytes (R170, R495; FIPS 180-4). -/
def sha256 (l : List Byte) : List Byte :=
  let m := l ++ shaPad l.length
  let s := shaBlocks (m.length / 64 + 1) m shaInit
  [s.a, s.b, s.c, s.d, s.e, s.f, s.g, s.h].flatMap (fun x => (bytesOfNat 4 x.toNat).reverse)

end Sys2Proof.Machine
end

