-- ==== Sys2Proof/Config.lean ====
section
/-!
DEFINITION. What the manual leaves open, as opaque constants: nothing in Lean can evaluate them, so a statement holds for every value of them.
-/
namespace Sys2Proof.Config

/-- A fresh free value: the step applies it to the counter `fresh` of the state, which it then advances (log 10). -/
opaque freeWord : Nat → Word

/-- A fresh free choice between two outcomes the manual allows, such as R209 and R322 (log 10). -/
opaque freeBool : Nat → Bool

/-- The change of acceleration that a MOVE or JOG profile takes in one cycle (R216 gives bounds, not the law; log 11): a function of target, position, velocity and acceleration. -/
opaque profileJerk : Word → Word → Word → Word → Int

/-- The set-point of an XMASTER from its feedback, the feedback of the cycle before, FBAGE and the cycle length in ns (R199 and R205 name the quantities, not the law; log 23). -/
opaque masterEstimate : Word → Word → Nat → Nat → Word

/-- The rate that the time-sync servo writes for a measured offset and the present rate (R271 names no control law; log 12). -/
opaque servoRate : Int → Int → Int

/-- Whether an ECDSA P-256 signature (third) of a SHA-256 digest (second) verifies under a public key (first) (R496; log 14). -/
opaque ecdsaVerify : List Byte → List Byte → List Byte → Bool

/-- The device's ECDSA signature of a digest (R501; log 14). -/
opaque ecdsaSign : List Byte → List Byte

/-- The firmware key in key slot 0 (R496; log 14). -/
opaque worellKey : List Byte

/-- A customer key as the system record holds it, encrypted under the hardware key (R500; log 14). -/
opaque sealKey : List Byte → List Byte

/-- AES-256-GCM opening: the key in its stored form, IV, additional data, ciphertext, tag; none when the tag does not match (R496; log 14). -/
opaque gcmOpen : List Byte → List Byte → List Byte → List Byte → List Byte → Option (List Byte)

/-- Opening of a wrapped customer key under the KEK that R500 derives from SERIAL and a public key: SERIAL, public key, IV, additional data, wrapped key, tag; none when the tag does not match (log 14). -/
opaque unwrapKey : Word → List Byte → List Byte → List Byte → List Byte → List Byte → Option (List Byte)

/-- The hashes of the four Worell keys in the ROM (R496; log 14). -/
opaque worellKeyHash : Nat → List Byte

/-- Whether a firmware image finds settings it can read (R506; log 14). -/
opaque settingsReadable : List Byte → Bool

/-- The CAL value that follows from the present one and the sum of the shifts of 1,024 s (R447 names no law; log 25). -/
opaque calFromShifts : Int → Int → Int

/-- The history length of the vector recovery, above its least value (R255 allows 2 to 32; log 22). -/
opaque cbHistory : Nat

end Sys2Proof.Config
end

