-- ==== Sys2Proof/Machine/Ops.lean ====
section
/-!
DEFINITION. The operations every family of commands shares: updates of one element of a group, free values, host output, events and the recorder, error reporting, the Purse, and the completion of ring commands.
-/
namespace Sys2Proof.Machine

/-- The outcome of a command. -/
abbrev Out := Host.Outcome State Fault Refusal

/-- The command changes the state to `s` (no command of the N9 stops the block). -/
def ok (s : State) : Out := .next s

/-- `f` applied when a condition holds, else nothing. -/
def when_ (c : Bool) (f : State → State) (s : State) : State := if c then f s else s

/-- A fold of state changes over a list. -/
def forEach {α : Type} (l : List α) (f : α → State → State) (s : State) : State := l.foldl (fun q a => f a q) s

/-! ### One element of a group -/

/-- A Till of a Stall (R13). -/
def tillAt (s : State) (t : TillId) : Till := s.stalls[t.stall].tills[t.till]

/-- One Stall changed. -/
def modStall (k : StallId) (f : Stall → Stall) (s : State) : State :=
  { s with stalls := s.stalls.set k (f s.stalls[k]) }

/-- One Till changed. -/
def modTill (t : TillId) (f : Till → Till) (s : State) : State :=
  modStall t.stall (fun k => { k with tills := k.tills.set t.till (f k.tills[t.till]) }) s

/-- One Market changed. -/
def modMarket (m : MarketId) (f : Market → Market) (s : State) : State :=
  { s with markets := s.markets.set m (f s.markets[m]) }

/-- The task of a TASK_ID (R48). -/
def taskOf (s : State) (id : TaskId) : Option Task := s.tasks.find? (fun t => t.e.id == id)

/-- One task changed. -/
def modTask (id : TaskId) (f : Task → Task) (s : State) : State :=
  { s with tasks := mapIf (fun t => t.e.id == id) f s.tasks }

/-- One command ring changed. -/
def modRing (n : Nat) (f : CmdRing → CmdRing) (s : State) : State :=
  { s with host := { s.host with rings := vmod s.host.rings n f } }

/-- One completion ring (0 to 15) or the event ring (16) changed. -/
def modOut (n : Nat) (f : OutRing → OutRing) (s : State) : State :=
  if n = 16 then { s with host := { s.host with ev := f s.host.ev } }
  else { s with host := { s.host with comps := vmod s.host.comps n f } }

/-- A completion ring (0 to 15) or the event ring (16). -/
def outRing (s : State) (n : Nat) : OutRing := if n = 16 then s.host.ev else vget s.host.comps n OutRing.reset

/-- A command ring. -/
def cmdRing (s : State) (n : Nat) : CmdRing := vget s.host.rings n CmdRing.reset

/-- One DMA channel changed. -/
def modChan (n : Nat) (f : DmaChan → DmaChan) (s : State) : State :=
  { s with dma := { s.dma with chans := vmod s.dma.chans n f } }

/-- Bytes moved by a channel counted (R372). -/
def chanBytes (ch n : Nat) (s : State) : State := modChan ch (fun x => { x with bytes := (x.bytes + n) % 2 ^ 64 }) s

/-- Bytes moved by channel 7, the ring engine, counted (R364, R372). -/
def ringMoved (n : Nat) (s : State) : State :=
  { s with host := { s.host with ringBytes := (s.host.ringBytes + n) % 2 ^ 64 } }

/-- One motion engine changed. -/
def modEngine (e : Nat) (f : Engine → Engine) (s : State) : State := { s with engines := vmod s.engines e f }

/-- One network port changed. -/
def modPort (n : Nat) (f : Port → Port) (s : State) : State :=
  { s with net := { s.net with ports := vmod s.net.ports n f } }

/-- One entry of the frame schedule changed. -/
def modSched (i : Nat) (f : SchedEntry → SchedEntry) (s : State) : State :=
  { s with net := { s.net with sched := s.net.sched.modify i f } }

/-- One field channel changed. -/
def modChannel (n : Nat) (f : Channel → Channel) (s : State) : State :=
  { s with field := { s.field with channels := vmod s.field.channels n f } }

/-- A field channel. -/
def channelAt (s : State) (n : Nat) : Channel := vget s.field.channels n Channel.reset

/-- All Stall numbers. -/
def allStalls : List StallId := List.finRange 16

/-- All Tills. -/
def allTills : List TillId := allStalls.flatMap (fun k => (List.finRange 2).map (fun i => TillId.mk k i))

/-- All Market numbers. -/
def allMarkets : List MarketId := List.finRange 4

/-- The Tills of a Stall. -/
def tillsOf (k : StallId) : List TillId := (List.finRange 2).map (fun i => TillId.mk k i)

/-! ### Free values -/

/-- A fresh free word (log 10). -/
def freshWord (s : State) : Word × State := (Config.freeWord s.fresh, { s with fresh := s.fresh + 1 })

/-- A fresh free choice (log 10). -/
def freshBool (s : State) : Bool × State := (Config.freeBool s.fresh, { s with fresh := s.fresh + 1 })

/-! ### What leaves toward the host (R334, R337, R357) -/

/-- The function may issue requests: Bus Master Enable is 1 and it is in D0 (R337). -/
def canReq (s : State) : Bool := s.host.bme && !s.host.d3

/-- Items appended to the posted queue (R334). -/
def post (l : List HostOut) (s : State) : State := { s with host := { s.host with posted := s.host.posted ++ l } }

/-- Bytes written to host memory when requests may be issued (R337). -/
def hostWrite (a : Nat) (bs : List Byte) (s : State) : State := when_ (canReq s) (post [.write a bs]) s

/-- An MSI-X message, or its pending bit while the vector or the function is masked (R357). -/
def sendMsix (v : Nat) (s : State) : State :=
  let e := vget s.host.msix v MsixEntry.reset
  if !s.host.msixEn || !canReq s then s
  else if s.host.msixMask || e.ctrl.getLsbD 0 then
    { s with host := { s.host with pba := s.host.pba ||| flag v true } }
  else post [.msix v] s

/-- The error vector fires at a ring halt or a channel halt (R357). -/
def errorVector (s : State) : State := sendMsix (bits s.host.ctl 6 1) s

/-- An entry of a completion ring or the event ring is announced, at once or after IMOD (R357). -/
def announce (n : Nat) (s : State) : State :=
  let r := outRing s n
  let due := match r.lastMsg with
    | none => true
    | some t => decide (t + bits r.cfg 20 11 * 1000 ≤ s.mono)
  if due then sendMsix (bits r.cfg 10 5) (modOut n (fun r => { r with lastMsg := some s.mono, announce := false }) s)
  else modOut n (fun r => { r with announce := true }) s

/-- Host address of entry `i` of a ring (R340). -/
def entryAddr (base cfg : Word) (i : Nat) : Nat := (base.toNat / 4096) * 4096 + 64 * (i % ringSize cfg)

/-- An entry handed over to the host by channel 7: bytes 0 to 55 first, then the OWN word (R342, R364, R372). -/
def writeEntry (n : Nat) (ws : List Word) (s : State) : State :=
  let r := outRing s n
  let a := entryAddr r.base r.cfg r.prod
  announce n (modOut n (fun r => { r with prod := (r.prod + 1) % 65536 })
    (post [.write a (fitBytes 56 (bytesOfWords ws)), .write (a + 56) (bytesOfWord (flag 63 true))] (ringMoved 64 s)))

/-- The event ring or a completion ring takes entries: it is enabled, not halted, not full, requests may be issued, and the supply is not lost (R337, R341, R361, R526, R541). -/
def outReady (s : State) (n : Nat) : Bool :=
  let r := outRing s n
  canReq s && s.power.loss.isNone && bit s.host.ctl 0 && bit r.cfg 0 && !r.halt && decide (ringUsed r.prod r.cons < ringSize r.cfg)

/-! ### Events and the recorder (R355, R356, R453 to R458) -/

/-- The eight words of an event entry without OWN (R355). -/
def eventWords (e : Event) : List Word :=
  [field 0 e.code ||| field 16 e.sev, field 0 e.seq, e.t, e.p0, e.p1, e.p2, e.p3]

/-- An event written to the event ring, or kept in the backlog, or dropped (R356). -/
def deliverEvent (e : Event) (s : State) : State :=
  if s.host.backlog.isEmpty && outReady s 16 then writeEntry 16 (eventWords e) s
  else if s.host.backlog.length < 64 then { s with host := { s.host with backlog := s.host.backlog ++ [e] } }
  else
    { s with
      host := { s.host with
        evdrop := (s.host.evdrop + 1) % 2 ^ 64
        firstDropped := if s.host.droppedSince = 0 then e.seq else s.host.firstDropped
        droppedSince := s.host.droppedSince + 1 } }

/-- The lowest enabled trigger that matches an event code (R458). -/
def triggerFor (r : Recorder) (code : Nat) : Option Nat :=
  (List.range 16).find? (fun k =>
    let t := vget r.trg k 0
    bit t 32 && (BitVec.ofNat 16 code &&& BitVec.ofNat 16 (bits t 31 16) ==
      BitVec.ofNat 16 (bits t 15 0) &&& BitVec.ofNat 16 (bits t 31 16)))

/-- The snapshots that a trigger names: the values and which of them are valid (R458). -/
def snapshots (s : State) (k : Nat) : List Word × Nat :=
  let sel := vget s.recorder.tsel k 0
  let used := bits sel 63 60
  ((List.range 4).map (fun i => if used.testBit i then bar0Read s (8 * bits sel (15 * i + 14) (15 * i)) else 0), used)

/-- The record of an event (R453, R454, R458). -/
def recordOf (s : State) (e : Event) : Record :=
  let r := s.recorder
  let sn := match triggerFor r e.code with
    | some k => (k, snapshots s k)
    | none => (0, ([0, 0, 0, 0], 0))
  { ev := e, restart := r.fresh, rnum := r.next, rtc := rtcCountWord s.rtc, opsec := s.rtc.opsec,
    pwrcyc := s.rtc.pwrcyc, snaps := sn.2.1, trig := sn.1, snapv := sn.2.2, at_ := s.mono }

/-- An event captured by the recorder, or lost when its buffer of 4,096 is full (R453). The numbers are the drops to report and whether REC.LOST has just saturated. -/
def capture (e : Event) (s : State) : State × Nat × Bool :=
  let r := s.recorder
  if r.buffer.length < 4096 then
    ({ s with recorder := { r with
        buffer := r.buffer ++ [recordOf s e], next := r.next + 1, fresh := false, lostSince := 0 } }, r.lostSince, false)
  else
    let c := satStep 32 r.lost
    ({ s with recorder := { r with lost := c.1, lostSince := r.lostSince + 1 } }, 0, c.2)

/-- One event raised: numbered, stamped, captured and delivered (R355). -/
def raiseOne (code sev : Nat) (p0 p1 p2 p3 : Word) (s : State) : State × Nat × Bool :=
  let e : Event := { code := code, sev := sev, seq := s.host.evSeq, t := localT s, p0 := p0, p1 := p1, p2 := p2, p3 := p3 }
  let c := capture e { s with host := { s.host with evSeq := s.host.evSeq + 1 } }
  (deliverEvent e c.1, c.2)

/-- An event is raised, with REC_LOST after drops and COUNTER_SATURATED when REC.LOST fills (R355, R453, R460). -/
def raise (s : State) (code sev : Nat) (p0 : Word := 0) (p1 : Word := 0) (p2 : Word := 0) (p3 : Word := 0) : State :=
  let a := raiseOne code sev p0 p1 p2 p3 s
  let b := if 0 < a.2.1 then (raiseOne 0x0900 1 (field 0 a.2.1) 0 0 0 a.1).1 else a.1
  if a.2.2 then (raiseOne 0x0003 1 0 (field 0 0x3028) 0 0 b).1 else b

/-- A saturating register counter has reached its largest value: COUNTER_SATURATED of kind 0 with its BAR0 offset (R461, R553). -/
def counterFull (off : Nat) (reached : Bool) (s : State) : State :=
  if reached then raise s 0x0003 1 0 (field 0 off) else s

/-! ### Errors (R26, R28, R431, R435, R436) -/

/-- An access error: the first one since ACCBAR and ACCSYS were both 0 is described (R435). -/
def accessError (bar : Bool) (agent : Nat) (write : Bool) (addr : Nat) (s : State) : State :=
  let e := s.errs
  let first := !e.accbar && !e.accsys
  { s with errs := { e with
      accbar := e.accbar || bar, accsys := e.accsys || !bar
      erraddr := if first then field 0 addr else e.erraddr
      agent := if first then agent else e.agent
      write := if first then write else e.write } }

/-- A corrected error is counted at its owner (R26, R436). -/
def countCe (a : Nat) (s : State) : State :=
  let k := ownerOf a
  let c := satStep 32 (vget s.errs.ces k 0)
  counterFull (0x400 + 8 * k) c.2 { s with errs := { s.errs with ce := true, ces := vset s.errs.ces k c.1 } }

/-- An uncorrectable error is counted at its owner and described (R26, R435, R436). -/
def countUe (a : Nat) (s : State) : State :=
  let k := ownerOf a
  let c := satStep 32 (vget s.errs.ues k 0)
  counterFull (0x800 + 8 * k) c.2
    { s with errs := { s.errs with ue := true, ueaddr := field 0 (8 * (a / 8)), ueown := k, ues := vset s.errs.ues k c.1 } }

/-- An uncorrectable flash group that a read finds: counted in NVS.FLASHUE and reported by FLASH_UE (R474, R516, R520). -/
def flashUe (a : Nat) (s : State) : State :=
  let c := satStep 32 s.nvs.flashue
  raise (counterFull 0x5028 c.2 { s with nvs := { s.nvs with flashue := c.1 } }) 0x0A02 2 (field 0 (8 * ((a - flashBase) / 8)))

/-- An uncorrectable error that a read finds: one of SRAM is reported by MEM_UE, one of flash by FLASH_UE (R431, R461, R474). -/
def memUe (a : Nat) (s : State) : State :=
  if flashBase ≤ a then flashUe a s
  else raise (countUe a s) 0x0107 2 (field 0 (ownerOf a)) (field 0 (8 * (a / 8))) (field 0 (camidAt s (8 * (a / 8))))

/-- A write of an agent, each damaged word it meets reported (R25, R431). -/
def storeMem (a : Nat) (bs : List Byte) (s : State) : State :=
  let r := writeMem s a bs
  forEach r.2 memUe r.1

/-- A read of an agent: the bytes, or the damaged word it meets, reported (R24, R431). -/
def loadMem (a n : Nat) (s : State) : Option (List Byte) × State :=
  match ueIn s a n with
  | some w => (none, memUe w s)
  | none => (some (readBytes s a n), s)

/-- The bytes of a range with every damaged word taken as 0, and the damaged words (R432). -/
def readZeroed (s : State) (a n : Nat) : List Byte :=
  (List.range n).map (fun i => if s.ue.contains (8 * ((a + i) / 8)) then 0 else readByte s (a + i))

/-- All damaged words of a range. -/
def ueAll (s : State) (a n : Nat) : List Nat := (wordsOf a n).filter (fun w => s.ue.contains w)

/-! ### Tills and Stalls -/

/-- A Till holds a release that is dispatched and not yet committed, abandoned or stopped (R15). -/
def isLive (t : Till) : Bool := t.area == .live

/-- The live Till of a Stall, if any (R15). -/
def liveTill (s : State) (k : StallId) : Option TillId := (tillsOf k).find? (fun t => isLive (tillAt s t))

/-- The speculative Till of a Stall, if any (R84). -/
def specTill (s : State) (k : StallId) : Option TillId :=
  (tillsOf k).find? (fun t => (tillAt s t).area == .speculative)

/-- The Till that holds the live release of a task, if any. -/
def liveTillOf (s : State) (id : TaskId) : Option TillId :=
  allTills.find? (fun t => isLive (tillAt s t) && (tillAt s t).rel.task == id)

/-- A task is pinned to the Stall (R45). -/
def hasTask (s : State) (k : StallId) : Bool := s.tasks.any (fun t => t.e.stall == k)

/-- A Stall is held: it may dispatch nothing (R20). -/
def stallHeld (s : State) (k : StallId) : Bool :=
  match s.ctl.mode with
  | .held => true
  | .stop => (liveTill s k).isNone
  | _ => !hasTask s k

/-- The period of a task in base ticks (R44, R48). -/
def periodOf (e : TaskEntry) : Nat := e.periodM1 + 1

/-! ### The Purse (R427, R428) -/

/-- A request made at the Purse (R427, R428). -/
def purseAsk (src tokens who : Nat) (s : State) : State :=
  { s with purse := { s.purse with
      waiting := s.purse.waiting ++ [{ src := src, tokens := tokens, who := who, made := s.mono }] } }

/-- Tokens of a source returned (R428). -/
def purseReturn (src n : Nat) (s : State) : State :=
  { s with purse := { s.purse with use := vmod s.purse.use src (fun u => u - n) } }

/-- Waiting requests of one source and requester withdrawn without an effect. -/
def purseDrop (src who : Nat) (s : State) : State :=
  { s with purse := { s.purse with waiting := s.purse.waiting.filter (fun r => !(r.src == src && r.who == who)) } }

/-! ### Ring commands (R347 to R350) -/

/-- The command that a ring has begun, when it has the opcode (R347). -/
def begun (s : State) (ring opcode : Nat) : Option Cmd :=
  match (cmdRing s ring).cur with
  | some c => if c.opcode = opcode then some c else none
  | none => none

/-- A command is under way: its ring waits for its completion (R347). -/
def accept (c : Cmd) (s : State) : State := modRing c.ring (fun r => { r with cur := none, busy := some c }) s

/-- A command is handed off: its ring moves on (R347). -/
def handOff (c : Cmd) (s : State) : State :=
  modRing c.ring (fun r => { r with cur := none, handed := r.handed ++ [c.idx] }) s

/-- A ring still knows a command as begun; after a host reset it does not (R339). -/
def knowsCmd (s : State) (c : Cmd) : Bool :=
  let r := cmdRing s c.ring
  decide (r.cur = some c) || decide (r.busy = some c) || r.handed.contains c.idx

/-- A command has finished: its completion waits to be handed over, and is discarded after a host reset (R339, R348). -/
def finish (c : Cmd) (status : Nat) (r0 r1 : Word) (s : State) : State :=
  if !knowsCmd s c then s
  else
    modRing c.ring (fun r => { r with
      cur := if r.cur = some c then none else r.cur, busy := if r.busy = some c then none else r.busy
      handed := r.handed.filter (fun i => i != c.idx) })
      { s with host := { s.host with
          finished := s.host.finished ++ [{ cmd := c, status := status, result0 := r0, result1 := r1 }] } }

/-- The command under way on a ring finishes, if there is one. -/
def finishBusy (ring status : Nat) (r0 r1 : Word) (s : State) : State :=
  match (cmdRing s ring).busy with
  | some c => finish c status r0 r1 s
  | none => s

/-- A ring command's meaning: `f` runs on the begun command of that opcode, and nothing happens when the ring has begun no such command (R347; log 8). -/
def onRing (ring opcode : Nat) (s : State) (f : Cmd → State → State) : Out :=
  match begun s ring opcode with
  | some c => ok (f c s)
  | none => ok s

/-- Word W`i` of a command, i from 1 to 5 (R346). -/
def opnd (c : Cmd) (i : Nat) : Word := vget c.w (i - 1) 0

/-- A descriptor whose used operand bits are given by masks, one per operand from W1 on: any other bit set is a non-zero reserved field (R349). -/
def reservedZero (c : Cmd) (masks : List Word) : Bool :=
  (enumFrom 0 c.w.toList).all (fun x => x.2 &&& ~~~(masks.getD x.1 0) == 0)

/-- A mask of bits `[n-1..0]`. -/
def lowMask (n : Nat) : Word := BitVec.ofNat 64 (2 ^ n - 1)

/-- A host range does not wrap past 2^64 (R366). -/
def hostRangeOk (a : Word) (n : Nat) : Bool := decide (a.toNat + n ≤ 2 ^ 64)

end Sys2Proof.Machine
end

