-- ==== Sys2Proof/Machine/Link.lean ====
section
/-!
DEFINITION. What the rest of the machine needs of a hot-standby pair: the pair state, what is sent on the Bolist link, the wait for settlement, and the way into DETACHED (R376 to R393).
-/
namespace Sys2Proof.Machine

/-- The redundancy unit changed. -/
def modRed (f : Red → Red) (s : State) : State := { s with red := f s.red }

/-- RED.CTL.EN: a pair project runs (R381, R406). -/
def pairEnabled (s : State) : Bool := bit s.red.ctl 0

/-- Lanes that are up (R378). -/
def lanesUp (s : State) : Nat := (s.red.lanes.toList.filter Lane.up).length

/-- The unit holds the mandate: SOLO always after READY, otherwise by formation (R381, R382). -/
def holdsMandate (s : State) : Bool := s.red.mandate

/-- The active mirrors its releases (R385). -/
def mirroring (s : State) : Bool :=
  s.red.role == .active && (s.red.pstate == .confirming || s.red.pstate == .synced)

/-- The standby follows, from the parts of the state copy on that have reached it (R385, R386, R401). -/
def following (s : State) : Bool :=
  s.red.role == .standby && (s.red.pstate == .copying || s.red.pstate == .confirming || s.red.pstate == .synced)

/-- The active copies its state (R401). -/
def copying (s : State) : Bool := s.red.role == .active && s.red.pstate == .copying

/-- The active mirrors what is not of one Market: everywhere, or once the motion state is copied (R385, R401). -/
def mirrorOn (s : State) : Bool := mirroring s || (copying s && s.red.motionCopied)

/-- The active mirrors the releases of a task: everywhere, or once its Market is copied (R385, R401). -/
def mirrorsTask (s : State) (id : TaskId) : Bool :=
  mirroring s || (copying s && (match taskOf s id with
    | some t => s.red.marketCopied[t.e.market]
    | none => false))

/-- A payload is filled up with zeros to a multiple of 8 bytes (R377). -/
def fillWords (l : List Byte) : List Byte := l ++ List.replicate ((8 - l.length % 8) % 8) 0

/-- A message leaves on both lanes, numbered; a unit with no powered lane sends none (R376, R377). -/
def linkSend (mtype : Nat) (ref : Word) (payload : List Byte) (s : State) : State :=
  if s.red.lanes.toList.any Lane.granted then
    modRed (fun r => { r with
      sent := r.sent ++ [{ mtype := mtype, mseq := r.mseq, ref := ref, payload := fillWords payload }], mseq := r.mseq + 1 }) s
  else s

/-- A pair command is refused with BAD_STATE and a reason, which is kept as the last one (R400, R405, R407). -/
def refusePair (c : Cmd) (reason : Nat) (s : State) : State :=
  finish c 6 (field 0 reason) 0 (modRed (fun r => { r with reason := reason }) s)

/-- A PAIR_FORM that still waits for its peer ends with the reason (R400). -/
def endForming (reason : Nat) (s : State) : State :=
  match s.red.forming with
  | some (ring, _, _) => finishBusy ring 6 (field 0 reason) 0 (modRed (fun r => { r with forming := none }) s)
  | none => s

/-- A byte string cut into pieces of at most `n` bytes, with their offsets; an empty string gives one empty piece. -/
def piecesAux : Nat → Nat → Nat → List Byte → List (Nat × List Byte)
  | 0, _, _, _ => []
  | fuel + 1, n, off, l =>
    if l.length ≤ n then [(off, l)] else (off, l.take n) :: piecesAux fuel n (off + n) (l.drop n)

/-- A byte string cut into pieces of at most `n` bytes. -/
def pieces (n : Nat) (l : List Byte) : List (Nat × List Byte) := piecesAux (l.length + 1) n 0 l

/-- The latched input section of a cyclic release goes to the standby (R377, R385). -/
def sendInput (id : TaskId) (relnum : Nat) (data : List Byte) (s : State) : State :=
  if !mirrorsTask s id then s
  else
    let ps := pieces 4072 data
    forEach ps (fun p q => linkSend 2 (field 0 relnum)
      (bytesOfWords [field 0 id.toNat, field 0 p.1, flag 0 (p.1 + p.2.length == data.length)] ++ p.2) q) s

/-- The event record of an event release goes to the standby (R377, R385). -/
def sendEvent (id : TaskId) (relnum : Nat) (evt : List Word) (s : State) : State :=
  if !mirrorsTask s id then s
  else linkSend 3 (field 0 relnum) (bytesOfWords (field 0 id.toNat :: evt)) s

/-- A journal entry as its two words (R102). -/
def jentryWords (e : JEntry) : List Word :=
  let k := match e.kind with
    | .undo => 0
    | .globalRead => 1
    | .effect => 2
  [field 0 k ||| field 2 e.interval ||| flag 10 e.ue ||| field 32 e.addr, e.value]

/-- A journal entry from its two words (R102). -/
def jentryOf (a b : Word) : JEntry :=
  { kind := (match bits a 1 0 with
      | 0 => .undo
      | 1 => .globalRead
      | _ => .effect)
    interval := bits a 9 2, ue := bit a 10, addr := bits a 63 32, value := b }

/-- The effect and global-read entries of a release go to the standby, in execution order (R377, R385). -/
def sendJournal (id : TaskId) (relnum : Nat) (l : List JEntry) (s : State) : State :=
  let ws := bytesOfWords ((l.filter (fun e => e.kind != .undo)).flatMap jentryWords)
  if !mirrorsTask s id || ws.isEmpty then s
  else forEach (pieces 4080 ws) (fun p q => linkSend 4 (field 0 relnum) (bytesOfWord (field 0 id.toNat) ++ p.2) q) s

/-- A hash of a release or of a motion cycle goes to the peer (R377, R389, R390). -/
def sendHash (ref w0 w1 : Word) (s : State) : State :=
  if mirrorOn s || following s then linkSend 6 ref (bytesOfWords [w0, w1]) s else s

/-- Every verification replay ends without a result. -/
def dropVerification (s : State) : State :=
  forEach allTills (fun t q =>
    modTill t (fun k => if k.area == .retained then { k with replay := none, waiting := false, trap := none } else k) q) s

/-- The pair goes to DETACHED with a reason (R381, R405, R408); with AUTORS the active forms again 100 ms later (R406). -/
def pairDetach (reason : Nat) (s : State) : State :=
  if s.red.pstate == .none || s.red.pstate == .detached then s
  else
    let c := satStep 32 s.red.detach
    let q := modRed (fun r => { r with
      pstate := .detached, reason := reason, detach := c.1, adjudication := none, confirmFrom := none, mirrors := [],
      motions := [], bufferedControl := [], switches := [], motionCopied := false, marketCopied := Vector.replicate 4 false,
      autorsFrom := if bit r.ctl 2 && r.role == .active then some s.mono else none }) s
    counterFull 0x14060 c.2 (raise (dropVerification q) 0x0708 1 (field 0 reason))

/-- The Till of a Stall that holds a retained release (R104). -/
def retainedTill (s : State) (k : StallId) : Option TillId :=
  (tillsOf k).find? (fun t => (tillAt s t).area == .retained)

/-- A release is settled (R390). -/
def isSettled (s : State) (id : TaskId) (relnum : Nat) : Bool := s.red.settledTasks.contains (id, relnum)

/-- A release marked settled, in place of the task's earlier one. -/
def markSettled (id : TaskId) (relnum : Nat) (s : State) : State :=
  modRed (fun r => { r with settledTasks := r.settledTasks.filter (fun x => x.1 != id) ++ [(id, relnum)] }) s

/-- The next input latch of a Stall waits for the settlement of its retained release, or for an adjudication (R104, R390 to R392). -/
def latchHeld (s : State) (k : StallId) : Bool :=
  (match s.red.adjudication with
  | some a => a.stall == k
  | none => false) ||
  (mirroring s && !s.red.cmpOff && (match retainedTill s k with
    | some t => !isSettled s (tillAt s t).rel.task (tillAt s t).rel.relnum
    | none => false))

/-- A command forwarded to the standby as CONTROL messages: REF, then the opcode with bit 63 in the last piece, W1 to W5, and a piece of its data (R385, R388). -/
def forwardCommand (ref : Word) (opcode : Nat) (w : List Word) (data : List Byte) (s : State) : State :=
  if mirrorOn s then
    let ps := if data.isEmpty then [(0, [])] else pieces 4032 data
    forEach (enumFrom 1 ps) (fun p q =>
      linkSend 8 ref (bytesOfWords ((field 0 opcode ||| flag 63 (p.1 == ps.length)) :: w) ++ p.2.2) q) s
  else s

/-- The begun command forwarded with its operands (R388). -/
def forwardCmd (ref : Word) (c : Cmd) (data : List Byte) (s : State) : State := forwardCommand ref c.opcode c.w.toList data s

end Sys2Proof.Machine
end

