-- ==== Sys2Proof/Machine/Outputs.lean ====
section
/-!
DEFINITION. What drives the field output switches (R306, R318, R320, R325 to R328), and what a mode change does to the field die and to the axes (R214, R230, R232, R245, R320, R323 to R325, R327).
-/
namespace Sys2Proof.Machine

/-- A channel is an output (R296). -/
def isOutput (c : Channel) : Bool := bit c.cfg 0

/-- The output source of a channel: 0 IMAGE, 1 EVENT, 2 REFLEX, 3 GEN (R306). -/
def outSrc (c : Channel) : Nat := bits c.cfg 19 18

/-- A supply group (R294). -/
def groupAt (s : State) (g : Nat) : Group := vget s.field.groups g Group.reset

/-- One supply group changed. -/
def modGroup (g : Nat) (f : Group → Group) (s : State) : State :=
  { s with field := { s.field with groups := vmod s.field.groups g f } }

/-- The filtered states of all channels as bits (R299). -/
def filtWord (f : Field) : Word := flagsOf Channel.filt f.channels.toList

/-- The term of a reflex entry (R318). -/
def reflexTerm (f : Field) (r : Reflex) : Bool :=
  let m := bits r.mask 31 0
  let pol := BitVec.ofNat 64 (bits r.mask 63 32)
  m != 0 && ((filtWord f ^^^ pol) &&& BitVec.ofNat 64 m == BitVec.ofNat 64 m)

/-- The channel a reflex entry acts on, if it is an output channel with SRC = REFLEX (R318). -/
def reflexChannel (f : Field) (r : Reflex) : Option Nat :=
  let c := bits r.ctl 6 2
  let ch := vget f.channels c Channel.reset
  if isOutput ch && outSrc ch == 2 then some c else none

/-- One field-die cycle of a reflex entry: the term, LATCH and PULSE, all ended while the enable bit is 0 (R318). -/
def stepReflex (f : Field) (now : Nat) (r : Reflex) : Reflex :=
  let term := reflexTerm f r
  match reflexChannel f r with
  | none => { r with term := term, latched := false, pulse := none }
  | some c =>
    let en := (vget f.channels c Channel.reset).imageOn
    match bits r.ctl 1 0 with
    | 2 => { r with term := term, latched := en && (r.latched || term), pulse := none }
    | 3 =>
      { r with term := term, latched := false
               pulse := if !en then none
                        else match r.pulse with
                          | some p => some p
                          | none => if term && !r.term then some now else none }
    | _ => { r with term := term, latched := false, pulse := none }

/-- The output of a reflex entry (R318). -/
def reflexOut (r : Reflex) : Bool :=
  match bits r.ctl 1 0 with
  | 0 => false
  | 1 => r.term
  | 2 => r.latched
  | _ => r.pulse.isSome

/-- Every reflex entry evaluated (R318). -/
def evalReflex (s : State) : State :=
  { s with field := { s.field with reflexes := s.field.reflexes.map (stepReflex s.field s.mono) } }

/-- The reflex result of a channel: the OR of the entries whose OUT is that channel (R318). -/
def reflexResult (f : Field) (c : Nat) : Bool :=
  f.reflexes.toList.any (fun r => bits r.ctl 6 2 == c && reflexOut r)

/-- The level that a channel's source commands (R306). -/
def sourceLevel (f : Field) (n : Nat) : Bool :=
  let c := vget f.channels n Channel.reset
  isOutput c && (match outSrc c with
    | 0 => c.imageOn
    | 1 => c.eventOn
    | 2 => c.imageOn && reflexResult f n
    | _ => c.imageOn && c.gen.out)

/-- The unit of a pair drives a channel: a standby or a candidate drives only those in RED.FHOLD; after a planned switch the old active drives its channels up to the next output time (R382, R396, R403). -/
def drivesChannel (s : State) (n : Nat) : Bool :=
  s.red.role == .solo || s.red.role == .active || s.red.lingering || s.red.fhold.getLsbD n

/-- A switch is held open whatever its source: ARMED = 0, a group FAULT, a trip, the wait for the next output time after a clear, or the unit's role in a pair (R306, R326, R328, R382). -/
def heldOpen (s : State) (n : Nat) : Bool :=
  let c := channelAt s n
  !s.ctl.armed || !drivesChannel s n || (groupAt s (n / 8)).fault || c.tripAt.isSome || c.relatch || !isOutput c

/-- The level a switch is due to take now (R306). -/
def wantedLevel (s : State) (n : Nat) : Bool := !heldOpen s n && sourceLevel s.field n

/-- Switches that one field-die cycle may change (R325). -/
def switchLimit (s : State) : Nat := 8 * (1 + s.field.granted)

/-- A switch takes a level. -/
def setSwitch (n : Nat) (on : Bool) (s : State) : State := modChannel n (fun c => { c with on := on }) s

/-- The switches take their wanted levels: openings that are held go at once, at most C others in this cycle, and the rest are deferred by 1 us and counted (R325). -/
def driveOutputs (s : State) : State :=
  let forced := (List.range 32).filter (fun n => heldOpen s n && (channelAt s n).on)
  let a := forEach forced (fun n => setSwitch n false) s
  let due := (List.range 32).filter (fun n => (channelAt a n).on != wantedLevel a n)
  let waiting := a.field.deferred.filter (fun d => due.contains d.1 && d.2 == wantedLevel a d.1)
  let newDue := due.filter (fun n => !waiting.any (fun d => d.1 == n))
  let first := newDue.take (switchLimit s)
  let rest := newDue.drop (switchLimit s)
  let b := forEach first (fun n q => setSwitch n (wantedLevel q n) q) a
  { b with field := { b.field with
      deferred := waiting ++ rest.map (fun n => (n, wantedLevel b n))
      deferAt := if waiting.isEmpty then b.mono + 1000 else b.field.deferAt
      stagger := (b.field.stagger + rest.length) % 2 ^ 64 } }

/-- One field-die cycle after a change of an input, an enable, an armed state or a fault (R306, R318). -/
def updateField (s : State) : State := driveOutputs (evalReflex s)

/-! ### ARMED (R63, R324, R325, R327) -/

/-- A group has an output channel (R327). -/
def groupHasOutput (s : State) (g : Nat) : Bool :=
  (List.range 8).any (fun i => isOutput (channelAt s (8 * g + i)))

/-- L+ of a group is below the cut-off threshold (R327). -/
def belowCutoff (g : Group) : Bool :=
  match g.lplus with
  | .absent => true
  | .belowCutoff => true
  | _ => false

/-- ARMED becomes 1: the field die requests its tokens, and a group with outputs below cut-off takes FAULT at once (R325, R327). -/
def fieldArm (s : State) : State :=
  let a := if s.field.pcfg = 0 then s else purseAsk 3 s.field.pcfg 0 s
  let b := forEach (List.range 4) (fun g q =>
    if groupHasOutput q g && belowCutoff (groupAt q g) then modGroup g (fun x => { x with fault := true }) q else q) a
  updateField { b with ctl := { b.ctl with armed := true } }

/-- ARMED becomes 0: every switch opens, generators go to MODE 0, pending sets are discarded, and the tokens are returned (R67, R324, R325). -/
def fieldDisarm (s : State) : State :=
  let a := purseDrop 3 0 (purseReturn 3 s.field.granted s)
  let b := { a with
    ctl := { a.ctl with armed := false }
    field := { a.field with
      granted := 0
      deferred := []
      channels := a.field.channels.map (fun c => { c with gen := Generator.off, pend := none, eventOn := false }) } }
  updateField b

/-- At Te of a STOP an EVENT channel whose owner's section has STOPSTATE = 1 switches off (R320). -/
def fieldStop (s : State) : State :=
  let off (c : Channel) : Bool :=
    isOutput c && outSrc c == 1 && s.tasks.any (fun t => t.e.id.toNat == bits c.cfg 26 20 && t.e.stopOff)
  updateField { s with field := { s.field with
    channels := s.field.channels.map (fun c => if off c then { c with eventOn := false } else c) } }

/-- Each RUN sets the last image command SEQ of every slot to none (R323). -/
def fieldRun (s : State) : State :=
  { s with field := { s.field with lastSeq := Vector.replicate 8 none } }

/-! ### Axes and the mode (R205, R214, R230, R232, R245) -/

/-- A word of an axis record: engine, slot, byte offset (R205). -/
def axisRec (s : State) (e slot off : Nat) : Word := readWord s (motBase e + 128 * slot + off)

/-- TYPE of an axis record (R205). -/
def axisType (s : State) (e slot : Nat) : Nat := bits (axisRec s e slot 0) 2 0

/-- The way an axis stops under its STOPMODE; FOLLOW outside GEAR and CAM acts as RAMP (R217, R230). -/
def stopHowOf (stopmode : Nat) (a : Axis) : StopHow :=
  match stopmode with
  | 0 => if a.mode == .gear || a.mode == .cam then .follow else .ramp
  | 1 => .ramp
  | _ => .hold

/-- A moving axis enters STOPPING with a cause (R214, R217, R230). -/
def stopAxis (how : StopHow) (cause : Nat) (dec : Word) (a : Axis) : Axis :=
  if a.state == .moving then
    { a with state := .stopping, cause := cause, stopHow := how, dec := dec, inpos := false, camNext := none }
  else a

/-- Every axis of an engine changed by a function of its slot. -/
def mapAxes (e : Nat) (f : Nat → Axis → Axis) (s : State) : State :=
  modEngine e (fun g => { g with axes := (enumFrom 0 g.axes).map (fun x => f x.1 x.2) }) s

/-- At Te of a STOP every moving axis enters STOPPING with cause 0 (R230). -/
def motionStop (s : State) : State :=
  forEach (List.range 8) (fun e q =>
    mapAxes e (fun i a => stopAxis (stopHowOf (bits (axisRec s e i 0) 6 5) a) 0 (axisRec s e i 40) a) q) s

/-- At Te of a DISARM every axis enters STANDBY (R232). -/
def motionDisarm (s : State) : State :=
  forEach (List.range 8) (fun e q =>
    mapAxes e (fun _ a => { a with
      state := .standby, mode := .none, cause := 0, inpos := false, clutched := false, camdone := false,
      camNext := none, pendCorr := none, ramp := none }) q) s

/-- At a RUN every engine takes its written configuration, leaves reduced mode, and discards the commands it finds (R204, R231, R245). -/
def motionRun (s : State) : State :=
  forEach (List.range 8) (fun e q => modEngine e (fun g => { g with
    cfg := g.ecfg, state := 1, run := 0, stale := true }) q) s

end Sys2Proof.Machine
end

