-- ==== Sys2Proof/Machine/Stall.lean ====
section
/-!
DEFINITION. What happens to releases, Tills and Stalls: start state, undo, squash, abandonment, freezing, task faults, transient faults and replay, mode changes, and writes that other agents may notice.
-/
namespace Sys2Proof.Machine

/-- A task entry for a task that the table does not hold. -/
def TaskEntry.absent : TaskEntry :=
  { id := 0, event := false, runahead := false, stopOff := false, prio := 0, stall := 0, market := 0, faultReact := 0,
    ovrlim := 0, periodM1 := 0, phase := 0, trigSrc := 0, trigIndex := 0, trigEdge := 0, inOff := 0, inLen := 0,
    outOff := 0, outLen := 0, entry := 0, instOff := 0, instLen := 0 }

/-- The table entry of a task (R48). -/
def entryOf (s : State) (id : TaskId) : TaskEntry :=
  match taskOf s id with
  | some t => t.e
  | none => TaskEntry.absent

/-- The table entry of the task whose release a Till holds. -/
def tillEntry (s : State) (t : TillId) : TaskEntry := entryOf s (tillAt s t).rel.task

/-- The release end address (R121). -/
def endAddress : Nat := 0x0010_0000

/-- The register state at dispatch and at the start of a speculative release (R121). -/
def startRegs (e : TaskEntry) : Vector Word 32 :=
  ((zeroRegs.set 29 (field 0 (0x0100_0000 + e.instOff))).set 30 (field 0 endAddress)).set 31 (field 0 0x0014_0000)

/-- A Till at the start of a release, with checkpoint 0 taken (R92, R121). -/
def startTill (e : TaskEntry) (r : Release) (area : AreaState) (now : Nat) : Till :=
  { Till.idle with
    area := area, rel := r, regs := startRegs e, regw := startRegs e, pc := BitVec.ofNat 20 e.entry,
    ckpts := [{ regs := startRegs e, pc := BitVec.ofNat 20 e.entry, held := [], spent := 0 }],
    dispatchAt := now, runSince := now }

/-- The interval a release is in: that of its last checkpoint (R87, R92). -/
def intervalOf (t : Till) : Nat := min (t.ckpts.length - 1) 255

/-- System address of a Stall's effective address in its own Market memory (R29). -/
def marketSys (t : TillId) (ea : Nat) : Nat := marketBase (marketOf t.stall) + (ea - 0x0100_0000)

/-! ### Writes that others notice (R88, R91, R149) -/

/-- The ranges `[a, a + n)` and `[b, b + m)` meet. -/
def meets (a n b m : Nat) : Bool := decide (a < b + m) && decide (b < a + n) && n != 0 && m != 0

/-- A write to Market memory as the watch entries and reservations see it: those of every Till but the writer's (R88, R149). -/
def noticeWrite (who : Option TillId) (a n : Nat) (s : State) : State :=
  forEach allTills (fun u q =>
    if who = some u then q
    else modTill u (fun t =>
      let base := marketBase (marketOf u.stall)
      { t with
        watch := t.watch.map (fun w => if meets (base + w.off) 8 a n then { w with changed := true } else w)
        resv := match t.resv with
          | some r => if meets (marketSys u r) 8 a n then none else some r
          | none => none }) q) s

/-- One undo entry returned to memory, with its error where it had one (R94, R102). -/
def undoOne (t : TillId) (e : JEntry) (s : State) : State :=
  let a := marketSys t e.addr
  let q := noticeWrite (some t) a 8 s
  if e.ue then markUe q a else writeWord q a e.value

/-- System address of a Till area (R100). -/
def tillArea (t : TillId) : Nat := dayBase t.stall.val + 0x1_8000 + 0x4000 * t.till.val

/-- The damaged words among the used ones of a Till area: its header and its journal entries (R101, R102). -/
def areaDamage (k : Till) : List Nat := k.damaged.filter (fun j => decide (j < 64 + 2 * k.journal.length))

/-- A Stall reads damaged words of its Till area: each is reported, and the release is unprotected from then on (R431). -/
def meetDamage (t : TillId) (l : List Nat) (s : State) : State :=
  if l.isEmpty then s
  else forEach l (fun j q => memUe (tillArea t + 8 * j) q) (modTill t (fun k => { k with unprot := true }) s)

/-- The undo entry at a place of the journal returned to memory; a value that is damaged is open, and an entry whose address is damaged is lost (R94, R431; log 48). -/
def undoAt (t : TillId) (x : Nat × JEntry) (s : State) : State :=
  let bad := [64 + 2 * x.1, 65 + 2 * x.1].filter (fun j => (tillAt s t).damaged.contains j)
  if bad.isEmpty then undoOne t x.2 s
  else
    let q := meetDamage t bad s
    if bad.contains (64 + 2 * x.1) then q
    else
      let w := freshWord q
      undoOne t { x.2 with value := w.1 } w.2

/-- Every undo entry that satisfies `p` undone, in reverse order (R94, R107). -/
def undoWhere (t : TillId) (p : JEntry → Bool) (s : State) : State :=
  forEach (((enumFrom 0 (tillAt s t).journal).filter (fun x => x.2.kind == .undo && p x.2)).reverse) (undoAt t) s

/-- Undo entries of a journal. -/
def undoCount (l : List JEntry) : Nat := (l.filter (fun e => e.kind == .undo)).length

/-- Effect entries of a journal (R111). -/
def effectCount (l : List JEntry) : Nat := (l.filter (fun e => e.kind == .effect)).length

/-- A speculative release is squashed: undone, its Till freed, and never speculated again; when it was already dispatched it restarts non-speculatively in its Till (R91, R112). -/
def squash (t : TillId) (s : State) : State :=
  let k := tillAt s t
  if k.area != .speculative then s
  else
    let q := undoWhere t (fun _ => true) s
    let q := modStall t.stall (fun x => { x with spsq := (x.spsq + 1) % 2 ^ 64 }) q
    let q := modTask k.rel.task (fun x => { x with noSpec := some k.rel.relnum }) q
    if k.dispatched then
      modTill t (fun _ => { startTill (entryOf s k.rel.task) k.rel .live s.mono with
        dispatched := true, latched := k.latched, dispatchAt := k.dispatchAt, unprot := (tillAt q t).unprot }) q
    else modTill t (fun _ => Till.idle) q

/-- Every speculative release that satisfies `p` is squashed. -/
def squashWhere (p : State → TillId → Bool) (s : State) : State :=
  forEach allTills (fun t q => if (tillAt q t).area == .speculative && p q t then squash t q else q) s

/-- Bytes written to Market memory by an agent: a speculative release whose instance area another agent writes is squashed first (R88, R91, R149, R431). -/
def marketWrite (who : Option TillId) (a : Nat) (bs : List Byte) (s : State) : State :=
  let hit (q : State) (t : TillId) : Bool :=
    let e := tillEntry q t
    who != some t && meets (marketBase e.market.val + e.instOff) e.instLen a bs.length
  storeMem a bs (noticeWrite who a bs.length (squashWhere hit s))

/-- Bytes written to the output half of an image bank by an agent that is not the section's task (R91). -/
def outputWrite (a : Nat) (bs : List Byte) (s : State) : State :=
  let hit (q : State) (t : TillId) : Bool :=
    let e := tillEntry q t
    meets (outBase e.market.val + e.outOff) e.outLen a bs.length
  storeMem a bs (squashWhere hit s)

/-- Bytes written to on-chip memory by the Teller or the DMA engine, wherever they lie (R27). -/
def agentWrite (a : Nat) (bs : List Byte) (s : State) : State :=
  match locate a with
  | some (.market _, _) => marketWrite none a bs s
  | some (.image m, _) => if outBase m ≤ a then outputWrite a bs s else storeMem a bs s
  | _ => storeMem a bs s

/-! ### Image banks (R33) -/

/-- A transaction waits at a bank (R33). -/
def bankAsk (m : MarketId) (kind : BankKind) (len : Nat) (s : State) : State :=
  modMarket m (fun k => { k with
    queue := k.queue ++ [{ kind := kind, len := len, since := s.mono, aged := false, start := 0, data := [] }] }) s

/-- A Stall's commit transaction waits or is in progress at its bank. -/
def commitInBank (s : State) (t : TillId) : Bool :=
  let k := s.markets[marketOf t.stall]
  let is (x : BankTx) : Bool := match x.kind with
    | .commit u => decide (u = t)
    | _ => false
  k.queue.any is || (match k.active with
    | some x => is x
    | none => false)

/-- A Till's commit transaction has begun (R66, R71). -/
def commitBegun (s : State) (t : TillId) : Bool :=
  match s.markets[marketOf t.stall].active with
  | some x => (match x.kind with
    | .commit u => decide (u = t)
    | _ => false)
  | none => false

/-- The waiting bank transactions of a Till withdrawn. -/
def bankDrop (t : TillId) (s : State) : State :=
  modMarket (marketOf t.stall) (fun k => { k with queue := k.queue.filter (fun x => match x.kind with
    | .commit u => decide (u ≠ t)
    | .latch u => decide (u ≠ t)
    | _ => true) }) s

/-! ### Counters of a task (R74) -/

/-- COUNTER_SATURATED for a field of a task status record (kind 1) or of an event record (kind 3) (R461). -/
def taskCounterFull (kind off : Nat) (id : TaskId) (reached : Bool) (s : State) : State :=
  if reached then raise s 0x0003 1 (field 0 kind) (field 0 id.toNat ||| field 16 off) else s

/-- FAULTCNT counted (R73, R74). -/
def countFault (id : TaskId) (s : State) : State :=
  match taskOf s id with
  | none => s
  | some k =>
    let c := satStep 32 k.faultcnt
    taskCounterFull 1 28 id c.2 (modTask id (fun x => { x with faultcnt := c.1 }) s)

/-- HSKIP counted (R69, R74). -/
def countHskip (id : TaskId) (s : State) : State :=
  match taskOf s id with
  | none => s
  | some k =>
    let c := satStep 32 k.hskip
    taskCounterFull 1 24 id c.2 (modTask id (fun x => { x with hskip := c.1 }) s)

/-- OVRCNT counted (R59, R74). -/
def countOvr (id : TaskId) (s : State) : State :=
  match taskOf s id with
  | none => s
  | some k =>
    let c := satStep 32 k.ovrcnt
    taskCounterFull 1 4 id c.2 (modTask id (fun x => { x with ovrcnt := c.1 }) s)

/-! ### Freeing a Till (R72) -/

/-- A Stall that may dispatch nothing sleeps (R20). -/
def sleepIfHeld (k : StallId) (s : State) : State :=
  if stallHeld s k && s.ctl.waits.isEmpty then modStall k (fun x => { x with awake := false }) s else s

/-- A paused speculative Till runs on (R85). -/
def unpause (now : Nat) (k : Till) : Till := if k.paused then { k with paused := false, runSince := now } else k

/-- The running release of a Stall ends: the Stall is free, and its paused speculative release resumes (R46, R85). -/
def freeStall (t : TillId) (s : State) : State :=
  modStall t.stall (fun x => if x.running = some t.till then
    { x with running := none, fence := none, tills := x.tills.map (unpause s.mono) } else x) s

/-- A release is abandoned: undone, its held writes discarded, its Till empty and its Stall free (R57, R72). -/
def abandon (t : TillId) (s : State) : State :=
  let id := (tillAt s t).rel.task
  let q := bankDrop t (undoWhere t (fun _ => true) s)
  let q := modTask id (fun x => { x with lastCommitted := false, afterCommit := .none }) q
  sleepIfHeld t.stall (freeStall t (modTill t (fun _ => Till.idle) q))

/-! ### The periods of the watchdog (R409 to R414) -/

/-- The watchdog changed. -/
def modWdg (f : Watchdog → Watchdog) (s : State) : State := { s with wdg := f s.wdg }

/-- The watchdog judges: EN = 1 and no failure yet (R411, R412). -/
def wdgRuns (s : State) : Bool := s.wdg.en && !s.wdg.expired

/-- MODE = 1, check-ins (R412). -/
def wdgCheckMode (s : State) : Bool := bit s.wdg.cfg 2

/-- WOPEN (R424). -/
def wdgOpen (s : State) : Nat := bits s.wdg.win 23 0

/-- EXPIRE (R424). -/
def wdgExpire (s : State) : Nat := bits s.wdg.win 47 24

/-- OWNER of a slot (R412). -/
def slotOwner (s : State) (k : Nat) : Nat := bits (vget s.wdg.own (k / 8) 0) (8 * (k % 8) + 6) (8 * (k % 8))

/-- A task is live (R413). -/
def taskLive (s : State) (id : Nat) : Bool :=
  match taskOf s (BitVec.ofNat 7 id) with
  | some x => (s.ctl.mode == .run || (s.ctl.mode == .hold && !s.ctl.scopeAll)) && !x.stopped && !taskFrozen s x.e.id
  | none => false

/-- A slot is satisfied at a count (R413). -/
def slotSatisfied (s : State) (c k : Nat) : Bool :=
  s.wdg.chk.getLsbD k || (decide (wdgOpen s ≤ c) && decide (slotOwner s k ≤ 95) && !taskLive s (slotOwner s k))

/-- Enabled slots that are not satisfied at a count (R413, R418). -/
def wdgMissing (s : State) (c : Nat) : BitVec 32 :=
  (List.range 32).foldl (fun w k => if s.wdg.sloten.getLsbD k && !slotSatisfied s c k then w ||| BitVec.ofNat 32 (2 ^ k) else w) 0

/-- A period begins (R410, R414). -/
def wdgBegin (s : State) : State := modWdg (fun w => { w with base := 0, since := s.mono, chk := 0, dupRaised := 0 }) s

/-- A valid service: counted, and a new period begins (R410, R418, R424). -/
def wdgServed (s : State) : State :=
  wdgBegin (modWdg (fun w => { w with svccnt := (w.svccnt + 1) % 2 ^ 64, liveSvct := localT s }) s)

/-- Every enabled slot is satisfied at the present count (R413). -/
def periodComplete (s : State) : Bool := s.wdg.sloten != 0 && wdgMissing s (wdgCount s) == 0

/-- A task has just ceased to be live: a period of the open window that is now complete is a valid service (R410, R413). -/
def wdgNotice (s : State) : State :=
  let c := wdgCount s
  if wdgRuns s && wdgCheckMode s && s.wdg.susp.isNone && s.power.loss.isNone && decide (wdgOpen s ≤ c) && decide (c < wdgExpire s) &&
      periodComplete s then wdgServed s
  else s

/-! ### The operating mode (R62 to R72) -/

/-- The mode changes and MODE_CHANGE is raised with SYS.OPMODE and Te (R62, R461). -/
def setMode (m : Mode) (reason : Nat) (ftask : TaskId) (s : State) : State :=
  let q := { s with ctl := { s.ctl with mode := m, reason := reason, ftask := ftask } }
  raise q 0x0005 0 (opmodeWord q) (localT q)

/-- MODE becomes HOLD, if it was RUN (R68, R71, R413). -/
def enterHold (reason : Nat) (id : TaskId) (s : State) : State :=
  wdgNotice (if s.ctl.mode == .run then setMode .hold reason id s else s)

/-- STOP at Te: pending releases and, unless `keep`, running releases whose commit has not begun are abandoned; outputs and axes take their stop state (R66, R80, R230, R320, R413). -/
def enterStop (keep : Bool) (reason : Nat) (ftask : TaskId) (s : State) : State :=
  let was := s.ctl.mode == .run || s.ctl.mode == .hold
  if !was then s
  else
    let q := squashWhere (fun q t => q.stalls[t.stall].pend.any (fun r => r.task == (tillAt q t).rel.task)) s
    let q := { q with
      ctl := { q.ctl with mode := .stop, reason := reason, ftask := ftask, scopeAll := false, resumeOk := true }
      signals := [], trigs := [] }
    let q := forEach allStalls (fun k q => modStall k (fun x => { x with pend := [] }) q) q
    let q := { q with tasks := q.tasks.map (fun t => { t with freezeNext := none }) }
    let q := forEach allTills (fun t q =>
      let x := tillAt q t
      if isLive x && !commitBegun q t && (!keep || x.frozen.isSome) then abandon t q else q) q
    let q := squashWhere (fun q t => (tillAt q t).dispatched) q
    let q := forEach allTills (fun t q => if isLive (tillAt q t) && !commitBegun q t && !keep then abandon t q else q) q
    let q := motionStop (fieldStop q)
    let q := forEach allStalls sleepIfHeld q
    wdgNotice (raise q 0x0005 0 (opmodeWord q) (localT q))

/-- Some task is frozen (R68, R70). -/
def anyFrozen (s : State) : Bool := s.tasks.any (fun t => taskFrozen s t.e.id)

/-- MODE returns to RUN when no task is frozen (R70). -/
def resumeIfThawed (s : State) : State :=
  if s.ctl.mode == .hold && !anyFrozen s then
    setMode .run 1 0 { s with ctl := { s.ctl with scopeAll := false } }
  else s

/-! ### Task faults (R71) -/

/-- TASK_FAULT: P0 task, cause and effect entries, P1 PC, P2 word, P3 ADDR (R71, R111, R461). -/
def raiseTaskFault (id : TaskId) (cause effects : Nat) (pc word addr : Word) (s : State) : State :=
  countFault id (raise s 0x0102 2 (field 0 id.toNat ||| field 8 cause ||| field 16 effects) pc word addr)

/-- The task stops under STOP_TASK: its pending release is removed and its speculative release is squashed (R71, R91, R413). -/
def stopTaskReaction (id : TaskId) (s : State) : State :=
  let q := forEach allStalls (fun k q => modStall k (fun x => { x with pend := x.pend.filter (fun r => r.task != id) }) q) s
  wdgNotice (squashWhere (fun q t => (tillAt q t).rel.task == id) (modTask id (fun x => { x with stopped := true }) q))

/-- A release in a Till faults and the task's FAULTREACT is applied (R71, R72). -/
def taskFault (t : TillId) (cause : Nat) (word : BitVec 32) (addr : Word) (s : State) : State :=
  let k := tillAt s t
  let e := tillEntry s t
  let q := raiseTaskFault k.rel.task cause (effectCount k.journal)
    (if cause = 16 then 0 else k.pc.setWidth 64) (word.setWidth 64) addr s
  match e.faultReact with
  | 0 => resumeIfThawed (abandon t q)
  | 1 => resumeIfThawed (stopTaskReaction e.id (abandon t q))
  | 2 => enterStop false 2 e.id (abandon t q)
  | _ =>
    enterHold 2 e.id (modTill t (fun x => { x with
      frozen := some { cause := cause, fault := true, scopeAll := false }, stepping := false, replay := none }) q)

/-! ### Transient faults and replay (R106 to R114) -/

/-- The kind of a transient fault in the encoding of REPLAY_OK (R461). -/
def FaultKind.code : FaultKind → Nat
  | .programStore => 0
  | .localData => 1
  | .lane => 2
  | .tillState => 3

/-- A byte of the verified code image for a program-store address, 0 where no CODE segment covers it (R107, R168). -/
def codeByte (s : State) (k : Nat) (off : Nat) : Byte :=
  match (s.project.code.filter (fun g => g.stall.val == k)).reverse.find? (fun g =>
    let base := (wordAt g.body 0).toNat
    decide (base ≤ off) && decide (off < base + (g.body.length - 8))) with
  | some g => g.body.getD (8 + off - (wordAt g.body 0).toNat) 0
  | none => 0

/-- The faulty word repaired: local data to zero, program store from the code image, parity needs nothing (R107 step 4). -/
def repairWord (k : StallId) (kind : FaultKind) (addr : Nat) (s : State) : State :=
  let w := 8 * (addr / 8)
  match kind with
  | .localData => writeWord s w 0
  | .programStore =>
    clearUe (putBytes s w ((List.range 8).map (fun i => codeByte s k.val (w + i - progBase k.val)))) w
  | _ => s

/-- The payload P0 of REPLAY_OK, REPLAY_LATE and SPEC_FAULT (R461). -/
def replayWord (k : StallId) (id : TaskId) (kind : FaultKind) : Word :=
  field 0 k.val ||| field 4 id.toNat ||| field 11 kind.code

/-- RPLY counted (R117). -/
def countRply (k : StallId) (s : State) : State :=
  let c := satStep 32 s.stalls[k].rply
  counterFull (0x19400 + 8 * k.val) c.2 (modStall k (fun x => { x with rply := c.1 }) s)

/-- RPLATE counted (R117). -/
def countRplate (k : StallId) (s : State) : State :=
  let c := satStep 32 s.stalls[k].rplate
  counterFull (0x19480 + 8 * k.val) c.2 (modStall k (fun x => { x with rplate := c.1 }) s)

/-- RPFAIL counted (R110, R117). -/
def countRpfail (k : StallId) (s : State) : State :=
  let c := satStep 32 s.stalls[k].rpfail
  counterFull (0x19500 + 8 * k.val) c.2 (modStall k (fun x => { x with rpfail := c.1 }) s)

/-- SPFLT counted (R112, R117). -/
def countSpflt (k : StallId) (s : State) : State :=
  let c := satStep 32 s.stalls[k].spflt
  counterFull (0x19580 + 8 * k.val) c.2 (modStall k (fun x => { x with spflt := c.1 }) s)

/-- A recovery replay begins: stopped, the other Till's speculation squashed, undone, and restarted from the Daybook (R107). -/
def startReplay (t : TillId) (kind : FaultKind) (addr : Nat) (s : State) : State :=
  let q := squashWhere (fun _ u => u.stall == t.stall) s
  let q := undoWhere t (fun _ => true) q
  let q := modTill t (fun x => { x with
    held := [], regs := x.regw, pc := BitVec.ofNat 20 (entryOf s x.rel.task).entry, resv := none, replayed := true,
    ckpts := x.ckpts.take 1, sample := 0, trap := none,
    replay := some { verify := false, base := x.journal.length, nextEffect := 0, nextGlobal := 0, stores := [],
                     kind := kind, addr := addr } }) q
  countRply t.stall (modStall t.stall (fun x => { x with fence := none }) q)

/-- A verification replay ends without its result because the release could not be reproduced (R114, R392). -/
def failVerify (t : TillId) (cause : Nat) (s : State) : State :=
  modTill t (fun x => { x with waiting := true, trap := some { cause := cause, pc := x.pc, word := 0, addr := 0 } }) s

/-- A detected transient fault in a Till (R106, R107, R110, R112, R431). `word` is the instruction word for the event. -/
def detectTransient (t : TillId) (kind : FaultKind) (addr : Nat) (word : BitVec 32) (s : State) : State :=
  let k := tillAt s t
  let s := match kind with
    | .programStore => countUe addr s
    | .localData => countUe addr s
    | _ => s
  let fixed (q : State) : State := repairWord t.stall kind addr q
  match k.area with
  | .speculative =>
    let q := raise (fixed s) 0x0105 0 (replayWord t.stall k.rel.task kind) (field 0 k.rel.relnum) (field 0 addr)
    squash t (countSpflt t.stall q)
  | .live =>
    if k.replayed || k.unprot || !bit s.spctl 1 then
      let cause := if k.replayed then 17 else 18
      taskFault t cause word (field 0 addr) (countRpfail t.stall (fixed s))
    else if !(areaDamage k).isEmpty then
      taskFault t 18 word (field 0 addr) (countRpfail t.stall (meetDamage t (areaDamage k) (fixed s)))
    else startReplay t kind addr (fixed s)
  | .retained => if k.replay.isSome then failVerify t 17 (fixed s) else fixed s
  | .empty => fixed s

/-- A replay meets an operation that does not match its journal: the task faults with REPLAY_DIVERGED, or on a standby the pair goes to DETACHED (R110, R387). -/
def replayDiverged (t : TillId) (word : BitVec 32) (s : State) : State :=
  let k := tillAt s t
  if k.area == .retained then failVerify t 19 s
  else if s.red.role == .standby then pairDetach 12 (abandon t s)
  else taskFault t 19 word (k.pc.setWidth 64) (countRpfail t.stall s)

/-- The Tills that a fence, a latch or a commit of the Stall would meet: the Stall is free when no release runs on it (R46). -/
def stallFree (s : State) (k : StallId) : Bool := s.stalls[k].running.isNone

/-- A Till of the Stall that holds nothing to keep, an empty one before a retained one (R15, R104). -/
def pickTill (s : State) (k : StallId) : Option TillId :=
  match (tillsOf k).find? (fun t => (tillAt s t).area == .empty) with
  | some t => some t
  | none => (tillsOf k).find? (fun t => (tillAt s t).area == .retained && (tillAt s t).replay.isNone)

end Sys2Proof.Machine
end

