-- ==== Sys2Proof/Machine/Mirror.lean ====
section
/-!
DEFINITION. Comparison of release hashes in a pair, adjudication, and the verdicts (R389 to R394).
-/
namespace Sys2Proof.Machine

/-- The first base tick boundary at least 2 us from now (R64, R396). -/
def boundaryAfter2us (s : State) : Nat := ceilDiv (nowT s + 2000) 31250

/-- The active gives up the mandate at a boundary for a cause of R395. -/
def abdicate (cause n : Nat) (s : State) : State :=
  modRed (fun r => { r with handover := some (n, cause == 5) }) (linkSend 11 (field 0 n) (bytesOfWord (field 0 cause)) s)

/-- Everything that belongs to one pair is gone; what is known of the peer, the counters, and the mirrored epoch stay. -/
def clearPair (r : Red) : Red :=
  { r with
    cmpOff := false, mirrors := [], motions := [], ownHashes := [], peerHashes := [], motHashes := [], settledTasks := [],
    unsettledRun := [], adjudication := none, mirroredTo := [], copied := 0, copyAt := 0, copyShadow := [],
    motionCopied := false, marketCopied := Vector.replicate 4 false, epochBuild := (0, []), epochPlan := [],
    linkLost := false, confirmFrom := none, autorsFrom := none, forming := none, handover := none, takeover := none,
    bufferedControl := [], switches := [], watched := false }

/-- The unit becomes CANDIDATE without the mandate: its project stops, it sends no frame, and its switches open, those of a planned switch at the next output time (R382, R396, R397, R403, R405). -/
def surrender (reason : Nat) (linger : Bool) (s : State) : State :=
  let q := modRed (fun r => { clearPair r with
    role := .candidate, pstate := .none, mandate := false, reason := reason, lingering := linger })
    (dropVerification (endForming reason s))
  updateField (enterStop false 5 0 q)

/-- The bytes hashed for a release: RELNUM, TASK_ID, and its output section (R389). -/
def releaseHash (relnum : Nat) (id : TaskId) (section_ : List Byte) : Word :=
  crc64 (bytesOfNat 8 relnum ++ [BitVec.ofNat 8 id.toNat] ++ section_)

/-- The outcome of an adjudication when both verdicts are known (R392, R393). -/
def settleVerdicts (s : State) : State :=
  match s.red.adjudication with
  | none => s
  | some a =>
    match a.ownVerdict, a.peerVerdict with
    | some own, some peer =>
      let act := s.red.role == .active
      let va := if act then own else peer
      let vs := if act then peer else own
      let ha := if act then a.own else a.peer
      let hs := if act then a.peer else a.own
      let c := satStep 32 s.red.cmpbad
      let q := dropVerification (modRed (fun r => { r with adjudication := none, cmpbad := c.1 }) s)
      let q := counterFull 0x14048 c.2 q
      let q := raise q 0x0702 2 (field 0 a.task.toNat ||| flag 8 va ||| flag 9 vs) (field 0 a.relnum) ha hs
      if !va && vs then (if act then abdicate 2 (boundaryAfter2us q) q else q)
      else if !va && !vs && act then pairDetach 10 (raise q 0x0703 2 (field 0 a.task.toNat) (field 0 a.relnum))
      else pairDetach 10 q
    | _, _ => s

/-- The unit's own verdict is known: it is sent, and acted on with the peer's (R392). -/
def ownVerdict (v : Bool) (s : State) : State :=
  match s.red.adjudication with
  | none => s
  | some a =>
    settleVerdicts (modRed (fun r => { r with adjudication := some { a with ownVerdict := some v } })
      (linkSend 7 (field 0 a.relnum) (bytesOfWords [field 0 a.task.toNat, flag 0 v]) s))

/-- A verification replay of a retained release begins: its registers at checkpoint 0, every store held in the Till (R114). -/
def startVerification (t : TillId) (s : State) : State :=
  modTill t (fun k => { k with
    regs := k.regw, pc := BitVec.ofNat 20 (entryOf s k.rel.task).entry, held := [], waiting := false, trap := none,
    resv := none
    replay := some { verify := true, base := k.journal.length, nextEffect := 0, nextGlobal := 0, stores := [],
                     kind := .tillState, addr := 0 } }) s

/-- Adjudication of a mismatch begins: the next latch of the Stall is held, its speculation squashed, and the retained release replayed; one that cannot be replayed counts as reproduced (R392). -/
def startAdjudication (id : TaskId) (relnum : Nat) (own peer : Word) (s : State) : State :=
  let k := (entryOf s id).stall
  let a : Adjudication :=
    { stall := k, task := id, relnum := relnum, own := own, peer := peer, ownVerdict := none, peerVerdict := none }
  let q := modRed (fun r => { r with adjudication := some a }) s
  let q := squashWhere (fun _ u => u.stall == k) q
  match retainedTill q k with
  | some t =>
    let x := tillAt q t
    if x.rel.task == id && x.rel.relnum == relnum && !x.unprot then
      (if (areaDamage x).isEmpty then startVerification t q else ownVerdict true (meetDamage t (areaDamage x) q))
    else ownVerdict true q
  | none => ownVerdict true q

/-- The hash of a release in a list of hashes. -/
def hashIn (l : List (TaskId × Nat × Word)) (id : TaskId) (relnum : Nat) : Option Word :=
  (l.find? (fun x => x.1 == id && x.2.1 == relnum)).map (fun x => x.2.2)

/-- Both hashes of a release are compared once both are known (R390 to R393). -/
def compareHashes (id : TaskId) (relnum : Nat) (s : State) : State :=
  match hashIn s.red.ownHashes id relnum, hashIn s.red.peerHashes id relnum with
  | some own, some peer =>
    let keep (l : List (TaskId × Nat × Word)) := l.filter (fun x => x.1 != id || relnum < x.2.1)
    let q := modRed (fun r => { r with ownHashes := keep r.ownHashes }) s
    if own = peer then
      markSettled id relnum (modRed (fun r => { r with
        cmpok := (r.cmpok + 1) % 2 ^ 64, unsettledRun := r.unsettledRun.filter (fun x => x.1 != id) }) q)
    else if q.red.cmpOff then
      let c := satStep 32 q.red.cmpbad
      counterFull 0x14048 c.2 (modRed (fun r => { r with cmpbad := c.1 }) q)
    else if q.red.adjudication.isSome then q
    else startAdjudication id relnum own peer q
  | _, _ => s

/-- The unit's own hash of a committed release is known: it is sent and compared (R389, R390). -/
def ownHash (id : TaskId) (relnum : Nat) (h : Word) (s : State) : State :=
  if mirrorsTask s id || following s then
    compareHashes id relnum (modRed (fun r => { r with
      ownHashes := r.ownHashes.filter (fun x => x.1 != id || relnum ≤ x.2.1 + 64) ++ [(id, relnum, h)] })
      (sendHash (field 0 relnum) (field 0 id.toNat) h s))
  else s

/-- A peer hash of a release has arrived (R390). -/
def peerHash (id : TaskId) (relnum : Nat) (h : Word) (s : State) : State :=
  compareHashes id relnum (modRed (fun r => { r with
    peerHashes := r.peerHashes.filter (fun x => x.1 != id || relnum ≤ x.2.1 + 64) ++ [(id, relnum, h)] }) s)

/-- VERIFICATION_REPLAY_DONE: the hash of the output section that the replay would have committed is compared with the release's first hash (R114, R392). -/
def execVerificationReplayDone (t : TillId) (s : State) : Out :=
  let k := tillAt s t
  if k.area == .retained && k.waiting && (match k.replay with
      | some r => r.verify
      | none => false) then
    let e := tillEntry s t
    let m := (marketOf t.stall).val
    let raw := (List.range e.outLen).map (fun i => match k.held.find? (fun c => c.1 == e.outOff + i) with
      | some c => c.2
      | none => readByte s (outBase m + e.outOff + i))
    let sec := (List.range (e.outLen / 8)).flatMap (fun i =>
      bytesOfWord (forceWord s m true (e.outOff + 8 * i) (wordOfBytes (raw.drop (8 * i)))))
    let same := k.trap.isNone && releaseHash k.rel.relnum k.rel.task sec == k.outhash
    ok (ownVerdict same (modTill t (fun k => { k with waiting := false, replay := none, held := [] }) s))
  else ok s

end Sys2Proof.Machine
end

