-- ==== Sys2Proof/Machine/Dma.lean ====
section
/-!
DEFINITION. The DMA engine: range checks, channel queues, halts, reads of a Daybook, and the move of one burst (R27, R28, R100 to R102, R364 to R371).
-/
namespace Sys2Proof.Machine

/-- A DMA channel. -/
def chanAt (s : State) (n : Nat) : DmaChan := vget s.dma.chans n DmaChan.reset

/-- A Stall's program store may be written by DMA: the Stall is held or its Market's window is open (R27). -/
def progWritable (s : State) (k : Nat) : Bool :=
  if h : k < 16 then stallHeld s ⟨k, h⟩ || (s.markets[marketOf ⟨k, h⟩]).winOpen.isSome else false

/-- R27 permits the DMA engine to read or write the row of an address. -/
def rowPermits (s : State) (r : MemRow) (write : Bool) : Bool :=
  match r with
  | .regs => false
  | .flash => !write
  | .daybook _ => !write
  | .prog k => !write || progWritable s k
  | _ => true

/-- A system range lies inside one row of R27 that permits the access (R366). -/
def sysRangeOk (s : State) (a n : Nat) (write : Bool) : Bool :=
  match locate a with
  | some (r, e) => decide (a + n ≤ e) && rowPermits s r write
  | none => false

/-- The image bank that an address lies in. -/
def imageOf (a : Nat) : Option MarketId :=
  match locate a with
  | some (.image m, _) => if h : m < 4 then some ⟨m, h⟩ else none
  | _ => none

/-- The Market whose open window holds a DMA write to this address (R172). -/
def heldByWindow (s : State) (a : Nat) : Bool :=
  match locate a with
  | some (.market m, _) => (vget s.markets m Market.reset).winOpen.isSome
  | _ => false

/-- The next command of a channel, if it has one under way or waiting and may run it (R365, R370, R371). -/
def chanNext (s : State) (n : Nat) : Option DmaCmd :=
  let c := chanAt s n
  if c.halted || c.waiting.isSome then none
  else match c.active with
    | some x => some x
    | none => c.queue.head?

/-- Bytes of the next burst of a command (R365). -/
def burstLen (c : DmaCmd) : Nat := min 4096 (c.len - c.done)

/-- The copy runs in descending address order (R367). -/
def descending (c : DmaCmd) : Bool := c.srcSys == c.dstSys && decide (c.src < c.dst) && decide (c.dst < c.src + c.len) && c.val.isNone

/-- Offset of the next burst in the command's ranges (R367). -/
def burstOff (c : DmaCmd) : Nat := if descending c then c.len - c.done - burstLen c else c.done

/-- Bytes in the token bucket now (R368). -/
def bucketLevel (s : State) : Nat :=
  min (s.dma.bucket * 1024) (s.dma.level + (s.mono - s.dma.levelAt) * s.dma.rate / 1000)

/-- The bucket holds a burst, or has no limit (R368). -/
def bucketAllows (s : State) (n : Nat) : Bool := s.dma.rate == 0 || decide (n ≤ bucketLevel s)

/-- A burst taken from the bucket (R368). -/
def takeBucket (n : Nat) (s : State) : State :=
  { s with dma := { s.dma with level := bucketLevel s - n, levelAt := s.mono } }

/-- A channel is ready for a burst: it has a command, the bucket holds it, and no window holds its write (R172, R365, R368). -/
def chanReady (s : State) (n : Nat) : Bool :=
  match chanNext s n with
  | some c => bucketAllows s (burstLen c) && !(c.dstSys && heldByWindow s (c.dst + burstOff c))
  | none => false

/-- The channel that moves the next burst: lowest PRIO, then in turn (R365). -/
def pickChan (s : State) : Option Nat :=
  minBy (fun n => (chanAt s n).prio * 8 + (n + 8 - s.dma.turn) % 8) ((List.range 7).filter (chanReady s))

/-! ### Reads of a Daybook (R100 to R104) -/

/-- STATE of a Till area (R101). -/
def areaCode (a : AreaState) : Nat :=
  match a with
  | .empty => 0
  | .speculative => 1
  | .live => 2
  | .retained => 3

/-- KIND of a journal entry (R102). -/
def jkindCode (k : JKind) : Nat :=
  match k with
  | .undo => 0
  | .globalRead => 1
  | .effect => 2

/-- Word `j` of a journal's entries (R102); a word of no entry reads as `open_`. -/
def journalWord (l : List JEntry) (j : Nat) (open_ : Word) : Word :=
  match l[j / 2]? with
  | some e =>
    if j % 2 = 0 then field 0 (jkindCode e.kind) ||| field 2 e.interval ||| flag 10 e.ue ||| field 32 e.addr else e.value
  | none => open_

/-- Word `j` of a Till area (R101, R102): what its release's records hold; a word that they do not fill, and an empty area but for STATE and the reserved bits, reads as `open_` (log 48). -/
def tillWord (s : State) (t : TillId) (j : Nat) (open_ : Word) : Word :=
  let k := tillAt s t
  let none_ := k.area == .empty
  if 64 ≤ j then (if none_ then open_ else journalWord k.journal (j - 64) open_)
  else if 40 ≤ j || (5 ≤ j && j ≤ 8) then 0
  else if none_ then
    (if j = 0 then open_ &&& 0x0007_FFFF_0000_1C7F#64 else if j = 3 then open_ &&& 0xF_FFFF#64 else open_)
  else if j = 0 then
    field 0 k.rel.task.toNat ||| field 8 (areaCode k.area) ||| flag 10 k.unprot ||| flag 11 k.replayed ||| flag 12 k.rolled |||
      field 32 k.journal.length ||| field 42 k.ckpts.length
  else if j = 1 then field 0 k.rel.relnum
  else if j = 2 then k.rel.instant
  else if j = 3 then field 0 (entryOf s k.rel.task).entry
  else if j = 4 then (if k.area == .retained then k.outhash else open_)
  else k.regw[(Fin.ofNat 32 (j - 8))]

/-- Word `j` of a Daybook: the input area, then the two Till areas (R100). -/
def dayWord (s : State) (k : StallId) (j : Nat) : Word :=
  if j < 0x3000 then readWord s (dayBase k.val + 8 * j)
  else tillWord s { stall := k, till := Fin.ofNat 2 ((j - 0x3000) / 2048) } ((j - 0x3000) % 2048) (Config.freeWord (s.fresh + (j - 0x3000)))

/-- A Till area holds a damaged word in a range of the Daybook's words. -/
def dayDamaged (s : State) (k : StallId) (lo hi : Nat) : Bool :=
  (tillsOf k).any (fun t => (areaDamage (tillAt s t)).any (fun j =>
    decide (lo ≤ 0x3000 + 2048 * t.till.val + j) && decide (0x3000 + 2048 * t.till.val + j < hi)))

/-- What the DMA engine reads from a system range: memory as it stands, and a Daybook with its Till areas laid out (R24, R27, R100). -/
def sourceBytes (a n : Nat) (s : State) : Option (List Byte) × State :=
  match locate a with
  | some (.daybook k, _) =>
    let d : StallId := Fin.ofNat 16 k
    let off := a - dayBase k
    let hi := ceilDiv (off + n) 8
    let r := loadMem a n s
    if r.1.isNone || !dayDamaged s d (off / 8) hi then
      (r.1.map (fun _ =>
        (((List.range (hi - off / 8)).flatMap (fun i => bytesOfWord (dayWord s d (off / 8 + i)))).drop (off % 8)).take n),
       { r.2 with fresh := r.2.fresh + 4096 })
    else
      (none, forEach (tillsOf d) (fun t q => forEach ((areaDamage (tillAt s t)).filter (fun j =>
        decide (off / 8 ≤ 0x3000 + 2048 * t.till.val + j) && decide (0x3000 + 2048 * t.till.val + j < hi)))
        (fun j q => memUe (tillArea t + 8 * j) q) q) s)
  | _ => loadMem a n s

/-- A channel halts: cause and address latched, its command ends with BUS_ERROR, DMA_HALTED and the error vector (R357, R370). -/
def chanHalt (n cause : Nat) (dest sys : Bool) (a : Nat) (s : State) : State :=
  let c := chanAt s n
  let q := modChan n (fun x => { x with
    halted := true, cause := cause, side := dest, space := sys, addr := field 0 a, active := none, waiting := none }) s
  let q := match c.active with
    | some x => finish x.cmd 4 (field 0 x.done) 0 q
    | none => q
  errorVector (raise q 0x0601 2 (field 0 n) (field 0 cause) (field 0 a))

/-- The burst's bytes reach the destination: counted, and the command completes when all have (R369). -/
def burstDone (n : Nat) (c : DmaCmd) (k : Nat) (s : State) : State :=
  let c' := { c with done := c.done + k }
  let q := modChan n (fun x => { x with bytes := (x.bytes + k) % 2 ^ 64, active := some c', waiting := none }) s
  if c'.len ≤ c'.done then
    finish c.cmd 0 (field 0 c'.done) 0 (modChan n (fun x => { x with active := none }) q)
  else q

/-- Bytes written to on-chip memory on the active are forwarded to the standby (R388). -/
def forwardWrite (a : Nat) (bs : List Byte) (s : State) : State :=
  if mirrorOn s then
    forEach (pieces 4072 bs) (fun p q =>
      linkSend 8 0 (bytesOfWords [0xFFFF, field 0 (a + p.1), field 0 p.2.length] ++ p.2) q) s
  else s

/-- A burst with its data at hand is written to its destination (R28, R365, R367, R369). -/
def burstWrite (n : Nat) (bs : List Byte) (s : State) : State :=
  match (chanAt s n).active with
  | none => s
  | some c =>
    let a := c.dst + burstOff c
    if c.dstSys then
      if !sysRangeOk s a bs.length true then
        chanHalt n 5 true true a (accessError false 2 true a s)
      else burstDone n c bs.length (forwardWrite a bs (agentWrite a bs s))
    else burstDone n c bs.length (hostWrite a bs s)

/-- A burst begins: its source is read, and a burst that touches an image bank waits for its bank transaction (R24, R365, R370). -/
def burstStart (n : Nat) (data : List Byte) (s : State) : State :=
  match chanNext s n with
  | none => s
  | some c =>
    let k := burstLen c
    let q := modChan n (fun x => if x.active.isNone then { x with active := some c, queue := x.queue.drop 1 } else x) s
    let q := { takeBucket k q with dma := { (takeBucket k q).dma with turn := (n + 1) % 8 } }
    let src := c.src + burstOff c
    if (!c.srcSys && c.val.isNone || !c.dstSys) && !canReq s then
      chanHalt n 7 (c.srcSys || c.val.isSome) false (if !c.srcSys && c.val.isNone then src else c.dst + burstOff c) q
    else if c.srcSys && c.val.isNone && !sysRangeOk s src k false then chanHalt n 5 false true src (accessError false 2 false src q)
    else
      let r : Option (List Byte) × State := match c.val with
        | some v => (some v, q)
        | none => if c.srcSys then sourceBytes src k q else (some (fitBytes k data), q)
      match r.1 with
      | none => chanHalt n 6 false true src r.2
      | some bs =>
        let bank := match (if c.dstSys then imageOf (c.dst + burstOff c) else none) with
          | some m => some m
          | none => if c.srcSys && c.val.isNone then imageOf src else none
        match bank with
        | some m => bankAsk m (.dma n) k (modChan n (fun x => { x with waiting := some bs }) r.2)
        | none => burstWrite n bs r.2

/-- The bank transaction of a burst completes: a source in the bank is read now, and the burst is written (R35, R365). -/
def burstAtBank (n : Nat) (s : State) : State :=
  let ch := chanAt s n
  match ch.active, ch.waiting with
  | some c, some bs =>
    if c.srcSys && c.val.isNone && (imageOf (c.src + burstOff c)).isSome then
      let r := loadMem (c.src + burstOff c) bs.length s
      match r.1 with
      | some l => burstWrite n l r.2
      | none => chanHalt n 6 false true (c.src + burstOff c) r.2
    else burstWrite n bs s
  | _, _ => s

/-- The channels 0 to 6 finish their current burst and stop with their commands ABORTED: DMA.CTL.EN was written 0 (R371). -/
def dmaStop (s : State) : State :=
  forEach (List.range 7) (fun n q =>
    let q := burstAtBank n q
    let c := chanAt q n
    let q := match c.active with
      | some x => finish x.cmd 5 (field 0 x.done) 0 q
      | none => q
    let q := forEach c.queue (fun x q => finish x.cmd 5 0 0 q) q
    modChan n (fun x => { x with active := none, queue := [], waiting := none }) q) s

/-- A channel is halted, or has commands before the next one (R365, R370). -/
def chanTaken (s : State) (n : Nat) : Bool :=
  let c := chanAt s n
  c.halted || c.active.isSome || !c.queue.isEmpty

/-- Opcodes of the commands that read their data from the host over channel 0, all at W1 (R351, R364). -/
def takes0 (op : Nat) : Bool := [0x18, 0x19, 0x1C, 0x28].contains op

/-- Opcodes of the commands that read their data from the host over channel 6, all at W1 (R437, R467, R519; log 19). -/
def takes6 (op : Nat) : Bool := [0x60, 0x68, 0x70, 0x74, 0x75, 0x76].contains op

/-- The operand that names where a command gives its record to the host over channel 0 (R351, R364). -/
def gives0 (op : Nat) : Option Nat :=
  if op == 0x10 || op == 0x12 then some 2 else if op == 0x22 || op == 0x31 then some 1 else none

/-- The operand that names where a command gives its record to the host over channel 6 (R405, R437, R467, R519; log 19). -/
def gives6 (op : Nat) : Option Nat :=
  if op == 0x48 || op == 0x51 || op == 0x74 then some 2 else if op == 0x61 || op == 0x77 || op == 0x93 then some 1 else none

/-- The operand with the host address that a command other than DMA_COPY and DMA_WRITE uses over a channel, to write there or to read (R351, R364). -/
def dataOperand (chan op : Nat) (dest : Bool) : Option Nat :=
  if chan = 0 then (if dest then gives0 op else if takes0 op then some 1 else none)
  else if chan = 6 then (if dest then gives6 op else if takes6 op then some 1 else none)
  else none

/-- A command other than DMA_COPY and DMA_WRITE moves data over a channel (R364). -/
def usesChan (chan op : Nat) : Bool := (dataOperand chan op true).isSome || (dataOperand chan op false).isSome

/-- Commands on a channel. -/
def chanLoad (s : State) (n : Nat) : Nat := (chanAt s n).queue.length + (chanAt s n).active.toList.length

/-- The channel a command with CHAN = 15 gets: the fewest queued commands, then the lowest number (R364). -/
def freestChan (s : State) : Nat := (minBy (chanLoad s) (List.range 6)).getD 0

/-- Commands that move host data on the DMA channels end with ABORTED while the engine is off (R364, R371). -/
def dmaOff (s : State) : Bool := !s.dma.en

end Sys2Proof.Machine
end

