-- ==== Sys2Proof/Machine/Flags.lean ====
section
/-!
DEFINITION. Comparisons of Tally. Tally has no condition flags (R119): a comparison writes 0 or 1 into a register or decides a branch, and that is all this file computes.
-/
namespace Sys2Proof.Machine

/-- The integer 1 or 0 that a comparison writes (R126, R128, R131). -/
def truth (b : Bool) : Word := if b then 1 else 0

/-- The condition of BCR and BCI (R132). -/
def condHolds (c : BitVec 3) (a b : Word) : Bool :=
  match c.toNat with
  | 0 => a == b
  | 1 => a != b
  | 2 => BitVec.slt a b
  | 3 => !BitVec.slt a b
  | 4 => BitVec.ult a b
  | 5 => !BitVec.ult a b
  | 6 => BitVec.slt b a
  | _ => !BitVec.slt b a

/-- imm5 of BCI: sign-extended, but zero-extended for LTU and GEU (R132). -/
def bciImm (c : BitVec 3) (i : BitVec 5) : Word :=
  if c = 4 ∨ c = 5 then i.setWidth 64 else i.signExtend 64

end Sys2Proof.Machine
end

