-- ==== Sys2Proof/Machine/Operands.lean ====
section
/-!
DEFINITION. The operands of Tally: word registers, immediates, effective addresses and their checks (R29, R30, R51, R119, R123, R136 to R140), and the loads and stores of a Till with all they record (R87 to R90, R102, R103, R107, R114).
-/
namespace Sys2Proof.Machine

/-- A word register; w0 reads as 0 (R119). -/
def getReg (k : Till) (r : RegNo) : Word := if r = 0 then 0 else k.regs[r.toNat]'(r.isLt)

/-- A register file with one register written; a write to w0 is discarded (R119). -/
def putReg (v : Vector Word 32) (r : RegNo) (x : Word) : Vector Word 32 :=
  if r = 0 then v else v.set r.toNat x r.isLt

/-- A word register of a Till. -/
def reg (s : State) (t : TillId) (r : RegNo) : Word := getReg (tillAt s t) r

/-- A word register of a Till written (R119). -/
def setReg (t : TillId) (r : RegNo) (x : Word) (s : State) : State :=
  modTill t (fun k => { k with regs := putReg k.regs r x }) s

/-- A 12-bit immediate, sign-extended (R123). -/
def sext12 (i : BitVec 12) : Word := i.signExtend 64

/-- disp12 of format B: sign-extended, times 4 (R123). -/
def disp12 (i : BitVec 12) : Word := i.signExtend 64 * 4

/-- imm20 of format J: sign-extended, times `k` (R123). -/
def sext20 (i : BitVec 20) (k : Nat) : Word := i.signExtend 64 * BitVec.ofNat 64 k

/-- PC as a 64-bit base (R120). -/
def pcWord (s : State) (t : TillId) : Word := (tillAt s t).pc.setWidth 64

/-- Where an effective address of a Stall lies (R29, R51, R76): an offset in local data, in Market memory (in the task's instance area or not), in the input half, the event record, the output half, or the time window. -/
inductive Place where
  | localData (off : Nat)
  | market (off : Nat) (inst : Bool)
  | input (off : Nat)
  | record (off : Nat)
  | output (off : Nat)
  | time (off : Nat)
  | nowhere
deriving DecidableEq, Repr

/-- The place of an access of `n` bytes for a task, sections included (R29, R51, R76). -/
def placeOf (e : TaskEntry) (a n : Nat) : Place :=
  if 0x0010_0000 ≤ a ∧ a + n ≤ 0x0014_0000 then .localData (a - 0x0010_0000)
  else if 0x0100_0000 ≤ a ∧ a + n ≤ 0x0140_0000 then
    let off := a - 0x0100_0000
    .market off (decide (e.instOff ≤ off) && decide (off + n ≤ e.instOff + e.instLen))
  else if 0x0200_0000 ≤ a ∧ a + n ≤ 0x0204_0000 then
    let off := a - 0x0200_0000
    if e.event then (if off + n ≤ 64 then .record off else .nowhere)
    else if e.inOff ≤ off ∧ off + n ≤ e.inOff + e.inLen then .input off else .nowhere
  else if 0x0204_0000 ≤ a ∧ a + n ≤ 0x0208_0000 then
    let off := a - 0x0204_0000
    if e.outOff ≤ off ∧ off + n ≤ e.outOff + e.outLen then .output off else .nowhere
  else if 0x0300_0000 ≤ a ∧ a + n ≤ 0x0300_0040 then .time (a - 0x0300_0000)
  else .nowhere

/-- A place that a load may read (R29, R138). -/
def Place.loadable : Place → Bool
  | .nowhere => false
  | _ => true

/-- A place that a store may write (R29, R30). -/
def Place.storable : Place → Bool
  | .localData _ => true
  | .market _ _ => true
  | .output _ => true
  | _ => false

/-- A place in Market memory (R145, R148). -/
def Place.isMarket : Place → Bool
  | .market _ _ => true
  | _ => false

/-- The ALIGN or ACCESS trap of a data access, in the order of R163, when it meets one. -/
def dataTrap (e : TaskEntry) (a : Word) (n : Nat) (allowed : Place → Bool) : Option (Nat × Word) :=
  if a.toNat % n ≠ 0 then some (3, a)
  else if allowed (placeOf e a.toNat n) then none
  else some (2, a)

/-- The result of an access: done with a value, a trap, a stop of speculation (R89), a transient fault (R106), a diverged replay (R110), or a wait behind a fence (R38). -/
inductive Acc where
  | done (v : Word) (s : State)
  | trap (cause : Nat) (addr : Word) (s : State)
  | stop (cause : Nat)
  | upset (kind : FaultKind) (addr : Nat)
  | diverged
  | wait

/-- An access followed by another use of its value. -/
def Acc.bind (x : Acc) (f : Word → State → Acc) : Acc :=
  match x with
  | .done v s => f v s
  | .trap c a s => .trap c a s
  | .stop c => .stop c
  | .upset k a => .upset k a
  | .diverged => .diverged
  | .wait => .wait

/-- The Till is replaying, as a recovery or a verification (R107, R114). -/
def replayOf (s : State) (t : TillId) : Option Replay := (tillAt s t).replay

/-- The Till runs a verification replay (R114). -/
def verifying (s : State) (t : TillId) : Bool :=
  match replayOf s t with
  | some r => r.verify
  | none => false

/-- A Till's release is speculative (R84). -/
def isSpec (s : State) (t : TillId) : Bool := (tillAt s t).area == .speculative

/-- A fence of the Stall holds accesses of a class (R38). -/
def fenceHolds (s : State) (t : TillId) (cls : Nat) : Bool :=
  match s.stalls[t.stall].fence with
  | some f => f.mask.getLsbD cls
  | none => false

/-- The `n`-byte value at offset `off` of a byte string, zero-extended. -/
def valueAt (l : List Byte) : Word := BitVec.ofNat 64 (natOfBytes l)

/-- A value of `n` bytes extended to a word, with sign or zero (R138). -/
def extend (n : Nat) (sign : Bool) (v : Word) : Word :=
  if sign then wordOfInt (signedOf (8 * n) v.toNat) else v

/-! ### Journal entries (R102, R103) -/

/-- The journal is full (R103). -/
def journalFull (k : Till) : Bool := decide (992 ≤ k.journal.length)

/-- A journal entry appended; a non-speculative release continues unjournalled when the journal is full (R103). -/
def appendJ (t : TillId) (e : JEntry) (s : State) : State :=
  if journalFull (tillAt s t) then modTill t (fun k => { k with unprot := true }) s
  else modTill t (fun k => { k with journal := k.journal ++ [e] }) s

/-- The `n`-th entry of a kind in a journal. -/
def nthOf (kind : JKind) (n : Nat) (l : List JEntry) : Option JEntry := (l.filter (fun e => e.kind == kind))[n]?

/-- A replay has used up the entries of a kind: a divergence, but a standby whose release has not yet been hashed by the active waits for more JOURNAL messages (R110, R386, R387). -/
def usedUp (t : TillId) (s : State) : Acc :=
  let r := (tillAt s t).rel
  if following s && !s.red.peerHashes.any (fun x => x.1 == r.task && x.2.1 == r.relnum) then .wait else .diverged

/-- In a replay, the next journalled value of a global read at a word; the read diverges when it does not match (R107, R110). -/
def replayGlobal (t : TillId) (r : Replay) (ea : Nat) (s : State) : Acc :=
  let l := (tillAt s t).journal.take r.base
  match nthOf .globalRead r.nextGlobal l with
  | some e =>
    if e.addr = ea then
      .done e.value (modTill t (fun k => { k with replay := some { r with nextGlobal := r.nextGlobal + 1 } }) s)
    else .diverged
  | none => usedUp t s

/-- In a replay, the next journalled effect of the instruction at PC (R107, R110). -/
def replayEffect (t : TillId) (r : Replay) (s : State) : Acc :=
  let k := tillAt s t
  match nthOf .effect r.nextEffect (k.journal.take r.base) with
  | some e =>
    if e.addr = k.pc.toNat then
      .done e.value (modTill t (fun k => { k with replay := some { r with nextEffect := r.nextEffect + 1 } }) s)
    else .diverged
  | none => usedUp t s

/-- The effect entry of a non-speculative operation (R102). -/
def journalEffect (t : TillId) (v : Word) (s : State) : State :=
  let k := tillAt s t
  appendJ t { kind := .effect, interval := intervalOf k, ue := false, addr := k.pc.toNat, value := v } s

/-! ### Reads (R52, R53, R87, R88, R114, R138) -/

/-- Bytes of cells over a default, byte by byte. -/
def overlay (l : List Host.Cell) (base : Nat → Byte) (a n : Nat) : List Byte :=
  (List.range n).map (fun i => match l.find? (fun c => c.1 == a + i) with
    | some c => c.2
    | none => base (a + i))

/-- A word is in a list of cells. -/
def inCells (l : List Host.Cell) (a : Nat) : Bool := l.any (fun c => c.1 == a)

/-- A word of the output section as the release sees it: written words from the Till, others from the bank (R53). `off` is a byte offset in the output half, `n` bytes inside one word. -/
def readOutput (t : TillId) (off n : Nat) (ea : Word) (s : State) : Acc :=
  let k := tillAt s t
  let b := outBase (marketOf t.stall).val
  if inCells k.held (8 * (off / 8)) then
    .done (valueAt (overlay k.held (fun _ => 0) off n)) s
  else match ueIn s (b + off) n with
    | some w => .trap 5 ea (memUe w s)
    | none => .done (valueAt (readBytes s (b + off) n)) s

/-- A read of local data (R87, R105, R106); a verification replay reads its held stores first (R114). -/
def readLocal (t : TillId) (off n : Nat) (ea : Nat) (s : State) : Acc :=
  let a := localBase t.stall.val + off
  match ueIn s a n with
  | some w => .upset .localData w
  | none =>
    match replayOf s t with
    | some r =>
      if r.verify then .done (valueAt (overlay r.stores (fun i => readByte s (localBase t.stall.val + (i - 0x0010_0000))) ea n)) s
      else .done (valueAt (readBytes s a n)) s
    | none => .done (valueAt (readBytes s a n)) s

/-- The word of an instance area that a verification replay reads: its own store, or the earliest undo entry, or memory (R102, R114). -/
def verifyInst (t : TillId) (r : Replay) (ea n : Nat) (s : State) : Acc :=
  let w := 8 * (ea / 8)
  match (tillAt s t).journal.find? (fun e => e.kind == .undo && e.addr == w) with
  | some e =>
    if e.ue && !inCells r.stores ea then .trap 5 (field 0 ea) s
    else
      let bytes := bytesOfWord e.value
      .done (valueAt (overlay r.stores (fun i => bytes.getD (i - w) 0) ea n)) s
  | none =>
    let a := marketSys t ea
    match ueIn s a n with
    | some x => .trap 5 (field 0 ea) (memUe x s)
    | none => .done (valueAt (overlay r.stores (fun i => readByte s (marketSys t i)) ea n)) s

/-- A read of the instance area (R87). -/
def readInst (t : TillId) (ea n : Nat) (s : State) : Acc :=
  match replayOf s t with
  | some r => if r.verify then verifyInst t r ea n s else
      (match ueIn s (marketSys t ea) n with
      | some x => .trap 5 (field 0 ea) (memUe x s)
      | none => .done (valueAt (readBytes s (marketSys t ea) n)) s)
  | none =>
    match ueIn s (marketSys t ea) n with
    | some x => .trap 5 (field 0 ea) (memUe x s)
    | none => .done (valueAt (readBytes s (marketSys t ea) n)) s

/-- A read of a global word: watched in speculation, journalled always, replayed from the journal (R87, R88, R102, R107). `ext` makes the journalled value from the bytes read. -/
def readGlobal (t : TillId) (ea n : Nat) (ext : Word → Word) (s : State) : Acc :=
  let w := 8 * (ea / 8)
  match replayOf s t with
  | some r => replayGlobal t r w s
  | none =>
    let k := tillAt s t
    let woff := w - 0x0100_0000
    let known := k.watch.any (fun x => x.off == woff)
    if isSpec s t && !known && 512 ≤ k.watch.length then .stop 7
    else if isSpec s t && journalFull k then .stop 8
    else match ueIn s (marketSys t ea) n with
      | some x => .trap 5 (field 0 ea) (memUe x s)
      | none =>
        let v := ext (valueAt (readBytes s (marketSys t ea) n))
        let q := if isSpec s t && !known then
            modTill t (fun k => { k with watch := k.watch ++ [{ off := woff, interval := intervalOf k, changed := false }] }) s
          else s
        .done v (appendJ t { kind := .globalRead, interval := intervalOf k, ue := false, addr := w, value := v } q)

/-- A read of the input section: in speculation from the bank with an image entry, otherwise from the Daybook (R52, R87). -/
def readInput (t : TillId) (off n : Nat) (ea : Word) (s : State) : Acc :=
  let k := tillAt s t
  let e := tillEntry s t
  if isSpec s t then
    let w := 8 * (off / 8)
    let m := (marketOf t.stall).val
    let a := if k.latched then dayBase t.stall.val + (w - e.inOff) else imageBase m + w
    let v := if k.latched then readWord s a else inputWord s m w
    let known := k.image.any (fun x => x.off == w)
    if !known && 2048 ≤ k.image.length then .stop 6
    else match ueIn s a 8 with
      | some x => .trap 5 ea (memUe x s)
      | none =>
        let q := if known then s else
          modTill t (fun k => { k with image := k.image ++ [{ off := w, value := v, interval := intervalOf k }] }) s
        .done (valueAt ((bytesOfWord v).drop (off % 8) |>.take n)) q
  else
    let a := dayBase t.stall.val + (off - e.inOff)
    match ueIn s a n with
    | some x => .trap 5 ea (memUe x s)
    | none => .done (valueAt (readBytes s a n)) s

/-- A read of the event record from the Daybook input area (R76). -/
def readRecord (t : TillId) (off n : Nat) (ea : Word) (s : State) : Acc :=
  let a := dayBase t.stall.val + off
  match ueIn s a n with
  | some x => .trap 5 ea (memUe x s)
  | none => .done (valueAt (readBytes s a n)) s

/-- The word of the time window that an offset lies in, with the Till's sample (R264). -/
def timeWord (s : State) (sample : Word) (off : Nat) : Word :=
  match off / 8 with
  | 0 => localT s
  | 1 => field 0 ((sample.toNat / 10 ^ 9) % 2 ^ 48)
  | 2 => field 0 (sample.toNat % 10 ^ 9)
  | 3 => tsyStatWord s.clock &&& 0xFF
  | _ => 0

/-- A load from the time window: non-speculative, journalled, and a new sample at offset 0 (R89, R102, R264). -/
def readTime (t : TillId) (off n : Nat) (ext : Word → Word) (s : State) : Acc :=
  if isSpec s t then .stop 5
  else match replayOf s t with
    | some r => replayEffect t r s
    | none =>
      let q := if off = 0 then modTill t (fun k => { k with sample := localT s }) s else s
      let w := timeWord q (tillAt q t).sample off
      let v := ext (valueAt ((bytesOfWord w).drop (off % 8) |>.take n))
      .done v (journalEffect t v q)

/-- A load of `n` bytes at an effective address that its place permits; `ext` makes the loaded word (R138, R140). -/
def loadAt (t : TillId) (ea : Word) (n : Nat) (ext : Word → Word) (s : State) : Acc :=
  let a := ea.toNat
  let lift (x : Acc) : Acc := x.bind (fun v q => .done (ext v) q)
  match placeOf (tillEntry s t) a n with
  | .localData off => lift (readLocal t off n a s)
  | .market _ inst =>
    if fenceHolds s t 1 then .wait
    else if inst then lift (readInst t a n s) else readGlobal t a n ext s
  | .input off => if fenceHolds s t 0 then .wait else lift (readInput t off n ea s)
  | .record off => lift (readRecord t off n ea s)
  | .output off => if fenceHolds s t 0 then .wait else lift (readOutput t off n ea s)
  | .time off => readTime t off n ext s
  | .nowhere => .trap 2 ea s

/-! ### Writes (R53, R57, R87, R89, R102, R114, R138) -/

/-- Cells with a byte string laid over them, in rising order. -/
def holdBytes (l : List Host.Cell) (a : Nat) (bs : List Byte) : List Host.Cell :=
  l.filter (fun c => c.1 < a) ++ (enumFrom a bs) ++ l.filter (fun c => a + bs.length ≤ c.1)

/-- A store to the output section, held in the Till word by word (R53, R54). -/
def storeOutput (t : TillId) (off n : Nat) (ea v : Word) (s : State) : Acc :=
  let w := 8 * (off / 8)
  let put (old : Word) (q : State) : Acc :=
    let bytes := (bytesOfWord old).take (off % 8) ++ bytesOfNat n v.toNat ++ (bytesOfWord old).drop (off % 8 + n)
    .done 0 (modTill t (fun k => { k with held := holdBytes k.held w bytes }) q)
  if n = 8 then put 0 s else (readOutput t w 8 ea s).bind put

/-- A store to local data (R87, R106, R114). -/
def storeLocal (t : TillId) (off n : Nat) (ea : Nat) (v : Word) (s : State) : Acc :=
  let a := localBase t.stall.val + off
  if verifying s t then
    .done 0 (modTill t (fun k => { k with replay := match k.replay with
      | some r => some { r with stores := holdBytes r.stores ea (bytesOfNat n v.toNat) }
      | none => none }) s)
  else match ueIn s a n with
    | some w => if n = 8 then .done 0 (writeWord s a v) else .upset .localData w
    | none => .done 0 (storeMem a (bytesOfNat n v.toNat) s)

/-- A store held by a verification replay (R114). -/
def holdStore (t : TillId) (ea n : Nat) (v : Word) (s : State) : State :=
  modTill t (fun k => { k with replay := match k.replay with
    | some r => some { r with stores := holdBytes r.stores ea (bytesOfNat n v.toNat) }
    | none => none }) s

/-- An undo entry for the first store to a word in the present interval already stands; in a replay only entries made by the replay count (R87, R107). -/
def undoKnown (k : Till) (w : Nat) : Bool :=
  let from_ := match k.replay with
    | some r => r.base
    | none => 0
  (k.journal.drop from_).any (fun e => e.kind == .undo && e.addr == w && e.interval == intervalOf k)

/-- The Till's own store ends its reservation on the word (R149). -/
def loseResv (t : TillId) (ea : Nat) (s : State) : State :=
  modTill t (fun k => { k with resv := match k.resv with
    | some r => if r = 8 * (ea / 8) then none else some r
    | none => none }) s

/-- A store to the task's own instance area: performed at once, with an undo entry (R57, R87, R102). -/
def storeInst (t : TillId) (ea n : Nat) (v : Word) (s : State) : Acc :=
  if verifying s t then .done 0 (holdStore t ea n v s)
  else
    let w := 8 * (ea / 8)
    let sys := marketSys t w
    let bad := s.ue.contains sys
    let k := tillAt s t
    let known := undoKnown k w
    if bad && n != 8 then .trap 5 (field 0 ea) (memUe sys s)
    else if isSpec s t && !known && journalFull k then .stop 8
    else
      let e : JEntry := { kind := .undo, interval := intervalOf k, ue := bad, addr := w,
                          value := if bad then 0 else readWord s sys }
      let q := if known then s else appendJ t e s
      .done 0 (loseResv t ea (marketWrite (some t) (marketSys t ea) (bytesOfNat n v.toNat) q))

/-- A store to a global word: non-speculative, performed again in a recovery replay (R89, R107). -/
def storeGlobal (t : TillId) (ea n : Nat) (v : Word) (s : State) : Acc :=
  if isSpec s t then .stop 4
  else if verifying s t then .done 0 (holdStore t ea n v s)
  else
    let sys := marketSys t (8 * (ea / 8))
    if s.ue.contains sys && n != 8 then .trap 5 (field 0 ea) (memUe sys s)
    else .done 0 (loseResv t ea (marketWrite (some t) (marketSys t ea) (bytesOfNat n v.toNat) s))

/-- A store of the low `n` bytes of a word at an effective address that its place permits (R138). -/
def storeAt (t : TillId) (ea : Word) (n : Nat) (v : Word) (s : State) : Acc :=
  let a := ea.toNat
  let x : Word := BitVec.ofNat 64 (v.toNat % 2 ^ (8 * n))
  match placeOf (tillEntry s t) a n with
  | .localData off => storeLocal t off n a x s
  | .market _ inst =>
    if fenceHolds s t 1 then .wait
    else if inst then storeInst t a n x s else storeGlobal t a n x s
  | .output off => if fenceHolds s t 0 then .wait else storeOutput t off n ea x s
  | _ => .trap 2 ea s

end Sys2Proof.Machine
end

