-- ==== Sys2Proof/Machine/Issue.lean ====
section
/-!
DEFINITION. How a Till issues one Tally instruction: when it may run, the order of its traps, the step of PC, the end of the task body, and the request of a commit (R54, R68, R77, R135, R136, R163 to R167).
-/
namespace Sys2Proof.Machine

/-- A Till may execute an instruction (R20, R46, R52, R68, R84, R85, R89, R114). -/
def runnable (s : State) (t : TillId) : Bool :=
  let k := tillAt s t
  let st := s.stalls[t.stall]
  st.awake && !stallHeld s t.stall &&
    (match k.area with
    | .live => k.latched && !k.committing && !k.waiting && (k.frozen.isNone || k.stepping) && st.running == some t.till
    | .speculative => k.stallCause == 0 && !k.waiting && !k.paused && (k.frozen.isNone || k.stepping)
    | .retained => verifying s t && !k.waiting
    | .empty => false)

/-- The breakpoint at the Till's PC for its task, if one is in force (R68, R166). -/
def breakHere (s : State) (t : TillId) : Option Breakpoint :=
  let k := tillAt s t
  if k.passBreak || k.area == .retained then none
  else (s.stalls[t.stall].bps.toList.filterMap id).find? (fun b => b.task == k.rel.task && b.addr == k.pc)

/-- A trap at the Till's PC: deferred in speculation, ending a verification replay, otherwise a task fault; `q` is the state with what the trap reports (R95, R164, R167). -/
def takeTrap (t : TillId) (cause : Nat) (addr : Word) (word : BitVec 32) (s q : State) : State :=
  match (tillAt s t).area with
  | .speculative =>
    modTill t (fun k => { k with stallCause := 9, trap := some { cause := cause, pc := k.pc, word := word, addr := addr } }) s
  | .retained => failVerify t cause s
  | _ => taskFault t cause word addr q

/-- The instruction retires: PC moves, and a step freezes again (R70, R166). -/
def retire (t : TillId) (next : Word) (s : State) : State :=
  modTill t (fun k => { k with pc := next.setWidth 20, passBreak := false, stepping := false }) s

/-- A commit of the same task is still posted in the Stall's other Till (R77). -/
def earlierPosted (s : State) (t : TillId) : Bool :=
  (tillsOf t.stall).any (fun u => u != t && isLive (tillAt s u) && (tillAt s u).committing &&
    (tillAt s u).rel.task == (tillAt s t).rel.task)

/-- The first word of the output section as the release leaves it, forces applied (R53, R77, R191). -/
def directWord (s : State) (t : TillId) : Word :=
  let k := tillAt s t
  let off := (tillEntry s t).outOff
  let m := (marketOf t.stall).val
  forceWord s m true off (valueAt (overlay k.held (fun a => readByte s (outBase m + a)) off 8))

/-- The release requests its commit transaction; an event release hands its direct output word over first, and waits for a posted commit of its task (R54, R77). -/
def requestCommit (t : TillId) (s : State) : State :=
  let k := tillAt s t
  let e := tillEntry s t
  if earlierPosted s t then modTill t (fun k => { k with waiting := true }) s
  else
    let q := if e.event then { s with directs := s.directs ++ [(k.rel.task, directWord s t)] } else s
    bankAsk (marketOf t.stall) (.commit t) e.outLen
      (modTill t (fun k => { k with committing := true, waiting := false, resv := none }) q)

/-- The end of the task body: commit, or wait as speculative, or the end of a verification replay (R114, R135). -/
def bodyEnd (t : TillId) (s : State) : State :=
  let q := modTill t (fun k => { k with passBreak := false, stepping := false }) s
  match (tillAt s t).area with
  | .live => requestCommit t q
  | _ => modTill t (fun k => { k with waiting := true, spent := k.spent + (s.mono - k.runSince), runSince := s.mono }) q

/-- The damaged program-store word that the fetch at PC meets (R106, R165). -/
def fetchFault (s : State) (t : TillId) : Option Nat :=
  ueIn s (progBase t.stall.val + (tillAt s t).pc.toNat) 4

/-- One instruction of a Till. `legal`: no reserved field or function; `own`: its ALIGN or ACCESS trap; `falls`: its next PC is PC + 4; `mayEnd`: it may end the body; `body` answers the next PC (R135, R136, R163 to R167). -/
def runInstr (t : TillId) (word : BitVec 32) (legal : Bool) (own : State → Option (Nat × Word)) (falls mayEnd : Bool)
    (body : State → Acc) (s : State) : State :=
  if !runnable s t || (breakHere s t).isSome then s
  else match fetchFault s t with
  | some a => detectTransient t .programStore a word s
  | none =>
    if !legal then takeTrap t 1 0 word s s
    else match own s with
    | some x => takeTrap t x.1 x.2 word s s
    | none =>
      let last := falls && (tillAt s t).pc == 0xFFFFC
      match body s with
      | .upset k a => detectTransient t k a word s
      | .done next q =>
        if last then takeTrap t 2 (field 0 endAddress) word s s
        else if mayEnd && next == field 0 endAddress then bodyEnd t q
        else if next.toNat % 4 ≠ 0 then takeTrap t 3 next word s s
        else if endAddress ≤ next.toNat then takeTrap t 2 next word s s
        else retire t next q
      | .trap c a q => if last then takeTrap t 2 (field 0 endAddress) word s s else takeTrap t c a word s q
      | .stop c =>
        if last then takeTrap t 2 (field 0 endAddress) word s s
        else modTill t (fun k => { k with stallCause := c, spent := k.spent + (s.mono - k.runSince), runSince := s.mono }) s
      | .diverged => if last then takeTrap t 2 (field 0 endAddress) word s s else replayDiverged t word s
      | .wait => s

/-- No data address to check. -/
def noTrap : State → Option (Nat × Word) := fun _ => none

/-- The next PC of an instruction that falls through (R120). -/
def pcNext (s : State) (t : TillId) : Word := pcWord s t + 4

/-- A result written into rd, and the next PC. -/
def writeRd (t : TillId) (rd : RegNo) (v : Word) (s : State) : Acc := .done (pcNext s t) (setReg t rd v s)

/-- An instruction that computes rd from rs1 and rs2; `unary` makes a non-zero rs2 field reserved (R126, R130, R162). -/
def runW (t : TillId) (op fn : Nat) (unary : Bool) (rd rs1 rs2 : RegNo) (f : Word → Word → Word) (s : State) : State :=
  runInstr t (encW op fn rd rs1 rs2) (!unary || rs2 == 0) noTrap true false
    (fun q => writeRd t rd (f (reg q t rs1) (reg q t rs2)) q) s

/-- An instruction that computes rd from rs1 and a constant (R128). -/
def runK (t : TillId) (fn : Nat) (rd rs1 : RegNo) (imm : BitVec 12) (f : Word → Word → Word) (s : State) : State :=
  runInstr t (encI 0x09 fn rd rs1 imm) true noTrap true false
    (fun q => writeRd t rd (f (reg q t rs1) (sext12 imm)) q) s

/-- A shift or bit instruction with a constant amount (R128). -/
def runShk (t : TillId) (sub : Nat) (rd rs1 : RegNo) (amt : BitVec 6) (f : Word → Word → Word) (s : State) : State :=
  runInstr t (encI 0x09 6 rd rs1 (shkImm sub amt)) true noTrap true false
    (fun q => writeRd t rd (f (reg q t rs1) (amt.setWidth 64)) q) s

/-- A division: DIVZERO on a zero divisor (R127). -/
def runDiv (t : TillId) (fn : Nat) (rd rs1 rs2 : RegNo) (f : Word → Word → Word) (s : State) : State :=
  runInstr t (encW 0x05 fn rd rs1 rs2) true noTrap true false
    (fun q => if reg q t rs2 = 0 then .trap 4 0 q else writeRd t rd (f (reg q t rs1) (reg q t rs2)) q) s

/-- A load (R138, R139). -/
def runLoad (t : TillId) (fn n : Nat) (sign : Bool) (rd rs1 : RegNo) (imm : BitVec 12) (s : State) : State :=
  runInstr t (encI 0x11 fn rd rs1 imm) true
    (fun q => dataTrap (tillEntry q t) (reg q t rs1 + sext12 imm) n Place.loadable) true false
    (fun q => (loadAt t (reg q t rs1 + sext12 imm) n (extend n sign) q).bind (fun v q => writeRd t rd v q)) s

/-- A store (R138, R139). -/
def runStore (t : TillId) (fn n : Nat) (rs1 rs2 : RegNo) (imm : BitVec 12) (s : State) : State :=
  runInstr t (encS fn rs1 rs2 imm) true
    (fun q => dataTrap (tillEntry q t) (reg q t rs1 + sext12 imm) n Place.storable) true false
    (fun q => (storeAt t (reg q t rs1 + sext12 imm) n (reg q t rs2) q).bind (fun _ q => .done (pcNext q t) q)) s

/-- An image place, for Lane reads (R143). -/
def Place.isImage : Place → Bool
  | .input _ => true
  | .record _ => true
  | .output _ => true
  | _ => false

/-- The output section, for Lane writes (R143). -/
def Place.isOutput : Place → Bool
  | .output _ => true
  | _ => false

/-- The mask of a Lane operation: all ones for rm = 0 (R142). -/
def laneMask (q : State) (t : TillId) (rm : RegNo) : Word := if rm = 0 then BitVec.allOnes 64 else reg q t rm

/-- The address of a Lane operation (R142). -/
def laneAddr (q : State) (t : TillId) (rs1 : RegNo) (off : BitVec 6) : Word := reg q t rs1 + off.setWidth 64 * 8

/-- A Lane read: `f` takes rd, the image word and the mask (R142, R143). -/
def runLaneRead (t : TillId) (fn : Nat) (rd rs1 rm : RegNo) (off : BitVec 6) (f : Word → Word → Word → Word) (s : State) :
    State :=
  runInstr t (encM fn rd rs1 rm off) true (fun q => dataTrap (tillEntry q t) (laneAddr q t rs1 off) 8 Place.isImage)
    true false
    (fun q => (loadAt t (laneAddr q t rs1 off) 8 id q).bind
      (fun v q' => writeRd t rd (f (reg q t rd) v (laneMask q t rm)) q')) s

/-- A Lane write: `f` takes rd, the image word and the mask (R142, R143). -/
def runLaneWrite (t : TillId) (fn : Nat) (rd rs1 rm : RegNo) (off : BitVec 6) (f : Word → Word → Word → Word) (s : State) :
    State :=
  runInstr t (encM fn rd rs1 rm off) true (fun q => dataTrap (tillEntry q t) (laneAddr q t rs1 off) 8 Place.isOutput)
    true false
    (fun q => (loadAt t (laneAddr q t rs1 off) 8 id q).bind (fun v q' =>
      (storeAt t (laneAddr q t rs1 off) 8 (f (reg q t rd) v (laneMask q t rm)) q').bind
        (fun _ q'' => .done (pcNext q t) q''))) s

/-- The operation of EDGE on the current and the previous bit (R144). -/
def edgeBit (fn : Nat) (c p : Bool) : Bool :=
  match fn with
  | 0 => c && !p
  | 1 => p && !c
  | _ => c != p

/-- An EDGE instruction: an LD.D and an ST.D of the word M (R144, R145). -/
def runEdge (t : TillId) (fn : Nat) (rd rs1 : RegNo) (imm : BitVec 12) (s : State) : State :=
  let addr (q : State) : Word := reg q t rs1 + (imm.extractLsb' 6 6).setWidth 64 * 8
  let b := (imm.extractLsb' 0 6).toNat
  runInstr t (encI 0x29 fn rd rs1 imm) true (fun q => dataTrap (tillEntry q t) (addr q) 8 Place.isMarket) true false
    (fun q => (loadAt t (addr q) 8 id q).bind (fun m q' =>
      let c := bit (reg q t rd) 0
      (storeAt t (addr q) 8 (putBits m b b c.toNat) q').bind
        (fun _ q'' => writeRd t rd (truth (edgeBit fn c (bit m b))) q''))) s

/-- An image bit branch (R141). -/
def runBit (t : TillId) (fn : Nat) (rs1 : RegNo) (b : BitVec 6) (disp : BitVec 12) (s : State) : State :=
  let allowed (p : Place) : Bool := p.loadable && (match p with
    | .time _ => false
    | _ => true)
  runInstr t (encBit fn rs1 b disp) true (fun q => dataTrap (tillEntry q t) (reg q t rs1) 8 allowed) false false
    (fun q => (loadAt t (reg q t rs1) 8 id q).bind (fun v q' =>
      .done (if bit v b.toNat == (fn == 0) then pcWord q t + disp12 disp else pcNext q t) q')) s

/-- A compare-and-branch (R132, R133). -/
def runBranch (t : TillId) (word : BitVec 32) (cond : BitVec 3) (a b : State → Word) (disp : BitVec 12) (s : State) : State :=
  let taken (q : State) : Bool := condHolds cond (a q) (b q)
  runInstr t word true noTrap (!taken s) false
    (fun q => .done (if taken q then pcWord q t + disp12 disp else pcNext q t) q) s

/-- A checkpoint of a speculative CALL, with the PC of the called block (R92). -/
def callCheckpoint (t : TillId) (target : Word) (s : State) : State :=
  if isSpec s t && (tillAt s t).ckpts.length < 256 then
    modTill t (fun k => { k with ckpts := k.ckpts ++
      [{ regs := k.regs, pc := target.setWidth 20, held := k.held, spent := k.spent + (s.mono - k.runSince) }] }) s
  else s

/-- CALL and CALLR: w28 := w29, w29 := the register of the rd field, w30 := PC + 4 (R134). -/
def runCall (t : TillId) (word : BitVec 32) (rd : RegNo) (target : State → Word) (s : State) : State :=
  runInstr t word true noTrap false false
    (fun q =>
      let inst := reg q t rd
      let q' := setReg t 30 (pcNext q t) (setReg t 29 inst (setReg t 28 (reg q t 29) q))
      .done (target q) (callCheckpoint t (target q) q')) s

end Sys2Proof.Machine
end

