-- ==== Sys2Proof/Machine/Tasks.lean ====
section
/-!
DEFINITION. Releases: their signals, dispatch, run-ahead and its comparison, overruns, event triggers and direct output words (R44 to R61, R69 to R77, R83 to R96, R320, R386).
-/
namespace Sys2Proof.Machine

/-! ### Dispatch (R46, R47, R76, R85, R86, R121) -/

/-- Order of pending releases: PRIO, then release instant, then TASK_ID (R46). -/
def releaseKey (s : State) (r : Release) : Nat :=
  ((entryOf s r.task).prio * 2 ^ 64 + r.instant.toNat) * 128 + r.task.toNat

/-- The Exchange dispatches releases now: RUN, or HOLD without scope ALL (R65, R69). -/
def dispatching (s : State) : Bool := s.ctl.mode == .run || (s.ctl.mode == .hold && !s.ctl.scopeAll)

/-- A window of the Stall's Market is open (R172). -/
def windowOpen (s : State) (k : StallId) : Bool := (s.markets[marketOf k]).winOpen.isSome

/-- A retained release of the Stall ends: its Till area is empty (R104). -/
def endRetention (k : StallId) (s : State) : State :=
  forEach (tillsOf k) (fun t q =>
    if (tillAt q t).area == .retained then modTill t (fun _ => Till.idle) q else q) s

/-- A task's bookkeeping at the dispatch of its release (R73, R83, R187). -/
def noteDispatch (r : Release) (s : State) : State :=
  let d := satTo 32 (nowT s - r.instant.toNat)
  modTask r.task (fun x => { x with
    lastdisp := d, maxdisp := max x.maxdisp d, hadRelease := true, lastCommitted := false, firstAfterChange := false,
    freezeNext := none }) s

/-- A release dispatched with its inputs already at hand: latched into the Daybook at once (R52, R76, R386). -/
def latchNow (t : TillId) (bytes : List Byte) (s : State) : State :=
  modTill t (fun k => { k with latched := true })
    (clearUeRange (putBytes s (dayBase t.stall.val) bytes) (dayBase t.stall.val) bytes.length)

/-- The mirrored data of a release that the standby is about to dispatch (R385, R386). -/
def mirrorOf (s : State) (r : Release) : Option Mirror :=
  s.red.mirrors.find? (fun m => m.task == r.task && m.relnum == r.relnum)

/-- The input pieces of a mirror laid together (R377). -/
def mirrorBytes (m : Mirror) (n : Nat) : List Byte :=
  (List.range n).map (fun i => match m.data.find? (fun p => p.1 ≤ i && i < p.1 + p.2.length) with
    | some p => p.2.getD (i - p.1) 0
    | none => 0)

/-- A release begins on a Till: an input latch is asked for, or its inputs are latched at once (R46, R52, R76, R86, R386). -/
def beginRelease (t : TillId) (r : Release) (s : State) : State :=
  let e := entryOf s r.task
  match mirrorOf s r with
  | some m =>
    let bytes := if e.event then bytesOfWords r.evt else mirrorBytes m e.inLen
    let q := latchNow t bytes (endRetention t.stall s)
    modTill t (fun k => { k with
      journal := m.journal
      replay := some { verify := false, base := m.journal.length, nextEffect := 0, nextGlobal := 0, stores := [],
                       kind := .tillState, addr := 0 } })
      (modRed (fun x => { x with mirrors := x.mirrors.filter (fun y => y.task != r.task || r.relnum < y.relnum) }) q)
  | none =>
    if e.event then sendEvent r.task r.relnum r.evt (latchNow t (bytesOfWords r.evt) (endRetention t.stall s))
    else if e.inLen = 0 then sendInput r.task r.relnum [] (latchNow t [] (endRetention t.stall s))
    else bankAsk (marketOf t.stall) (.latch t) e.inLen s

/-- The speculative Till that works on a release, when it is the same release (R86). -/
def specFor (s : State) (k : StallId) (r : Release) : Option TillId :=
  match specTill s k with
  | some t =>
    let x := (tillAt s t).rel
    if x.task == r.task && x.relnum == r.relnum && x.tick == r.tick then some t else none
  | none => none

/-- A speculative release pauses (R85). -/
def pauseSpec (k : StallId) (s : State) : State :=
  match specTill s k with
  | some t => modTill t (fun x =>
      if x.paused then x
      else { x with
        paused := true, runSince := s.mono
        spent := if x.stallCause == 0 && !x.waiting then x.spent + (s.mono - x.runSince) else x.spent }) s
  | none => s

/-- A Till that cannot be used for its own release any more: a speculative release of the same task but another instant (R86, R91). -/
def squashStale (k : StallId) (r : Release) (s : State) : State :=
  squashWhere (fun q t => t.stall == k && (tillAt q t).rel.task == r.task && (specFor q k r).isNone) s

/-- A release dispatched on a free Stall (R46, R85, R86, R121); a task due to freeze freezes before the first instruction (R70, R71). -/
def dispatchRelease (k : StallId) (r : Release) (s : State) : State :=
  let fz := match taskOf s r.task with
    | some x => x.freezeNext
    | none => none
  let s := squashStale k r s
  let s := modStall k (fun x => { x with pend := x.pend.filter (fun y => !(y.task == r.task && y.relnum == r.relnum)) }) s
  let s := if fz.isSome then squashWhere (fun q t => t.stall == k && (tillAt q t).rel.task == r.task) s else s
  match specFor s k r with
  | some t =>
    beginRelease t r (noteDispatch r (modStall k (fun x => { x with running := some t.till })
      (modTill t (fun x => { x with
        dispatched := true, rel := r, dispatchAt := s.mono, paused := false
        runSince := if x.paused then s.mono else x.runSince }) s)))
  | none =>
    match pickTill s k with
    | none => modStall k (fun x => { x with pend := x.pend ++ [r] }) s
    | some t =>
      let q := pauseSpec k s
      let q := modTill t (fun _ => { startTill (entryOf s r.task) r .live s.mono with dispatched := true, frozen := fz }) q
      let q := beginRelease t r (noteDispatch r (modStall k (fun x => { x with running := some t.till }) q))
      match fz with
      | some f => if f.fault then q else enterHold 4 r.task q
      | none => q

/-- A pending release that the Stall may dispatch now; an event release, or one without an input section, waits here for settlement (R46, R172, R386, R390). -/
def dispatchable (s : State) (k : StallId) (r : Release) : Bool :=
  let e := entryOf s r.task
  dispatching s && stallFree s k && s.stalls[k].awake && !windowOpen s k &&
    ((specFor s k r).isSome || (pickTill s k).isSome) &&
    !((e.event || e.inLen == 0 || following s) && latchHeld s k)

/-- The Stall dispatches its pending release of highest priority (R46). -/
def dispatchBest (k : StallId) (s : State) : State :=
  match minBy (releaseKey s) s.stalls[k].pend with
  | some r => if dispatchable s k r then dispatchRelease k r s else s
  | none => s

/-- DISPATCH: a free Stall dispatches its highest-priority pending release (R46). -/
def execDispatch (stall : StallId) (s : State) : Out := ok (dispatchBest stall s)

/-! ### Release signals, skips and overrun (R47, R59, R60, R69, R71) -/

/-- A task's release is running or pending (R59). -/
def uncommitted (s : State) (id : TaskId) : Bool :=
  allTills.any (fun t =>
    let x := tillAt s t
    x.rel.task == id && (isLive x || (x.area == .speculative && x.dispatched))) ||
  allStalls.any (fun k => s.stalls[k].pend.any (fun r => r.task == id))

/-- The Till that runs a task's release, whether its comparison is complete or not. -/
def runningTill (s : State) (id : TaskId) : Option TillId :=
  allTills.find? (fun t =>
    let x := tillAt s t
    x.rel.task == id && (isLive x || (x.area == .speculative && x.dispatched)))

/-- A pending release of a task removed without being dispatched (R71). -/
def dropPending (id : TaskId) (s : State) : State :=
  squashWhere (fun q t => (tillAt q t).rel.task == id && !(tillAt q t).dispatched)
    (forEach allStalls (fun k q => modStall k (fun x => { x with pend := x.pend.filter (fun r => r.task != id) }) q) s)

/-- The running release of a task abandoned, its speculation undone first (R57, R72). -/
def abandonRunning (t : TillId) (s : State) : State := abandon t (squash t s)

/-- A freeze with cause OVERRUN (R71). -/
def overrunFreeze : Freeze := { cause := 16, fault := true, scopeAll := false }

/-- A task faults with cause OVERRUN: its reaction acts on the release that is running or pending (R60, R71). -/
def overrunFault (id : TaskId) (s : State) : State :=
  let react := (entryOf s id).faultReact
  match runningTill s id with
  | some t =>
    let q := raiseTaskFault id 16 (effectCount (tillAt s t).journal) 0 0 0 s
    if commitBegun q t then
      modTask id (fun x => { x with afterCommit := match react with
        | 0 => .none
        | 1 => .stopTask
        | 2 => .stopAll
        | _ => .hold }) q
    else
      (match react with
      | 0 => resumeIfThawed (abandonRunning t q)
      | 1 => resumeIfThawed (stopTaskReaction id (abandonRunning t q))
      | 2 => enterStop false 2 id (abandonRunning t q)
      | _ =>
        let q := if (tillAt q t).committing then modTill t (fun x => { x with committing := false }) (bankDrop t q) else q
        enterHold 2 id (modTill t (fun x => { x with frozen := some overrunFreeze }) q))
  | none =>
    let q := raiseTaskFault id 16 0 0 0 0 s
    match react with
    | 0 => dropPending id q
    | 1 => stopTaskReaction id (dropPending id q)
    | 2 => enterStop false 2 id (dropPending id q)
    | _ => enterHold 2 id (modTask id (fun x => { x with freezeNext := some overrunFreeze }) q)

/-- A release instant is skipped: counted, its run begun or lengthened, and the task faults at OVRLIM (R59, R60). -/
def skipRelease (id : TaskId) (s : State) : State :=
  match taskOf s id with
  | none => s
  | some x =>
    let q := countOvr id (modTask id (fun y => { y with run := y.run + 1 }) s)
    let q := if x.run = 0 then raise q 0x0100 1 (field 0 id.toNat) (field 0 x.relcnt) else q
    if x.e.ovrlim ≠ 0 ∧ x.run + 1 = x.e.ovrlim then overrunFault id q else q

/-- A release becomes pending, and a free Stall dispatches once every signal of the instant is in (R46, R47; log 17). -/
def makePending (k : StallId) (r : Release) (s : State) : State :=
  let q := modStall k (fun x => { x with pend := x.pend ++ [r] }) s
  let more := q.signals.any (fun g => (entryOf q g.task).stall == k && g.tick == r.tick)
  if more then q else dispatchBest k q

/-- RELEASE_SIGNAL_ARRIVAL: a release instant reaches the Market: dispatched, pending, skipped, or left to the mirror on a standby (R47, R59, R60, R69, R386). -/
def execReleaseSignalArrival (task : TaskId) (s : State) : Out :=
  match s.signals.find? (fun g => g.task == task), taskOf s task with
  | some g, some x =>
    let q := { s with signals := dropFirst (fun y => y.task == task) s.signals }
    if q.ctl.mode == .stop || q.ctl.mode == .held then
      ok (squashWhere (fun q t => (tillAt q t).rel.task == task) q)
    else
      let frozen := taskFrozen q task
      let busy := uncommitted q task
      let q := modTask task (fun y => { y with relcnt := (y.relcnt + 1) % 2 ^ 64 }) q
      if q.red.role == .standby then ok q
      else if x.stopped then ok q
      else if frozen then ok (countHskip task q)
      else if q.ctl.mode == .hold && q.ctl.scopeAll then
        ok (squashWhere (fun q t => (tillAt q t).rel.task == task) (countHskip task q))
      else if busy then ok (skipRelease task q)
      else if (match q.red.adjudication with
          | some a => a.stall == x.e.stall
          | none => false) then ok (skipRelease task q)
      else
        ok (makePending x.e.stall
          { task := task, instant := field 0 (g.tick * 31250), tick := g.tick, relnum := x.relcnt + 1, arrived := q.mono,
            evt := [] } q)
  | _, _ => ok s

/-! ### Run-ahead (R83 to R96) -/

/-- The next release boundary of a cyclic task after the last boundary fired (R44). -/
def nextInstant (s : State) (e : TaskEntry) : Nat :=
  let n := s.clock.ticknum + 1
  let p := periodOf e
  n + (p - (n + (p - e.phase % p)) % p) % p

/-- A task's next release may run ahead (R83, R91, R187). -/
def eligible (s : State) (x : Task) : Bool :=
  x.e.runahead && !x.e.event && bit s.spctl 0 && s.ctl.mode == .run && (!x.hadRelease || x.lastCommitted) &&
    !x.firstAfterChange && x.noSpec != some (x.relcnt + 1) && !x.stopped &&
    !s.signals.any (fun g => g.task == x.e.id) && !uncommitted s x.e.id

/-- SPECULATION_START: a free Stall starts the eligible task with the earliest next instant (R83, R84). -/
def execSpeculationStart (stall : StallId) (s : State) : Out :=
  let k := s.stalls[stall]
  let free := k.awake && stallFree s stall && k.pend.isEmpty && (specTill s stall).isNone && !windowOpen s stall &&
    s.red.role != .standby && (match s.red.adjudication with
      | some a => a.stall != stall
      | none => true)
  let cands := s.tasks.filter (fun x => x.e.stall == stall && eligible s x)
  match free, pickTill s stall, minBy (fun x => (nextInstant s x.e * 16 + x.e.prio) * 128 + x.e.id.toNat) cands with
  | true, some t, some x =>
    let n := nextInstant s x.e
    let r : Release := { task := x.e.id, instant := field 0 (n * 31250), tick := n, relnum := x.relcnt + 1, arrived := 0, evt := [] }
    ok (modStall stall (fun y => { y with sprun := (y.sprun + 1) % 2 ^ 64 })
      (modTill t (fun _ => startTill x.e r .speculative s.mono) s))
  | _, _, _ => ok s

/-- Speculative time of a Till up to now (R117, SPSAVE). -/
def spentNow (s : State) (k : Till) : Nat :=
  if k.stallCause == 0 && !k.waiting && !k.paused then k.spent + (s.mono - k.runSince) else k.spent

/-- The lowest interval of a changed ledger entry (R93). -/
def lowestChange (s : State) (t : TillId) : Option Nat :=
  let k := tillAt s t
  let e := tillEntry s t
  let img := k.image.filter (fun x =>
    let a := dayBase t.stall.val + (x.off - e.inOff)
    s.ue.contains a || readWord s a != x.value)
  minBy id (img.map ImgEntry.interval ++ (k.watch.filter WatchEntry.changed).map WatchEntry.interval)

/-- SPSAVE counted in Market cycles (R117). -/
def countSaved (t : TillId) (ns : Nat) (s : State) : State :=
  modStall t.stall (fun x => { x with spsave := (x.spsave + nsCycles s.markets[marketOf t.stall] ns) % 2 ^ 64 }) s

/-- A rollback to checkpoint `c` (R94). -/
def rollback (t : TillId) (c : Nat) (s : State) : State :=
  let k := tillAt s t
  match k.ckpts[c]? with
  | none => s
  | some p =>
    let q := undoWhere t (fun e => decide (c ≤ e.interval)) s
    modTill t (fun k => { k with
      held := p.held, regs := p.regs, pc := p.pc, ckpts := k.ckpts.take (c + 1)
      image := k.image.filter (fun x => x.interval < c), watch := k.watch.filter (fun x => x.interval < c)
      journal := k.journal.filter (fun x => x.interval < c), rolled := true, stallCause := 0, waiting := false,
      trap := none, passBreak := false }) q

/-- The system address of a Stall's data address, for the report of a deferred MEMERR (R29, R431). -/
def systemAddress (s : State) (t : TillId) (a : Word) : Nat :=
  let n := a.toNat
  let m := (marketOf t.stall).val
  if n < 0x0200_0000 then marketSys t n
  else if n < 0x0204_0000 then
    (let k := tillAt s t
     if k.latched then dayBase t.stall.val + (n - 0x0200_0000 - (tillEntry s t).inOff) else imageBase m + (n - 0x0200_0000))
  else outBase m + (n - 0x0204_0000)

/-- What follows a comparison with no change (R94, R95, R167). -/
def continueWork (t : TillId) (s : State) : State :=
  let k := tillAt s t
  let q := modTill t (fun k => { k with stallCause := 0, waiting := false, trap := none }) s
  if k.waiting then requestCommit t q
  else match k.trap with
  | some x =>
    let q := if x.cause = 5 then memUe (8 * (systemAddress s t x.addr / 8)) q else q
    taskFault t x.cause x.word x.addr q
  | none => q

/-- COMPARISON_COMPLETE: the run-ahead comparison ends (R93 to R96, R117). -/
def execComparisonComplete (t : TillId) (s : State) : Out :=
  let k := tillAt s t
  if k.area == .speculative && k.dispatched && k.latched then
    match lowestChange s t with
    | none =>
      let q := countSaved t (spentNow s k) (modStall t.stall (fun x => { x with sphit := (x.sphit + 1) % 2 ^ 64 }) s)
      let q := modTill t (fun x => { x with area := .live, image := [], watch := [] }) q
      ok (if k.frozen.isSome then modTill t (fun x => { x with stallCause := 0 }) q else continueWork t q)
    | some c =>
      let saved := match k.ckpts[c]? with
        | some p => p.spent
        | none => 0
      let q := countSaved t saved (modStall t.stall (fun x => { x with sprb := (x.sprb + 1) % 2 ^ 64 }) s)
      ok (modTill t (fun x => { x with area := .live }) (rollback t c q))
  else ok s

/-! ### Event tasks (R75 to R77, R320) -/

/-- The eight words of an event record (R76). -/
def eventRecord (g : Trigger) (seq dropped : Nat) : List Word :=
  [field 0 g.src ||| field 4 g.index ||| field 12 g.edge ||| field 16 (seq % 65536) ||| field 32 dropped, g.t,
   field 0 g.pins.toNat, (if g.src = 2 then field 0 g.count.toNat else 0), 0, 0, 0, 0]

/-- A trigger dropped and counted (R75, R76). -/
def dropTrigger (id : TaskId) (s : State) : State :=
  match taskOf s id with
  | none => s
  | some x =>
    let c := satStep 32 x.evDropped
    taskCounterFull 3 4 id c.2 (modTask id (fun y => { y with evDropped := c.1 }) s)

/-- EVENT_TRIGGER_ARRIVAL: a trigger makes a pending release or is dropped (R75, R76). -/
def execEventTriggerArrival (task : TaskId) (s : State) : Out :=
  match s.trigs.find? (fun g => g.task == task), taskOf s task with
  | some g, some x =>
    let q := { s with trigs := dropFirst (fun y => y.task == task) s.trigs }
    if q.red.role == .standby then ok q
    else
      let k := x.e.stall
      let q := modTask task (fun y => { y with evSeq := y.evSeq + 1 }) q
      if q.ctl.mode != .run || x.stopped || q.stalls[k].pend.any (fun r => r.task == task) then ok (dropTrigger task q)
      else
        let q := modTask task (fun y => { y with relcnt := (y.relcnt + 1) % 2 ^ 64 }) q
        let q := modStall k (fun y => { y with pend := y.pend ++
          [{ task := task, instant := g.t, tick := 0, relnum := x.relcnt + 1, arrived := q.mono,
             evt := eventRecord g x.evSeq x.evDropped }] }) q
        ok (dispatchBest k q)
  | _, _ => ok s

/-- A direct output word applied to the masked channels that its task owns (R77, R320). -/
def applyDirect (id : TaskId) (w : Word) (s : State) : State :=
  let own (c : Channel) : Bool := isOutput c && outSrc c == 1 && bits c.cfg 26 20 == id.toNat
  updateField (forEach (List.range 32) (fun n q =>
    if own (channelAt q n) && bit w (32 + n) && !heldOpen q n then modChannel n (fun c => { c with eventOn := bit w n }) q else q) s)

/-- DIRECT_OUTPUT_WORD: the word reaches the field die, and the event Stall is free (R77, R320). -/
def execDirectOutputWord (s : State) : Out :=
  match s.directs with
  | [] => ok s
  | (id, w) :: rest =>
    let q := applyDirect id w { s with directs := rest }
    ok (forEach allTills (fun t q =>
      let k := tillAt q t
      if isLive k && k.committing && k.rel.task == id && q.stalls[t.stall].running == some t.till then freeStall t q else q) q)

end Sys2Proof.Machine
end

