-- ==== Sys2Proof/Machine/Bank.lean ====
section
/-!
DEFINITION. The image banks: the order of bank transactions, and what each one does when it completes (R33 to R35, R52 to R55, R59 to R61, R66, R67, R71, R109, R190, R191, R431, R432).
-/
namespace Sys2Proof.Machine

/-! ### Starting (R33, R34) -/

/-- Priority of a transaction (R33). -/
def bankPriority : BankKind → Nat
  | .commit _ => 1
  | .latch _ => 2
  | .frameWrite _ _ => 3
  | .fieldSample _ => 4
  | .gather _ _ => 5
  | .motionRead _ => 6
  | .dma _ => 7
  | .forceWrite _ _ => 7

/-- A waiting transaction may start: an input latch waits for settlement in a pair (R104, R390). -/
def txReady (s : State) (x : BankTx) : Bool :=
  match x.kind with
  | .latch t => !latchHeld s t.stall
  | _ => true

/-- The transaction a bank starts next: aged ones first, then by priority, then the one that has waited longest (R33, R34). -/
def pickTx (s : State) (m : MarketId) : Option BankTx :=
  minBy (fun x => ((if x.aged then 0 else 1) * 8 + (if x.aged then 0 else bankPriority x.kind)) * 2 ^ 80 + x.since)
    (s.markets[m].queue.filter (txReady s))

/-- The output section that a byte of an output half lies in (R50). -/
def sectionOf (s : State) (m off : Nat) : Option Task :=
  s.tasks.find? (fun t => t.e.market.val == m && decide (t.e.outOff ≤ off) && decide (off < t.e.outOff + t.e.outLen))

/-- A gather takes zero words for a section: ARMED = 0, or its stop state is off and it is stopped (R66, R67, R71). -/
def gathersZero (s : State) (t : Task) : Bool :=
  !s.ctl.armed || (t.e.stopOff && (t.stopped || (s.ctl.mode != .run && s.ctl.mode != .hold)))

/-- Bytes gathered from an output half: stop states applied, damaged words taken as 0 and reported (R35, R66, R67, R432). -/
def gatherBytes (m off n : Nat) (s : State) : List Byte × State :=
  let a := outBase m + off
  let raw := readZeroed s a n
  let l := (enumFrom 0 raw).map (fun x =>
    match sectionOf s m (off + x.1) with
    | some t => if gathersZero s t then 0 else x.2
    | none => x.2)
  (l, forEach (ueAll s a n) memUe s)

/-- All ranges of a gather, laid end to end. -/
def gatherAll : List (Nat × Nat) → Nat → State → List Byte × State
  | [], _, s => ([], s)
  | (off, n) :: r, m, s =>
    let a := gatherBytes m off n s
    let b := gatherAll r m a.2
    (a.1 ++ b.1, b.2)

/-- A transaction taken out of the queue and begun (R33). -/
def beginTx (m : MarketId) (x : BankTx) (s : State) : State :=
  let g : List Byte × State := match x.kind with
    | .gather _ rs => gatherAll rs m.val s
    | _ => ([], s)
  modMarket m (fun k => { k with
    queue := dropFirst (fun y => decide (y = x)) k.queue
    active := some { x with start := s.mono, data := g.1 } }) g.2

/-- BANK_TRANSACTION_START: an idle bank starts the waiting transaction of highest priority (R33, R34). -/
def execBankTransactionStart (m : MarketId) (s : State) : Out :=
  match s.markets[m].active, pickTx s m with
  | none, some x => ok (beginTx m x s)
  | _, _ => ok s

/-- BANK_AGEING: a transaction that has waited 8 us is raised above the younger ones (R34). -/
def execBankAgeing (m : MarketId) (s : State) : Out :=
  match minBy BankTx.since (s.markets[m].queue.filter (fun x => !x.aged)) with
  | none => ok s
  | some x =>
    let q := untilMono (x.since + 8000) s
    ok (modMarket m (fun k => { k with
      queue := mapIf (fun y => decide (y.since + 8000 ≤ q.mono)) (fun y => { y with aged := true }) k.queue }) q)

/-! ### Commits (R53, R54, R59 to R61, R71, R109, R191) -/

/-- One word of an output section at a commit: written as a whole word when the release wrote it, otherwise only its forced bits as a narrow write (R25, R54, R191). -/
def commitWord (m : Nat) (held : List Host.Cell) (off : Nat) (s : State) : State :=
  let a := outBase m + off
  if inCells held off then writeWord s a (forceWord s m true off (valueAt (overlay held (fun _ => 0) off 8)))
  else if (forcesAt s m true off).isEmpty then s
  else if s.ue.contains a then memUe a s
  else writeWord s a (forceWord s m true off (readWord s a))

/-- The whole output section written (R54, R191). -/
def commitWords (t : TillId) (s : State) : State :=
  let e := tillEntry s t
  let held := (tillAt s t).held
  forEach (List.range (e.outLen / 8)) (fun i q => commitWord (marketOf t.stall).val held (e.outOff + 8 * i) q) s

/-- The report of a replayed release at its commit (R109). -/
def reportReplay (t : TillId) (s : State) : State :=
  let k := tillAt s t
  let e := tillEntry s t
  match k.replayed, k.replay with
  | true, some r =>
    let w := replayWord t.stall k.rel.task r.kind
    if e.event || decide (nowT s ≤ k.rel.instant.toNat + periodOf e * 31250) then
      raise s 0x0103 0 w (field 0 k.rel.relnum) (field 0 r.addr)
    else countRplate t.stall (raise s 0x0104 1 w (field 0 k.rel.relnum) (field 0 r.addr))
  | _, _ => s

/-- A committed release in its task's counts; the first commit after a run of skips ends the run (R60, R73). -/
def noteCommit (id : TaskId) (exec_ : Nat) (s : State) : State :=
  match taskOf s id with
  | none => s
  | some x =>
    let q := modTask id (fun y => { y with
      commitcnt := (y.commitcnt + 1) % 2 ^ 64, lastexec := exec_, maxexec := max y.maxexec exec_, lastcommit := localT s
      lastCommitted := true, run := 0, noSpec := none, afterCommit := .none }) s
    if x.run = 0 then q else raise q 0x0101 0 (field 0 id.toNat) (field 0 x.run)

/-- The reaction that was put off to a commit (R71). -/
def reactAfter (id : TaskId) (a : AfterCommit) (s : State) : State :=
  match a with
  | .none => s
  | .stopTask => stopTaskReaction id s
  | .stopAll => enterStop false 2 id s
  | .hold => enterHold 2 id (modTask id (fun x => { x with freezeNext := some overrunFreeze }) s)

/-- The output section of a Till's task as it stands in the bank. -/
def sectionBytes (s : State) (t : TillId) : List Byte :=
  let e := tillEntry s t
  readBytes s (outBase (marketOf t.stall).val + e.outOff) e.outLen

/-- The routes whose source is a task (R55, R575). -/
def routesOf (s : State) (id : TaskId) : List Nat :=
  ((enumFrom 0 s.project.routes).filter (fun x => x.2.srcTask == id)).map Prod.fst

/-- A commit that waited for an earlier one of its task is now requested (R77). -/
def requestPosted (k : StallId) (id : TaskId) (s : State) : State :=
  forEach (tillsOf k) (fun u q =>
    let x := tillAt q u
    if isLive x && x.waiting && !x.committing && x.frozen.isNone && x.rel.task == id then requestCommit u q else q) s

/-- The Stall's other Till runs a release that has its inputs already. -/
def otherLatched (t : TillId) (s : State) : Bool :=
  match s.stalls[t.stall].running with
  | some i => i != t.till && (tillAt s { t with till := i }).latched
  | none => false

/-- A release is committed: its area is retained, its Stall is free, and what waited for the commit follows (R54, R60, R70, R71, R101, R104, R389). -/
def finishCommit (t : TillId) (s : State) : State :=
  let k := tillAt s t
  let id := k.rel.task
  let h := releaseHash k.rel.relnum id (sectionBytes s t)
  let after_ := match taskOf s id with
    | some x => x.afterCommit
    | none => .none
  let q := noteCommit id (satTo 32 (s.mono - k.dispatchAt)) (reportReplay t s)
  let q := match k.frozen with
    | some f => modTask id (fun x => { x with freezeNext := some { f with cause := 0, fault := false } }) q
    | none => q
  let q := modTill t (fun x => if otherLatched t s then Till.idle else { x with
    area := .retained, outhash := h, committing := false, waiting := false, resv := none, replay := none, frozen := none,
    stepping := false, held := [] }) q
  let q := freeStall t q
  let q := ownHash id k.rel.relnum h (sendJournal id k.rel.relnum k.journal q)
  let q := { q with routeJobs := q.routeJobs ++ routesOf q id }
  let q := reactAfter id after_ (requestPosted t.stall id q)
  sleepIfHeld t.stall (resumeIfThawed q)

/-! ### The other transactions -/

/-- An input latch completes: forced inputs substituted, damaged words copied as damaged (R52, R190, R432). -/
def finishLatch (t : TillId) (s : State) : State :=
  let k := tillAt s t
  let e := tillEntry s t
  let m := (marketOf t.stall).val
  let a := imageBase m + e.inOff
  let bytes := forcedInput s m e.inOff e.inLen (readBytes s a e.inLen)
  let bad := ueAll s a e.inLen
  let q := forEach bad memUe s
  let q := forEach (tillsOf t.stall) (fun u q =>
    if u != t && (tillAt q u).area == .retained then modTill u (fun _ => Till.idle) q else q) q
  let q := latchNow t bytes q
  let q := forEach bad (fun w q => markUe q (dayBase t.stall.val + (w - a))) q
  sendInput k.rel.task k.rel.relnum bytes q

/-- One bit of an input half written: a narrow write of its byte (R25, R292). -/
def writeImageBit (m bitoff : Nat) (v : Bool) (s : State) : State :=
  let a := imageBase m + bitoff / 8
  let b := readByte s a
  storeMem a [if v then b ||| BitVec.ofNat 8 (2 ^ (bitoff % 8)) else b &&& ~~~(BitVec.ofNat 8 (2 ^ (bitoff % 8)))] s

/-- Byte strings written at their addresses. -/
def writeAll (l : List (Nat × List Byte)) (s : State) : State := forEach l (fun w q => storeMem w.1 w.2 q) s

/-- The forced bits of one output word written as another agent's narrow write (R25, R91, R191). -/
def finishForce (m off : Nat) (s : State) : State :=
  let a := outBase m + off
  if s.ue.contains a then memUe a (squashWhere (fun q t =>
    let e := tillEntry q t
    meets (outBase e.market.val + e.outOff) e.outLen a 8) s)
  else outputWrite a (bytesOfWord (forceWord s m true off (readWord s a))) s

/-- The image symbol or other map entry of an identity key, with its Market (R169, R189). -/
def mapEntry (s : State) (skey : Word) : Option (MarketId × Inst) :=
  (allMarkets.flatMap (fun m => s.project.layouts[m].insts.map (fun i => (m, i)))).find? (fun x => x.2.ikey == skey)

/-- The force entry of a symbol at its place in a map (R188). -/
def forceEntry (s : State) (skey value : Word) (m : MarketId) (i : Inst) : Force :=
  { skey := skey, value := value, bitoff := i.offset, width := i.length, output := i.output, market := m, settime := localT s }

/-- Two forces share a bit of an image bank (R189). -/
def forcesMeet (f g : Force) : Bool :=
  f.market == g.market && f.output == g.output && meets f.bitoff (widthBits f.width) g.bitoff (widthBits g.width)

/-- The entry that a FORCE_SET makes, or the status that refuses it (R189). -/
def forceCheck (s : State) (skey value : Word) : Except Nat Force :=
  match mapEntry s skey with
  | none => .error 0x38
  | some (m, i) =>
    let f := forceEntry s skey value m i
    let others := s.forces.filter (fun g => g.skey != skey)
    if i.kind ≠ 4 then .error 0x39
    else if others.any (forcesMeet f) then .error 0x3A
    else if 1024 ≤ others.length || 256 < (forcedWords (f :: others) m.val).length then .error 0x3B
    else if 2 ^ widthBits i.length ≤ value.toNat then .error 0x3C
    else .ok f

/-- An entry added to the force table, in place of the one of its key (R188). -/
def storeForce (f : Force) (s : State) : State := { s with forces := s.forces.filter (fun g => g.skey != f.skey) ++ [f] }

/-- A force takes effect: an output force is written into the bank (R191). -/
def takeForce (f : Force) (s : State) : State :=
  let q := storeForce f s
  if f.output then finishForce f.market.val (f.bitoff / 64 * 8) q else q

/-- The force-write transaction of a FORCE_SET: its symbol is looked up again, the entry takes effect, and the command completes (R189, R191, R193, R388). -/
def setForceAt (c : Cmd) (m off : Nat) (s : State) : State :=
  match forceCheck s (opnd c 1) (opnd c 2) with
  | .error st => finish c st 0 0 s
  | .ok f =>
    if f.output && f.market.val == m && f.bitoff / 64 * 8 == off then finish c 0 0 0 (takeForce f (forwardCmd 0 c [] s))
    else finish c 0x38 0 0 s

/-- The input-half words that the axes of an engine read from a Market's bank: feedback and latch records (R205, R225). -/
def motionWords (s : State) (e m : Nat) : List Nat :=
  (List.range 128).flatMap (fun i =>
    let w0 := axisRec s e i 0
    let w8 := axisRec s e i 8
    let w80 := axisRec s e i 80
    if bits w0 2 0 = 0 ∨ bits w0 4 3 ≠ m then []
    else (if bits w8 19 18 ≠ 0 then [bits w8 17 0] else []) ++
      (if bit w0 9 then [bits w80 17 0, bits w80 17 0 + 8] else []))

/-- A motion read completes: words with forced bits substituted, damaged words as such (R190, R200, R432). -/
def finishMotionRead (e m : Nat) (s : State) : State :=
  let ws := (motionWords s e m).eraseDups
  let bad := ws.filter (fun off => s.ue.contains (imageBase m + off))
  let got := ws.map (fun off => (m, off, if bad.contains off then none else some (inputWord s m off)))
  modEngine e (fun g => { g with cycle := g.cycle.map (fun c => { c with
    waiting := c.waiting.filter (fun x => x != m), reads := c.reads ++ got }) })
    (forEach (bad.map (fun off => imageBase m + off)) memUe s)

/-- A frame is built when its last gather completes, in time when that is 150 ns before TXOFF (R289, R290). -/
def markBuilt (i : Nat) (s : State) : State :=
  let now := nowT s
  modSched i (fun e => match e.due with
    | some n => if e.gathers = 0 && decide (now + 150 ≤ n * 31250 + e.off) then { e with built := some [] } else e
    | none => e) s

/-- A gather completes for its requester (R55, R289, R303). -/
def finishGather (who : GatherFor) (m : MarketId) (ranges : List (Nat × Nat)) (data : List Byte) (s : State) : State :=
  match who with
  | .frame _ i =>
    let parts := (ranges.foldl (fun (acc : List (Nat × Nat × List Byte) × List Byte) r =>
      (acc.1 ++ [(m.val, r.1, acc.2.take r.2)], acc.2.drop r.2)) ([], data)).1
    markBuilt i (modSched i (fun e => { e with gathers := e.gathers - 1, gathered := e.gathered ++ parts }) s)
  | .field =>
    let inTime := match s.field.gathering with
      | some t => decide (nowT s + 50 ≤ t)
      | none => false
    { s with field := { s.field with gathering := none, gathered := if inTime then some data else none } }
  | .route _ i =>
    match s.project.routes[i]? with
    | some r => bankAsk r.dstMkt (.frameWrite [(imageBase r.dstMkt.val + r.dstOff, data)] none) data.length s
    | none => s

/-- The effect of a completed transaction (R33). -/
def finishTx (m : MarketId) (x : BankTx) (s : State) : State :=
  match x.kind with
  | .commit t => finishCommit t (commitWords t s)
  | .latch t => finishLatch t s
  | .frameWrite ws fresh =>
    (match fresh with
    | some f => writeImageBit m.val f.1 f.2 (writeAll ws s)
    | none => writeAll ws s)
  | .fieldSample ws => writeAll ws s
  | .gather who rs => finishGather who m rs x.data s
  | .motionRead e => finishMotionRead e m.val s
  | .dma n => burstAtBank n s
  | .forceWrite c off => setForceAt c m.val off s

/-- BANK_TRANSACTION_END: the transaction in progress completes, 64 bytes per Market cycle after its start (R33, R35). -/
def execBankTransactionEnd (m : MarketId) (s : State) : Out :=
  match s.markets[m].active with
  | none => ok s
  | some x =>
    let q := untilMono (x.start + cyclesNs s.markets[m] (ceilDiv x.len 64)) s
    ok (finishTx m x (modMarket m (fun k => { k with active := none }) q))

/-- IMAGE_ROUTE: after a commit of its source task a route gathers its source range (R55). -/
def execImageRoute (index : Fin 32) (s : State) : Out :=
  match s.routeJobs.contains index.val, s.project.routes[index.val]? with
  | true, some r =>
    let m := (entryOf s r.srcTask).market
    ok (bankAsk m (.gather (.route r.srcTask index.val) [(r.srcOff, r.len)]) r.len
      { s with routeJobs := dropFirst (fun i => i == index.val) s.routeJobs })
  | _, _ => ok s

end Sys2Proof.Machine
end

