-- ==== Sys2Proof/Machine/Field.lean ====
section
/-!
DEFINITION. The field die: filtered inputs and edges, counters, latch units, reflexes, generators, output times, protection, supply groups, analog inputs, and the FIO and ANA registers (R294 to R332).
-/
namespace Sys2Proof.Machine

/-! ### Register fields (R6, R545 to R547) -/

/-- SYS.ERRS.RSVDW is set: a reserved encoding was written (R546). -/
def reservedWrite (s : State) : State := { s with errs := { s.errs with rsvdw := true } }

/-- A field of a register map: its bits and the values that are no reserved encoding. -/
structure FieldMap where
  hi : Nat
  lo : Nat
  good : Nat → Bool

/-- A field without a reserved encoding. -/
def anyField (hi lo : Nat) : FieldMap := { hi := hi, lo := lo, good := fun _ => true }

/-- A register after a write judged field by field, and whether a reserved encoding was written (R545, R546). -/
def judge (old v : Word) : List FieldMap → Word × Bool
  | [] => (old, false)
  | f :: r =>
    let x := bits v f.hi f.lo
    let q := judge (if f.good x then putBits old f.hi f.lo x else old) v r
    (q.1, q.2 || !f.good x)

/-- A judged write stored by `put`, RSVDW set where a field was reserved (R546). -/
def judged (old v : Word) (fs : List FieldMap) (put : Word → State → State) (s : State) : State :=
  let q := judge old v fs
  when_ q.2 reservedWrite (put q.1 s)

/-! ### Generators (R321 to R324) -/

/-- A set as its two words (R323, R324). -/
def setOf (sha shb : Word) : GenSet :=
  { mode := bits sha 1 0, cnt := bits sha 15 2, per := bits sha 63 32, wid := bits shb 31 0, dly := bits shb 63 32 }

/-- A valid set (R321). -/
def setValid (g : GenSet) : Bool :=
  match g.mode with
  | 0 => true
  | 1 => decide (4000 ≤ g.per) && (g.wid == 0 || g.wid == g.per || (decide (400 ≤ g.wid) && decide (g.wid + 400 ≤ g.per)))
  | 2 => decide (400 ≤ g.wid)
  | _ => decide (1 ≤ g.cnt) && decide (4000 ≤ g.per) && decide (400 ≤ g.wid) && decide (g.wid + 400 ≤ g.per)

/-- Pulses that a set gives; 0 stands for a PWM without end (R321). -/
def genPulses (g : GenSet) : Nat :=
  match g.mode with
  | 2 => 1
  | 3 => g.cnt
  | _ => 0

/-- The always-on instant of the generator's next edge (R321). -/
def genDue (g : Generator) : Nat :=
  if g.out then g.h + 5 * (g.set.dly + (g.begun - 1) * g.set.per + g.set.wid)
  else g.h + 5 * (g.set.dly + g.begun * g.set.per)

/-- The generator's next edge (R321). -/
def genStep (g : Generator) : Generator :=
  if g.out && !(g.set.mode == 1 && g.set.wid == g.set.per) then
    { g with out := false, active := g.set.mode == 1 || decide (g.begun < genPulses g.set) }
  else { g with out := g.set.wid != 0, begun := g.begun + 1 }

/-- A set applied to a channel at the hand-over instant H = now (R321, R322). -/
def applySet (c : Nat) (a : ArmedSet) (s : State) : State :=
  let g : Generator := { set := a.set, h := s.mono, begun := 0, out := false, active := a.set.mode != 0 }
  let g := if g.active && a.set.dly == 0 then genStep g else g
  modChannel c (fun x => { x with gen := g, pend := none, appliedSeq := a.seq, appliedN := s.clock.ticknum % 65536 }) s

/-- A hand-over instant of a channel: a set armed at least 50 ns before is applied, one armed within 50 ns at this instant or the next (R321, R322). -/
def handOver (c : Nat) (s : State) : State :=
  match (channelAt s c).pend with
  | none => s
  | some a =>
    if a.image || a.at_ + 50 ≤ s.mono then applySet c a s
    else
      let r := freshBool s
      if r.1 then applySet c a r.2 else r.2

/-- A set refused: REJ and FIELD_GEN_REJECT (R322). -/
def rejectSet (c seq : Nat) (s : State) : State :=
  raise (modChannel c (fun x => { x with rej := true }) s) 0x0503 1 (field 0 c) (field 0 seq)

/-- A set armed with a sequence number, or refused (R322, R323). -/
def armSet (c seq : Nat) (g : GenSet) (image : Bool) (s : State) : State :=
  let x := channelAt s c
  if !isOutput x || outSrc x != 3 || !setValid g then rejectSet c seq s
  else modChannel c (fun x => { x with pend := some { seq := seq, set := g, image := image, at_ := s.mono } }) s

/-- A write of FIO.CHn.ARM (R322). -/
def writeArm (c : Nat) (v : Word) (s : State) : State :=
  let x := channelAt s c
  if x.pend.isSome then modChannel c (fun x => { x with busy := true }) s
  else armSet c (bits v 15 0) (setOf x.sha x.shb) false s

/-- FIO_ARM: the shadow set of a channel is armed, or the write is refused (R322). -/
def execFioArm (c : Fin 32) (val : Word) (s : State) : Out := ok (writeArm c.val val s)

/-- GENERATOR_EDGE: the generator output of a channel changes (R321). -/
def execGeneratorEdge (c : Fin 32) (s : State) : Out :=
  let g := (channelAt s c.val).gen
  if g.active then
    ok (updateField (modChannel c.val (fun x => { x with gen := genStep x.gen }) (untilMono (genDue g) s)))
  else ok s

/-! ### Triggers of event tasks (R75, R76) -/

/-- The triggers of the event tasks that a source fires (R48, R76). -/
def triggerTasks (src index edge : Nat) (t : Word) (count : BitVec 32) (s : State) : State :=
  let hit (x : Task) : Bool := x.e.event && x.e.trigSrc == src && x.e.trigIndex == index &&
    (src != 1 || x.e.trigEdge.testBit (edge - 1))
  { s with trigs := s.trigs ++ (s.tasks.filter hit).map (fun x =>
      { task := x.e.id, src := src, index := index, edge := edge, t := t,
        pins := (filtWord s.field).setWidth 32, count := count }) }

/-! ### Counters (R310 to R315) -/

/-- A counter. -/
def counterAt (s : State) (k : Nat) : Counter := vget s.field.counters k Counter.reset

/-- One counter changed. -/
def modCounter (k : Nat) (f : Counter → Counter) (s : State) : State :=
  { s with field := { s.field with counters := vmod s.field.counters k f } }

/-- MODE of a counter; a counter with a conflict counts nothing (R310). -/
def counterMode (s : State) (k : Nat) : Nat :=
  if counterConflict s.field k then 0 else bits (counterAt s k).cfg 2 0

/-- SAT is set; the first time since it was 0 raises FIELD_COUNTER_SAT (R311). -/
def counterSat (k : Nat) (s : State) : State :=
  if (counterAt s k).sat then s else raise (modCounter k (fun c => { c with sat := true }) s) 0x0502 1 (field 0 k)

/-- A counting step up or down: limits, wrap, and compare match (R311, R313). -/
def countStep (k : Nat) (up : Bool) (t : Word) (s : State) : State :=
  let c := counterAt s k
  let atLimit := if up then c.value == BitVec.allOnes 32 else c.value == 0
  if atLimit && bit c.cfg 3 then counterSat k s
  else
    let v := if up then c.value + 1 else c.value - 1
    let q := modCounter k (fun x => { x with value := v, wrap := x.wrap || atLimit }) s
    let q := if atLimit then raise q 0x0501 0 (field 0 k) (flag 0 (!up)) else q
    if bit c.cfg 5 && v == c.cmp then
      triggerTasks 2 k 0 t c.cmp (modCounter k (fun x => { x with cmphit := true }) q)
    else q

/-- The field-die cycle in which a channel's filtered state last changed (R299). -/
def filtCycle (s : State) (c : Nat) : Nat :=
  let x := channelAt s c
  (x.levelAt + 1000 * bits x.cfg 17 2) / 5

/-- A quadrature step on a change of A or B; a change of both in one field-die cycle sets QERR and changes nothing (R310). -/
def quadStep (k : Nat) (changedA : Bool) (t : Word) (s : State) : State :=
  let a := (channelAt s k).filt
  let b := (channelAt s (k + 1)).filt
  let other := if changedA then k + 1 else k
  let x := channelAt s other
  if x.level == x.filt && filtCycle s other == s.mono / 5 && x.levelAt != 0 then
    let upBefore := if changedA then (!a) == b else a != (!b)
    modCounter k (fun c => { c with qerr := true, value := if upBefore then c.value - 1 else c.value + 1 }) s
  else countStep k (if changedA then a != b else a == b) t s

/-- A counter sees an edge of its first channel. -/
def counterEdge (k : Nat) (rise : Bool) (t : Word) (s : State) : State :=
  let both := bit (counterAt s k).cfg 4
  match counterMode s k with
  | 1 => if rise || both then countStep k true t s else s
  | 2 => if rise || both then countStep k false t s else s
  | 3 => if rise || both then countStep k (!(channelAt s (k + 1)).filt) t s else s
  | 4 => quadStep k true t s
  | 5 => if rise then countStep k true t s else s
  | 6 =>
    if rise then modCounter k (fun c => { c with
      edges := c.edges + 1, firstT := if c.edges = 0 then t else c.firstT, lastT := some t }) s
    else s
  | 7 => if rise then modCounter k (fun c => { c with prevT := c.lastT, lastT := some t }) s else s
  | _ => s

/-- A counter sees an edge of its second channel. -/
def counterEdge2 (k : Nat) (rise : Bool) (t : Word) (s : State) : State :=
  match counterMode s k with
  | 4 => quadStep k false t s
  | 5 => if rise then countStep k false t s else s
  | _ => s

/-- A load of PRESET; ignored in modes 0, 6 and 7, and by a counter with a conflict, which holds its value (R310, R312). -/
def loadCounter (k : Nat) (s : State) : State :=
  let m := counterMode s k
  if m = 0 || m = 6 || m = 7 then s else modCounter k (fun c => { c with value := c.preset }) s

/-- FIO_CNT_LOAD: a write of 1 to LOAD loads the counter (R312). -/
def execFioCntLoad (k : Fin 32) (val : Word) (s : State) : Out := ok (if bit val 0 then loadCounter k.val s else s)

/-- The values of all counters copied (R314). -/
def snapCounters (s : State) : State :=
  { s with field := { s.field with counters := s.field.counters.map (fun c => { c with csv := counterShown c }) } }

/-- FIO_CSNAP: a write of 1 to GO copies all counter values of one cycle (R314). -/
def execFioCsnap (val : Word) (s : State) : Out := ok (if bit val 0 then snapCounters s else s)

/-! ### Latch units (R316, R317) -/

/-- A latch unit sees an edge of its channel: it captures it, or counts it as ignored (R316, R317). -/
def latchEdge (j c : Nat) (rise : Bool) (t : Word) (s : State) : State :=
  let u := vget s.field.latches j LatchUnit.reset
  let set_ (f : LatchUnit → LatchUnit) (q : State) : State :=
    { q with field := { q.field with latches := vmod q.field.latches j f } }
  if !bit u.cfg 0 || bits u.cfg 5 1 != c || !(bits u.cfg 7 6).testBit (if rise then 0 else 1) then s
  else if !bit u.cfg 8 && u.captured then
    let n := satStep 32 u.ign
    counterFull (0x11088 + 16 * j) n.2 (set_ (fun x => { x with ign := n.1 }) s)
  else
    let v := if bit u.cfg 9 then counterShown (counterAt s (bits u.cfg 14 10)) else 0
    set_ (fun x => { x with t := t, lcount := x.lcount + 1, capval := v, captured := true }) s

/-- IGN of a latch unit set to 0 (R316). -/
def clearIgn (j : Nat) (s : State) : State :=
  { s with field := { s.field with latches := vmod s.field.latches j (fun x => { x with ign := 0 }) } }

/-- LATCH_IGN_CLEAR: a write of any value sets IGN to 0 (R316). -/
def execLatchIgnClear (j : Fin 8) (_val : Word) (s : State) : Out := ok (clearIgn j.val s)

/-! ### Filtered states and edges (R299, R300, R318) -/

/-- The filtered state of a channel takes the comparator level, with all that an edge does (R299, R300, R311, R313, R317, R318). -/
def filtChange (c : Nat) (s : State) : State :=
  let x := channelAt s c
  let rise := x.level
  let t := x.levelT
  let q := modChannel c (fun y => { y with filt := rise }) s
  let q := counterEdge c rise t q
  let q := if c % 2 = 1 then counterEdge2 (c - 1) rise t q else q
  let q := forEach (List.range 8) (fun j q => latchEdge j c rise t q) q
  updateField (triggerTasks 1 c (if rise then 1 else 2) t 0 q)

/-- FIELD_INPUT_EDGE: the voltage at a ball crosses the threshold of the channel's input type (R295, R299, R300). -/
def execFieldInputEdge (c : Fin 32) (level : Bool) (s : State) : Out :=
  let x := channelAt s c.val
  if x.level = level || s.power.inReset.isSome then ok s
  else
    let q := modChannel c.val (fun y => { y with level := level, levelT := localT s, levelAt := s.mono }) s
    ok (if bits x.cfg 17 2 = 0 then filtChange c.val q else q)

/-- DEBOUNCE_EXPIRY: the comparator has held its level for DEB us (R299). -/
def execDebounceExpiry (c : Fin 32) (s : State) : Out :=
  let x := channelAt s c.val
  if x.level = x.filt || s.power.inReset.isSome then ok s
  else ok (filtChange c.val (untilMono (x.levelAt + 1000 * bits x.cfg 17 2) s))

/-- REFLEX_PULSE_END: PWID x 5 ns after its start a running pulse ends (R318). -/
def execReflexPulseEnd (e : Fin 32) (s : State) : Out :=
  let r := vget s.field.reflexes e.val Reflex.reset
  match r.pulse with
  | none => ok s
  | some t =>
    let q := untilMono (t + 5 * bits r.ctl 38 7) s
    ok (updateField { q with field := { q.field with reflexes := vmod q.field.reflexes e.val (fun x => { x with pulse := none }) } })

/-! ### Input times (R304, R305, R315, R317) -/

/-- The value of a counter slot at Tin, and a counter whose slot saturates (R315). -/
def slotAtTin (tin : Word) (k : Nat) (s : State) : State :=
  let c := counterAt s k
  match counterMode s k with
  | 6 =>
    let span := match c.lastT with
      | some l => if 2 ≤ c.edges then (l - c.firstT).setWidth 32 else 0
      | none => 0
    modCounter k (fun x => { x with slot := BitVec.ofNat 32 c.edges, span := span, edges := 0, firstT := 0, lastT := none }) s
  | 7 =>
    let p := match c.lastT, c.prevT with
      | some l, some b => (l - b).toNat
      | _, _ => 0
    let e := match c.lastT with
      | some l => (tin - l).toNat
      | none => 0
    let q := modCounter k (fun x => { x with slot := BitVec.ofNat 32 (satTo 32 (max p e)) }) s
    if 2 ^ 32 - 1 ≤ max p e then counterSat k q else q
  | _ => s

/-- Counter slot k of the sample set (R305, R310). -/
def slotValue (s : State) (k : Nat) : BitVec 32 :=
  if k % 2 = 1 && counterMode s (k - 1) == 6 then (counterAt s (k - 1)).span
  else
    let c := counterAt s k
    if 6 ≤ bits c.cfg 2 0 then c.slot else c.value

/-- The sample set (R305). -/
def sampleSet (n : Nat) (tin : Word) (s : State) : List Byte :=
  let f := s.field
  let ncnt := bits f.map 51 46
  let flt := flagsOf (fun (c : Channel) => c.ocf || c.otf) f.channels.toList
  let groups := (enumFrom 0 f.groups.toList).foldl (fun w x =>
    w ||| ((flag 0 x.2.uv ||| flag 1 x.2.sag ||| flag 2 x.2.fault ||| flag 3 (x.2.lplus != .absent)) <<< (8 * x.1))) 0
  let ana := (enumFrom 0 f.analogs.toList).foldl (fun w x => w ||| field (16 * x.1) (if x.2.valid then x.2.last else 0)) 0
  let head := bytesOfWords [filtWord f ||| (flt <<< 32), groups ||| field 32 (n % 2 ^ 32), ana, tin]
  let counts := (List.range (2 * ceilDiv ncnt 2)).flatMap (fun k =>
    bytesOfNat 4 (if k < ncnt then (slotValue s k).toNat else 0))
  let latches := (f.latches.toList.take (bits f.map 55 52)).flatMap (fun u =>
    bytesOfWords [u.t, field 0 u.lcount.toNat ||| field 32 u.capval.toNat])
  let all := head ++ counts ++ latches
  fitBytes (64 * ceilDiv all.length 64) all

/-- FIELD_INPUT_TIME: at Tin the sample set is taken and written to each Market of SMASK (R304, R305, R315, R317). -/
def execFieldInputTime (s : State) : Out :=
  match s.field.tinDue with
  | none => ok s
  | some t =>
    let q := untilT t s
    let tin : Word := field 0 t
    let n := (t - bits q.field.tcfg 30 16) / 31250
    let q := forEach (List.range 32) (slotAtTin tin) q
    let data := sampleSet n tin q
    let q := { q with field := { q.field with
      tinDue := none, latches := q.field.latches.map (fun u => { u with captured := false }) } }
    ok (forEach allMarkets (fun m q =>
      if bit q.field.map m.val then
        bankAsk m (.fieldSample [(imageBase m.val + bits q.field.map 21 4, data)]) data.length q
      else q) q)

/-! ### Output times (R306 to R309, R312, R321, R323, R325, R326) -/

/-- FIELD_GATHER_START: OGLEAD before an output time the output block is gathered (R303, R307, R308). -/
def execFieldGatherStart (s : State) : Out :=
  match s.field.gatherDue with
  | none => ok s
  | some t =>
    let q := untilT t s
    let m : MarketId := Fin.ofNat 4 (bits q.field.map 23 22)
    let n := 16 + 16 * bits q.field.map 45 42
    ok (bankAsk m (.gather .field [(bits q.field.map 41 24, n)]) n
      { q with field := { q.field with gatherDue := none, gathering := some (t + bits q.field.tcfg 60 46), gathered := none } })

/-- The generator command of a slot of the output block (R323). -/
def takeCommand (data : List Byte) (i : Nat) (s : State) : State :=
  let sha := wordAt data (16 + 16 * i)
  let shb := wordAt data (24 + 16 * i)
  let seq := bits sha 31 16
  match (List.range 32).find? (fun c => bits (channelAt s c).cfg 32 29 == i + 1) with
  | none => s
  | some c =>
    if vget s.field.lastSeq i none == some seq || (channelAt s c).pend.isSome then s
    else armSet c seq (setOf sha shb) true { s with field := { s.field with lastSeq := vset s.field.lastSeq i (some seq) } }

/-- The output block of a gather in time takes effect: levels and enables, counter loads, generator commands (R306, R308, R312, R323). -/
def takeBlock (data : List Byte) (s : State) : State :=
  let w := wordAt data 0
  let q := forEach (List.range 32) (fun c q => modChannel c (fun x => { x with imageOn := bit w c }) q) s
  let q := forEach (List.range 32) (fun k q => if bit w (32 + k) then loadCounter k q else q) q
  let q := forEach (List.range (bits q.field.map 45 42)) (takeCommand data) q
  { q with field := { q.field with gathered := none, lateRun := false, out := w.setWidth 32 } }

/-- A late gather: counted, and the first one of a run reported (R308). -/
def lateGather (s : State) : State :=
  let q := { s with field := { s.field with
    glate := (s.field.glate + 1) % 2 ^ 64, lateRun := true, gathering := none, gathered := none } }
  if s.field.lateRun then q else raise q 0x0500 1

/-- FIELD_OUTPUT_TIME: every output channel takes its source's value, cleared faults are over, and generators with HOSEL = 0 are handed over (R306, R308, R312, R321 to R323, R326, R328). -/
def execFieldOutputTime (s : State) : Out :=
  match s.field.toutDue with
  | none => ok s
  | some t =>
    let q := untilT t s
    let q := { q with field := { q.field with toutDue := none }, red := { q.red with lingering := false } }
    let q := match q.field.gathered with
      | some d => takeBlock d q
      | none => lateGather q
    let q := { q with field := { q.field with channels := q.field.channels.map (fun c => { c with relatch := false }) } }
    let q := forEach (List.range 32) (fun c q =>
      let x := channelAt q c
      if isOutput x && outSrc x == 3 && !bit x.cfg 28 then handOver c q else q) q
    ok (updateField q)

/-- STAGGERED_SWITCH: 1 us after the last slot the next C deferred switches change (R325). -/
def execStaggeredSwitch (s : State) : Out :=
  if s.field.deferred.isEmpty then ok s
  else
    let q := untilMono s.field.deferAt s
    let now := q.field.deferred.take (switchLimit q)
    let q := { q with field := { q.field with
      deferred := q.field.deferred.drop (switchLimit q), deferAt := q.mono + 1000 } }
    ok (forEach now (fun d q => if heldOpen q d.1 then q else setSwitch d.1 d.2 q) q)

/-! ### Protection (R326 to R328) -/

/-- OUTPUT_TRIP: a switch opens on over-current or over-temperature (R326). -/
def execOutputTrip (c : Fin 32) (thermal : Bool) (s : State) : Out :=
  let x := channelAt s c.val
  if isOutput x && x.on then
    let q := modChannel c.val (fun y => { y with
      ocf := y.ocf || !thermal, otf := y.otf || thermal, tripAt := some s.mono }) s
    ok (updateField (raise q 0x0505 2 (field 0 c.val) (flag 0 (!thermal) ||| flag 1 thermal)))
  else ok s

/-- OUTPUT_RETRY: with RETRY = 1 the switch follows its source again 10 ms after the trip (R326). -/
def execOutputRetry (c : Fin 32) (s : State) : Out :=
  let x := channelAt s c.val
  match x.tripAt, bit x.cfg 27 with
  | some t, true => ok (updateField (modChannel c.val (fun y => { y with tripAt := none }) (untilMono (t + 10000000) s)))
  | _, _ => ok s

/-- Software clears OCF and OTF: with both 0 a latched trip ends at the next output time (R326). -/
def clearTrip (c : Nat) (v : Word) (s : State) : State :=
  updateField (modChannel c (fun x =>
    let o := x.ocf && !bit v 2
    let t := x.otf && !bit v 3
    let cooled := x.tripAt.isSome && !o && !t && !bit x.cfg 27
    { x with ocf := o, otf := t, tripAt := if cooled then none else x.tripAt, relatch := x.relatch || cooled }) s)

/-- LPLUS_UV_CHANGE: L+ of a group crosses a threshold of its comparators (R327). Levels: absent, below cut-off, below the UV thresholds, good. -/
def execLplusUvChange (g : Fin 4) (level : Fin 4) (s : State) : Out :=
  let l : Lplus := match level.val with
    | 0 => .absent
    | 1 => .belowCutoff
    | 2 => .low
    | _ => .good
  let x := groupAt s g.val
  let uv := l != .good
  let q := modGroup g.val (fun y => { y with
    lplus := l, uv := uv
    uvSince := if uv && !x.uv then s.mono else y.uvSince
    minCode := if uv && !x.uv then none else y.minCode
    sagRun := uv && x.sagRun
    cutSince := if belowCutoff { x with lplus := l } then (match x.cutSince with
      | some t => some t
      | none => some s.mono) else none }) s
  if x.uv && !uv && x.sagRun then
    ok (raise q 0x0507 0 (field 0 g.val) (field 0 (s.mono - x.uvSince)) (match x.minCode with
      | some c => field 0 c ||| flag 16 true
      | none => 0))
  else ok q

/-- FIELD_SAG: UV has been 1 for 200 us without a break (R327). -/
def execFieldSag (g : Fin 4) (s : State) : Out :=
  let x := groupAt s g.val
  if x.uv && !x.sagRun then
    let q := untilMono (x.uvSince + 200000) s
    ok (raise (modGroup g.val (fun y => { y with sag := true, sagRun := true }) q) 0x0506 1 (field 0 g.val))
  else ok s

/-- FIELD_CUTOFF: L+ below cut-off for 5 us while armed opens every output of the group (R327, R328). -/
def execFieldCutoff (g : Fin 4) (s : State) : Out :=
  let x := groupAt s g.val
  match x.cutSince with
  | some t =>
    if s.ctl.armed && groupHasOutput s g.val && !x.fault then
      let q := untilMono (t + 5000) s
      ok (raise (updateField (modGroup g.val (fun y => { y with fault := true }) q)) 0x0508 2 (field 0 g.val))
    else ok s
  | none => ok s

/-- A write of FIO.GRPg.STAT: SAG and CLRREF are cleared by 1, FAULT only while UV = 0 (R328). -/
def writeGroup (g : Nat) (v : Word) (s : State) : State :=
  let x := groupAt s g
  let refused := bit v 2 && x.uv
  let cleared := bit v 2 && !x.uv && x.fault
  let q := modGroup g (fun y => { y with
    sag := y.sag && !bit v 1, fault := y.fault && !cleared, clrref := (y.clrref && !bit v 4) || refused }) s
  if cleared then
    updateField (forEach (List.range 8) (fun i q => modChannel (8 * g + i) (fun c => { c with relatch := isOutput c }) q) q)
  else q

/-- GROUP_FAULT_CLEAR: a write of the group's status register (R328). -/
def execGroupFaultClear (g : Fin 4) (val : Word) (s : State) : Out := ok (writeGroup g.val val s)

/-! ### Analog inputs (R329 to R331) -/

/-- An analog input. -/
def analogAt (s : State) (k : Nat) : Analog := vget s.field.analogs k Analog.reset

/-- One analog input changed. -/
def modAnalog (k : Nat) (f : Analog → Analog) (s : State) : State :=
  { s with field := { s.field with analogs := vmod s.field.analogs k f } }

/-- A sample is taken now; its time-stamp is `t` (R330). -/
def takeSample (k : Nat) (t : Word) (s : State) : State :=
  modAnalog k (fun a => { a with sampling := some t, sampledAt := some s.mono }) s

/-- A trigger of a MODE 2 input, dropped within 4 us of the previous sampling instant; the sample follows 30 to 40 ns later (R283, R330). -/
def analogTrigger (k : Nat) (s : State) : State :=
  let a := analogAt s k
  if bits a.cfg 5 4 ≠ 2 then s
  else if (match a.sampledAt with
    | some t => decide (s.mono < t + 4000)
    | none => false) then modAnalog k (fun x => { x with tdrop := true }) s
  else
    let r := freshWord s
    takeSample k (localT s + 30 + field 0 (r.1.toNat % 11)) r.2

/-- ANALOG_SAMPLE: the sampling instant of an input in MODE 1, every 4 us, or in MODE 3, 3.6 us before a due Tin (R330). -/
def execAnalogSample (k : Fin 4) (s : State) : Out :=
  let a := analogAt s k.val
  match bits a.cfg 5 4 with
  | 1 =>
    let due := match a.sampledAt with
      | some t => max a.since (t + 4000)
      | none => a.since
    let q := untilMono due s
    ok (takeSample k.val (localT q) q)
  | 3 =>
    (match s.field.tinDue with
    | some t =>
      let q := untilT (t - 3600) s
      ok (takeSample k.val (field 0 (t - 3600)) q)
    | none => ok s)
  | _ => ok s

/-- A 16-bit code compared under the range of the input: a number that rises with the code (R329, R331). -/
def codeRank (a : Analog) (c : Nat) : Nat :=
  if bits a.cfg 2 0 = 0 && !bit a.cfg 3 then (c + 32768) % 65536 else c

/-- ANALOG_CONVERSION_DONE: a result is clamped to its range and stored (R329, R331). -/
def execAnalogConversionDone (k : Fin 4) (code : Int) (s : State) : Out :=
  let a := analogAt s k.val
  match a.sampling with
  | none => ok s
  | some t =>
    let signed := bits a.cfg 2 0 = 0 && !bit a.cfg 3
    let lo : Int := if signed then -32768 else 0
    let hi : Int := if signed then 32767 else 65535
    let v := max lo (min hi code)
    let c := (v % 65536).toNat
    let q := modAnalog k.val (fun x => { x with
      last := c, valid := true, lastt := t, sampling := none, ovr := x.ovr || v != code, mmvalid := true
      min := if !x.mmvalid || codeRank a c < codeRank a x.min then c else x.min
      max := if !x.mmvalid || codeRank a x.max < codeRank a c then c else x.max }) s
    let src := bits a.cfg 2 0
    if src = 0 || bits a.cfg 5 4 ≠ 1 then ok q
    else ok (modGroup (src - 1) (fun g => { g with
      minCode := if g.uv then some (match g.minCode with
        | some m => min m c
        | none => c) else g.minCode }) q)

/-- ANA_MMCLR: a write of 1 restarts MIN and MAX (R331). -/
def execAnaMmclr (k : Fin 4) (val : Word) (s : State) : Out :=
  ok (if bit val 0 then modAnalog k.val (fun x => { x with mmvalid := false }) s else s)

/-! ### The FIO and ANA registers (R298, R332) -/

/-- The block counters set to 0 (R332). -/
def clearFieldCounts (s : State) : State := { s with field := { s.field with glate := 0, stagger := 0 } }

/-- FIO_CNTCLR: a write of 1 clears GLATE and STAGGER (R332). -/
def execFioCntclr (val : Word) (s : State) : Out := ok (if bit val 0 then clearFieldCounts s else s)

/-- A write of the field configuration: discarded with CFGARM while ARMED = 1 (R298). -/
def whileDisarmed (f : State → State) (s : State) : State :=
  if s.ctl.armed then { s with field := { s.field with cfgarm := true } } else f s

/-- FIO.TCFG with its relation between FPHASE and FPER_M1 (R302, R546). -/
def writeTcfg (v : Word) (s : State) : State :=
  let old := s.field.tcfg
  let fits := bits v 15 8 < bits v 7 0 + 1
  let v1 := if fits then v else putBits v 15 0 (bits old 15 0)
  judged old v1 [anyField 15 0, { hi := 30, lo := 16, good := fun x => x ≤ 31249 }, { hi := 45, lo := 31, good := fun x => x ≤ 31249 },
    { hi := 60, lo := 46, good := fun x => 200 ≤ x && x ≤ 31249 }]
    (fun w q => when_ (!decide fits) reservedWrite { q with field := { q.field with tcfg := w } }) s

/-- A write of a channel register: 0 CFG, 1 STAT, 2 SHA, 3 SHB, 4 ARM, 5 PSTAT (R296, R322, R324, R326). -/
def writeChannel (c r : Nat) (v : Word) (s : State) : State :=
  let x := channelAt s c
  let shadow (f : State → State) (q : State) : State :=
    if x.pend.isSome then modChannel c (fun y => { y with busy := true }) q else f q
  match r with
  | 0 => whileDisarmed (judged x.cfg v [anyField 28 0, { hi := 32, lo := 29, good := fun g => g ≤ 8 }]
      (fun w q => updateField (modChannel c (fun y => { y with cfg := w }) q))) s
  | 1 => clearTrip c v s
  | 2 => shadow (judged x.sha v [anyField 15 0, anyField 63 32] (fun w q => modChannel c (fun y => { y with sha := w }) q)) s
  | 3 => shadow (modChannel c (fun y => { y with shb := v })) s
  | 4 => writeArm c v s
  | _ => modChannel c (fun y => { y with busy := y.busy && !bit v 33, rej := y.rej && !bit v 34 }) s

/-- A write of a counter register: 0 CFG, 1 VALUE, 2 PRESET, 3 CMP, 4 LOAD, 5 STAT (R310, R314). -/
def writeCounter (k r : Nat) (v : Word) (s : State) : State :=
  match r with
  | 0 => whileDisarmed (fun q => modCounter k (fun c =>
      if bits v 2 0 = bits c.cfg 2 0 then { c with cfg := putBits 0 5 0 (bits v 5 0) }
      else { c with cfg := putBits 0 5 0 (bits v 5 0), edges := 0, firstT := 0, lastT := none, prevT := none, slot := 0, span := 0 }) q) s
  | 2 => modCounter k (fun c => { c with preset := v.setWidth 32 }) s
  | 3 => modCounter k (fun c => { c with cmp := v.setWidth 32 }) s
  | 4 => if bit v 0 then loadCounter k s else s
  | 5 => modCounter k (fun c => { c with
      wrap := c.wrap && !bit v 0, sat := c.sat && !bit v 1, qerr := c.qerr && !bit v 2, cmphit := c.cmphit && !bit v 3 }) s
  | _ => s

/-- A write of a latch register: 0 CFG, 1 IGN (R316). -/
def writeLatch (j r : Nat) (v : Word) (s : State) : State :=
  if r = 1 then clearIgn j s
  else
    let u := vget s.field.latches j LatchUnit.reset
    whileDisarmed (judged u.cfg v [anyField 5 0, { hi := 7, lo := 6, good := fun x => x != 0 }, anyField 14 8]
      (fun w q => { q with field := { q.field with latches := vmod q.field.latches j (fun x => { x with cfg := w }) } })) s

/-- A write of a reflex register: 0 MASK, 1 CTL (R319). -/
def writeReflex (e r : Nat) (v : Word) (s : State) : State :=
  let u := vget s.field.reflexes e Reflex.reset
  let set_ (f : Reflex → Reflex) (q : State) : State :=
    updateField { q with field := { q.field with reflexes := vmod q.field.reflexes e f } }
  if r = 0 then whileDisarmed (set_ (fun x => { x with mask := v })) s
  else whileDisarmed (judged u.ctl v [anyField 6 0, { hi := 38, lo := 7, good := fun x => x != 0 }]
    (fun w q => set_ (fun x => { x with ctl := w }) q)) s

/-- A write to the FIO block (R298 to R332). -/
def writeFio (o : Nat) (v : Word) (s : State) : State :=
  let f := s.field
  match o with
  | 0x00 => whileDisarmed (writeTcfg v) s
  | 0x08 => whileDisarmed (judged f.map v [anyField 3 0, { hi := 21, lo := 4, good := fun x => x % 64 == 0 }, anyField 23 22,
      { hi := 41, lo := 24, good := fun x => x % 64 == 0 }, { hi := 45, lo := 42, good := fun x => x ≤ 8 },
      { hi := 51, lo := 46, good := fun x => x ≤ 32 }, { hi := 55, lo := 52, good := fun x => x ≤ 8 }]
      (fun w q => { q with field := { q.field with map := w } })) s
  | 0x10 => whileDisarmed (fun q => { q with field := { q.field with pcfg := bits v 1 0 } }) s
  | 0x18 => { s with field := { f with nogrant := f.nogrant && !bit v 2, cfgarm := f.cfgarm && !bit v 3 } }
  | 0x30 => if bit v 0 then snapCounters s else s
  | 0x38 => if bit v 0 then clearFieldCounts s else s
  | _ =>
    match slotOf 0x40 8 4 o with
    | some g => writeGroup g v s
    | none => match slotOf 0x80 8 16 o with
    | some i => writeLatch (i / 2) (i % 2) v s
    | none => match slotOf 0x100 8 64 o with
    | some i => writeReflex (i / 2) (i % 2) v s
    | none => match slotOf 0x400 8 192 o with
    | some i => writeChannel (i / 6) (i % 6) v s
    | none => match slotOf 0xA00 8 192 o with
    | some i => writeCounter (i / 6) (i % 6) v s
    | none => s

/-- A write to the ANA block (R298, R330, R331). -/
def writeAna (o : Nat) (v : Word) (s : State) : State :=
  let k := o / 0x40
  let a := analogAt s k
  if 4 ≤ k then s
  else match o % 0x40 / 8 with
    | 0 => whileDisarmed (judged a.cfg v [{ hi := 2, lo := 0, good := fun x => x ≤ 4 }, anyField 5 3]
        (fun w q => modAnalog k (fun x => { x with cfg := w, since := if w = x.cfg then x.since else q.mono }) q)) s
    | 4 => modAnalog k (fun x => { x with ovr := x.ovr && !bit v 0, tdrop := x.tdrop && !bit v 1 }) s
    | 5 => if bit v 0 then modAnalog k (fun x => { x with mmvalid := false }) s else s
    | _ => s

/-- The field configuration at its reset values, then the entries of a list written in order (R298). -/
def loadFieldConfig (l : List (Nat × Word)) (s : State) : State :=
  forEach l (fun x q => if 4096 ≤ x.1 then writeAna (x.1 - 4096) x.2 q else writeFio x.1 x.2 q) s

end Sys2Proof.Machine
end

