-- ==== Sys2Proof/Machine/Image.lean ====
section
/-!
DEFINITION. Images as byte strings: the wrapper and its acceptance, segment directories, and the parts of a project with the checks of a load (R43, R48, R49, R55, R168, R169, R201, R206, R219 to R222, R256, R286 to R288, R298, R495, R496, R498, R575 to R577, R581).
-/
namespace Sys2Proof.Machine

/-- A check that failed: its status (R353, R519) and the result word that names the entry. -/
abbrev Bad := Option (Nat × Nat)

/-- The first failure of a list of checks. -/
def firstBad (l : List Bad) : Bad := (l.filterMap id).head?

/-- A status when a condition does not hold. -/
def need (c : Bool) (status : Nat) : Bad := if c then none else some (status, 0)

/-- A status with the index of the first element that breaks a rule; the rule sees the elements before it. -/
def needEach {α : Type} (p : List α → α → Bool) (status : Nat) (l : List α) : Bad :=
  ((List.range l.length).find? (fun i => match l[i]? with
    | some a => !p (l.take i) a
    | none => false)).map (fun i => (status, i))

/-- Half-open ranges do not meet. -/
def apart (a n b m : Nat) : Bool := decide (a + n ≤ b) || decide (b + m ≤ a) || n == 0 || m == 0

/-- A number is a multiple of another. -/
def mult (a n : Nat) : Bool := a % n == 0

/-! ### The wrapper (R495, R496) -/

/-- The header of an image wrapper (R495). -/
def wrapperOf (raw : List Byte) : Wrapper :=
  let w0 := wordAt raw 0
  let w1 := wordAt raw 8
  let w2 := wordAt raw 16
  { kind := bits w0 39 32, enc := bit w0 48, liveok := bit w0 49, revoke := bits w0 53 50, version := bits w1 31 0,
    secver := bits w1 47 32, compat := bits w1 63 48, bodylen := bits w2 31 0, signer := bits w2 39 32,
    keyslot := bits w2 47 40, id := wordAt raw 24, bodyhash := (raw.drop 32).take 32 }

/-- The body of an image as stored (R495). -/
def wrapperBody (raw : List Byte) : List Byte := (raw.drop 256).take (wrapperOf raw).bodylen

/-- Every field of a wrapper has a defined encoding for the kind a command expects (R495, R496 check 1). -/
def wrapperForm (kind : Nat) (raw : List Byte) : Bool :=
  let h := wrapperOf raw
  let w0 := wordAt raw 0
  decide (256 ≤ raw.length) && bits w0 31 0 == 0x96481A6E && h.kind == kind && bits w0 47 40 == 1 &&
    bits w0 63 54 == 0 && bits (wordAt raw 16) 63 48 == 0 && ((raw.drop 92).take 36).all (· == 0) &&
    decide (256 + h.bodylen ≤ raw.length) &&
    (if h.enc then decide (h.keyslot ≤ 3) else h.keyslot == 0) &&
    (if kind = 1 then decide (h.secver ≤ 63) && decide (h.signer ≤ 3)
     else !h.liveok && h.revoke == 0 && h.version == 0 && h.secver == 0 && h.compat == 0 &&
       (h.signer == 0 || h.signer == 1 || h.signer == 255))

/-- The hash of the key that SIGNER selects, when that key may sign (R496 check 2). -/
def signerHash (n : Nvs) (h : Wrapper) : Option (List Byte) :=
  if h.kind = 1 then
    if n.wrevoked.getLsbD h.signer then none else some (Config.worellKeyHash h.signer)
  else (vget n.pkh h.signer none)

/-- The signature of an image is good (R496 check 2). -/
def signatureGood (n : Nvs) (raw : List Byte) : Bool :=
  let h := wrapperOf raw
  let key := (raw.drop 192).take 64
  (match signerHash n h with
    | some k => sha256 key == k
    | none => false) &&
    Config.ecdsaVerify key (sha256 (raw.take 128 ++ key)) ((raw.drop 128).take 64) &&
    sha256 (wrapperBody raw) == h.bodyhash

/-- The AES key of a slot in its stored form: slot 0 holds the firmware key, slots 1 to 3 what a system record holds (R496, R500; log 28). -/
def storedKey (n : Nvs) (slot : Nat) : Option (List Byte) :=
  if slot = 0 then some Config.worellKey
  else ((nvsWinners n.records).find? (fun r => r.rtype == 0x0102 && r.rid == slot && !r.del)).map NvsRecord.payload

/-- The body in plain form (R496 check 4). -/
def plainBody (n : Nvs) (raw : List Byte) : Option (List Byte) :=
  let h := wrapperOf raw
  if h.enc then (storedKey n h.keyslot).bind (fun k =>
    Config.gcmOpen k ((raw.drop 64).take 12) (raw.take 64) (wrapperBody raw) ((raw.drop 76).take 16))
  else some (wrapperBody raw)

/-- Acceptance of an image of the kind a command expects: its plain body, or the status of the first failing check (R496). -/
def acceptImage (n : Nvs) (kind : Nat) (raw : List Byte) : Except Nat (List Byte) :=
  let h := wrapperOf raw
  if !wrapperForm kind raw then .error 0x87
  else if h.signer = 255 && n.reqsign then .error 0x90
  else if h.signer = 255 && !(sha256 (wrapperBody raw) == h.bodyhash) then .error 0x86
  else if h.signer ≠ 255 && !signatureGood n raw then .error 0x86
  else if kind = 1 && decide (h.secver < n.secver) then .error 0x88
  else match plainBody n raw with
    | some b => .ok b
    | none => .error 0x86

/-! ### Segment directories (R168, R498, R581) -/

/-- One directory entry with its body, when it breaks no rule of the directory table; `top` is the highest STYPE. -/
def segmentAt (body : List Byte) (top : Nat) (at_ : Nat) : Option Segment :=
  let a := wordAt body at_
  let b := wordAt body (at_ + 8)
  let ty := bits a 7 0
  let off := bits b 31 0
  let len := bits b 63 32
  let k := bits a 13 10
  let m := bits a 9 8
  let okType := decide (1 ≤ ty) && decide (ty ≤ top)
  let okPlace :=
    if ty = 1 then m == k / 4
    else if ty = 3 || ty = 4 || ty = 6 then k == 0
    else if ty = 7 then m == 0 && decide (k < 8)
    else m == 0 && k == 0
  if okType && okPlace && bits a 63 14 == 0 && mult off 8 && mult len 8 && decide (off + len ≤ body.length) then
    some { stype := ty, market := Fin.ofNat 4 m, stall := Fin.ofNat 16 k, body := (body.drop off).take len }
  else none

/-- The program-store range that a CODE segment writes (R168). -/
def codeRange (g : Segment) : Nat × Nat := ((wordAt g.body 0).toNat, g.body.length - 8)

/-- A CODE segment lies inside the program store, from a multiple of 4 (R168). -/
def codeForm (g : Segment) : Bool :=
  decide (8 ≤ g.body.length) && mult (codeRange g).1 4 && decide ((codeRange g).1 + (codeRange g).2 ≤ 2 ^ 20)

/-- Two segments may stand in one directory (R581). -/
def segsAgree (g h : Segment) : Bool :=
  if g.stype ≠ h.stype then true
  else match g.stype with
    | 1 => g.stall != h.stall || apart (codeRange g).1 (codeRange g).2 (codeRange h).1 (codeRange h).2
    | 3 => g.market != h.market
    | 4 => g.market != h.market
    | 6 => g.market != h.market
    | 7 => g.stall != h.stall
    | _ => false

/-- The segments of a directory of `n` entries at offset 64, or none where it breaks R168 or R581. -/
def directory (body : List Byte) (n top : Nat) : Option (List Segment) :=
  let l := (List.range n).filterMap (fun i => segmentAt body top (64 + 16 * i))
  if l.length = n && decide (64 + 16 * n ≤ body.length) &&
      (needEach (fun before g => before.all (segsAgree g)) 1 l).isNone && l.all (fun g => g.stype != 1 || codeForm g)
  then some l else none

/-- The bodies of all segments of a type. -/
def segsOf (l : List Segment) (ty : Nat) : List Segment := l.filter (fun g => g.stype == ty)

/-- The body of the one segment of a type, empty when absent. -/
def bodyOf (l : List Segment) (ty : Nat) : List Byte :=
  match l.find? (fun g => g.stype == ty) with
  | some g => g.body
  | none => []

/-- The body of a Market's segment of a type. -/
def bodyFor (l : List Segment) (ty : Nat) (m : MarketId) : Option (List Byte) :=
  (l.find? (fun g => g.stype == ty && g.market == m)).map Segment.body

/-! ### The task table (R43, R48, R49) -/

/-- One task table entry as its fields (R48). -/
def taskEntryOf (b : List Byte) : TaskEntry :=
  let w (i : Nat) : Word := wordAt b (8 * i)
  { id := BitVec.ofNat 7 (bits (w 0) 6 0), event := bit (w 0) 7, runahead := bit (w 0) 8, stopOff := bit (w 0) 9,
    prio := bits (w 0) 15 12, stall := Fin.ofNat 16 (bits (w 0) 19 16), market := Fin.ofNat 4 (bits (w 0) 21 20),
    faultReact := bits (w 0) 26 24, ovrlim := bits (w 0) 39 32, periodM1 := bits (w 1) 19 0, phase := bits (w 1) 39 20,
    trigSrc := bits (w 2) 3 0, trigIndex := bits (w 2) 11 4, trigEdge := bits (w 2) 13 12, inOff := bits (w 3) 17 0,
    inLen := bits (w 3) 35 18, outOff := bits (w 3) 53 36, outLen := bits (w 4) 17 0, entry := bits (w 5) 19 0,
    instOff := bits (w 6) 21 0, instLen := bits (w 6) 44 22 }

/-- No reserved field of an entry holds a value other than 0 (R48). -/
def taskReserved (b : List Byte) : Bool :=
  let w (i : Nat) : Word := wordAt b (8 * i)
  bits (w 0) 11 10 == 0 && bits (w 0) 23 22 == 0 && bits (w 0) 31 27 == 0 && bits (w 0) 63 40 == 0 &&
    bits (w 1) 63 40 == 0 && bits (w 2) 63 14 == 0 && bits (w 3) 63 54 == 0 && bits (w 4) 63 18 == 0 &&
    bits (w 5) 63 20 == 0 && bits (w 6) 63 45 == 0 && w 7 == 0

/-- An entry keeps the limits of R43 and the encodings of R48, apart from other entries. -/
def taskForm (e : TaskEntry) : Bool :=
  decide (e.id.toNat ≤ 95) && marketOf e.stall == e.market && decide (e.faultReact ≤ 3) && mult e.entry 4 &&
    mult e.instOff 64 && mult e.instLen 64 && decide (64 ≤ e.instLen) && decide (e.instOff + e.instLen ≤ 2 ^ 22) &&
    mult e.outOff 64 && mult e.outLen 64 && decide (e.outOff + e.outLen ≤ 2 ^ 18) && decide (e.outLen ≤ 32768) &&
    (if e.event then
      !e.runahead && e.periodM1 == 0 && e.phase == 0 && e.inOff == 0 && e.inLen == 0 && e.outLen == 64 &&
        (match e.trigSrc with
        | 1 => decide (e.trigIndex < 32) && e.trigEdge != 0
        | 2 => decide (e.trigIndex < 32) && e.trigEdge == 0
        | 3 => decide (e.trigIndex < 64) && e.trigEdge == 0
        | _ => false)
    else
      e.trigSrc == 0 && e.trigIndex == 0 && e.trigEdge == 0 && decide (e.phase < e.periodM1 + 1) &&
        mult e.inOff 64 && mult e.inLen 64 && decide (e.inLen ≤ 98304) && decide (e.inOff + e.inLen ≤ 2 ^ 18))

/-- An entry agrees with the entries before it: unique TASK_ID, one kind per Stall, output sections apart, and the numbers of R43. -/
def taskAgrees (before : List TaskEntry) (e : TaskEntry) : Bool :=
  let l := e :: before
  let count (p : TaskEntry → Bool) : Nat := (l.filter p).length
  before.all (fun x => x.id != e.id && (x.stall != e.stall || x.event == e.event) &&
    (x.market != e.market || apart x.outOff x.outLen e.outOff e.outLen)) &&
    decide (count (fun x => !x.event) ≤ 64) && decide (count TaskEntry.event ≤ 32) &&
    decide (count (fun x => x.stall == e.stall) ≤ (if e.event then 8 else 16))

/-- The 64-byte pieces of a table. -/
def slices (n : Nat) (b : List Byte) : List (List Byte) := (List.range (b.length / n)).map (fun i => (b.drop (n * i)).take n)

/-- The entries of a task table (R48). -/
def taskTable (b : List Byte) : List TaskEntry := (slices 64 b).map taskEntryOf

/-- The check of a task table: TASKTAB_INVALID with the first failing entry (R49). -/
def checkTasks (b : List Byte) : Bad :=
  if !mult b.length 64 then some (0x20, b.length / 64)
  else needEach (fun before x => taskReserved x && taskForm (taskEntryOf x) && taskAgrees (before.map taskEntryOf) (taskEntryOf x))
    0x20 (slices 64 b)

/-- The entry of a task in a table. -/
def entryIn (l : List TaskEntry) (id : TaskId) : Option TaskEntry := l.find? (fun e => e.id == id)

/-! ### Routes and retentive regions (R55, R575, R576) -/

/-- A route from its entry (R575). -/
def routeOf (b : List Byte) : Route :=
  let a := wordAt b 0
  let c := wordAt b 8
  { srcTask := BitVec.ofNat 7 (bits a 6 0), dstMkt := Fin.ofNat 4 (bits a 9 8), len := bits a 28 16,
    srcOff := bits c 17 0, dstOff := bits c 35 18 }

/-- The routes of a ROUTES segment. -/
def routeTable (b : List Byte) : List Route := (slices 16 b).map routeOf

/-- A route entry keeps R575 and its source section. -/
def routeForm (tasks : List TaskEntry) (b : List Byte) : Bool :=
  let r := routeOf b
  let a := wordAt b 0
  !bit a 7 && bits a 15 10 == 0 && bits a 63 29 == 0 && bits (wordAt b 8) 63 36 == 0 && mult r.len 64 &&
    decide (64 ≤ r.len) && decide (r.len ≤ 4096) && mult r.srcOff 64 && mult r.dstOff 64 &&
    decide (r.dstOff + r.len ≤ 2 ^ 18) &&
    (match entryIn tasks r.srcTask with
    | some e => decide (e.outOff ≤ r.srcOff) && decide (r.srcOff + r.len ≤ e.outOff + e.outLen)
    | none => false)

/-- Ranges of input halves, as Market, offset and length, that a network engine or the field sequencer writes. -/
abbrev Ranges := List (Nat × Nat × Nat)

/-- A range meets none of a list (R55, R288). -/
def clear (l : Ranges) (m off len : Nat) : Bool := l.all (fun x => x.1 != m || apart x.2.1 x.2.2 off len)

/-- The check of a route table: ROUTE_INVALID with the first failing entry (R55, R575). -/
def checkRoutes (tasks : List TaskEntry) (written : Ranges) (b : List Byte) : Bad :=
  if !mult b.length 16 || decide (512 < b.length) then some (0x21, min (b.length / 16) 32)
  else needEach (fun before x =>
    let r := routeOf x
    routeForm tasks x && clear written r.dstMkt.val r.dstOff r.len &&
      before.all (fun y => (routeOf y).dstMkt != r.dstMkt || apart (routeOf y).dstOff (routeOf y).len r.dstOff r.len))
    0x21 (slices 16 b)

/-- A retentive region from its entry (R576). -/
def regionOf (w : Word) : Region := { market := Fin.ofNat 4 (bits w 23 22), offset := bits w 21 0, length := bits w 44 24 }

/-- A retentive region as its entry (R492, R576). -/
def regionWord (r : Region) : Word := field 0 r.offset ||| field 22 r.market.val ||| field 24 r.length

/-- The regions of a RETREG segment. -/
def regionList (b : List Byte) : List Region := (wordsOfBytes b).map regionOf

/-- A region list keeps R576. -/
def regionsForm (m : MarketId) (b : List Byte) : Bool :=
  decide (b.length ≤ 128) && (needEach (fun before w =>
    let r := regionOf w
    bits w 63 45 == 0 && r.market == m && mult r.offset 64 && mult r.length 64 && decide (64 ≤ r.length) &&
      decide (r.length ≤ 2 ^ 20) && decide (r.offset + r.length ≤ 2 ^ 22) &&
      before.all (fun x => apart (regionOf x).offset (regionOf x).length r.offset r.length)) 1 (wordsOfBytes b)).isNone

/-- All regions together hold at most 1 MB (R43). -/
def regionsFit (l : List Region) : Bool := decide ((l.foldl (fun n r => n + r.length) 0) ≤ 2 ^ 20)

/-! ### Layout maps and initial values (R168, R169) -/

/-- An instance entry (R169). -/
def instOf (b : List Byte) : Inst :=
  let w2 := wordAt b 16
  let w3 := wordAt b 24
  { ikey := wordAt b 0, tkey := wordAt b 8, offset := bits w2 21 0, length := bits w2 44 22, kind := bits w2 47 45,
    output := bit w2 48, task := bits w2 55 49, nmemb := bits w3 15 0, midx := bits w3 47 16 }

/-- A member entry (R169). -/
def memberOf (b : List Byte) : Member :=
  { mkey := wordAt b 0, offset := bits (wordAt b 8) 15 0, width := bits (wordAt b 8) 19 16 }

/-- The layout map of a LAYOUT segment (R168). -/
def layoutOf (b : List Byte) : Layout :=
  let ni := bits (wordAt b 0) 31 0
  { insts := (slices 32 ((b.drop 8).take (32 * ni))).map instOf, members := (slices 16 (b.drop (8 + 32 * ni))).map memberOf }

/-- An instance entry holds no reserved encoding and no reserved bit (R169). -/
def instForm (nm : Nat) (b : List Byte) : Bool :=
  let i := instOf b
  bits (wordAt b 16) 63 56 == 0 && bits (wordAt b 24) 63 48 == 0 && decide (i.kind ≤ 4) && decide (i.nmemb ≤ 4096) &&
    decide (i.midx + i.nmemb ≤ nm) &&
    (if i.kind = 4 then
      i.tkey == 0 && decide (i.length ≤ 4) && mult i.offset (widthBits i.length) && decide (i.offset + widthBits i.length ≤ 2 ^ 21)
     else !i.output && mult i.length 8 && decide (i.offset + i.length ≤ 2 ^ 22) && (i.kind != 3 || i.tkey == 0))

/-- A member entry holds no reserved encoding and no reserved bit (R169). -/
def memberForm (b : List Byte) : Bool :=
  bits (wordAt b 8) 63 20 == 0 && [1, 2, 4, 8].contains (memberOf b).width

/-- A LAYOUT segment keeps R168 and R169. -/
def layoutForm (b : List Byte) : Bool :=
  let ni := bits (wordAt b 0) 31 0
  let nm := bits (wordAt b 0) 63 32
  b.length == 8 + 32 * ni + 16 * nm && (slices 32 ((b.drop 8).take (32 * ni))).all (instForm nm) &&
    (slices 16 (b.drop (8 + 32 * ni))).all memberForm

/-- The offset and bytes of every pair of an INIT segment, or none where it is cut short (R168). -/
def initPairs : Nat → List Byte → Option (List (Nat × List Byte))
  | 0, b => if b.isEmpty then some [] else none
  | fuel + 1, b =>
    if b.isEmpty then some []
    else
      let off := (wordAt b 0).toNat
      let len := (wordAt b 8).toNat
      let used := 16 + 8 * ceilDiv len 8
      if len = 0 || decide (b.length < used) || decide (2 ^ 22 < off + len) ||
          ((b.drop (16 + len)).take (used - 16 - len)).any (· != 0) then none
      else (initPairs fuel (b.drop used)).map (fun r => (off, (b.drop 16).take len) :: r)

/-- The pairs of an INIT segment, none when it is malformed. -/
def initsOf (b : List Byte) : List (Nat × List Byte) := (initPairs b.length b).getD []

/-! ### Axis records and cam tables (R201, R206, R219 to R222) -/

/-- TYPE, LEVEL and MASTER of an axis record (R205). -/
def recType (b : List Byte) : Nat := bits (wordAt b 0) 2 0

/-- LEVEL of an axis record (R205). -/
def recLevel (b : List Byte) : Nat := bits (wordAt b 0) 8 7

/-- The record of an axis number among the AXES segments of an image, empty when absent. -/
def recordOfAxis (l : List Segment) (axis : Nat) : List Byte :=
  match (segsOf l 7).find? (fun g => g.stall.val == axis / 128) with
  | some g => (g.body.drop (128 * (axis % 128))).take 128
  | none => []

/-- An axis record keeps R206; `mcyc1` says that its engine has MCYC = 1. -/
def axisForm (l : List Segment) (mcyc1 : Bool) (slot : Nat) (b : List Byte) : Bool :=
  let w0 := wordAt b 0
  let w1 := wordAt b 8
  let w10 := wordAt b 80
  let ty := recType b
  let servo := ty == 1 || ty == 2
  let regen := bit w0 9
  if ty = 0 then true
  else
    decide (ty ≤ 4) && bits w0 6 5 != 3 && bits w0 31 21 == 0 && bits w0 63 54 == 0 && bits w1 19 18 != 3 &&
      bits w1 63 48 == 0 && mult (bits w0 53 32) 128 && decide (bits w0 53 32 + 128 ≤ 2 ^ 22) && mult (bits w1 17 0) 8 &&
      wordAt b 40 != 0 && (bits w1 19 18 == 2 || wordAt b 72 == 0) && !(mcyc1 && decide (64 ≤ slot)) &&
      (if servo then
        let m := recordOfAxis l (bits w0 20 11)
        recType m != 0 && decide (recLevel m < recLevel b)
       else !regen) &&
      !(ty == 4 && bits w1 19 18 == 0) &&
      (!regen || (mult (bits w10 17 0) 8 && (bit w0 10 || bits w10 63 34 != 0)))

/-- MCYC of engine `e` as the REGS of an image set it, else as it stands (R198, R245). -/
def mcycFor (s : State) (regs : List (Nat × Word)) (e : Nat) : Nat :=
  match regs.find? (fun r => r.1 == 0x10100 + 8 * e) with
  | some r => bits r.2 4 0
  | none => bits (vget s.engines e Engine.reset).ecfg 4 0

/-- The check of the axis records: AXIS_INVALID with the axis number (R206). -/
def checkAxes (s : State) (regs : List (Nat × Word)) (l : List Segment) : Bad :=
  (minBy id ((segsOf l 7).flatMap (fun g =>
    let e := g.stall.val
    if !mult g.body.length 128 || decide (128 * 128 < g.body.length) then [128 * e]
    else ((enumFrom 0 (slices 128 g.body)).filter (fun x => !axisForm l (mcycFor s regs e == 1) x.1 x.2)).map
      (fun x => 128 * e + x.1)))).map (fun a => (0x22, a))

/-- The worst cost that the load check counts for an axis record (R201; which items apply is a DESIGN CHOICE, log 20). -/
def axisCost (b : List Byte) : Nat :=
  match recType b with
  | 0 => 0
  | 3 => 60
  | 4 => 120
  | _ => 220 + 24 + (if wordAt b 64 == 0 then 0 else 20)

/-- The hand-off bound of an engine's records, in units of 1/6 ns (R200, R201). -/
def handoffBound (b : List Byte) : Nat :=
  let rs := (slices 128 b).filter (fun r => recType r != 0)
  let levels := (rs.map recLevel).eraseDups.length
  7200 + (600 + 50 * (levels - 1) + rs.foldl (fun n r => n + axisCost r) 0) * 5

/-- The check of the motion deadline: MOT_TIMING (R201). -/
def checkTiming (s : State) (regs : List (Nat × Word)) (l : List Segment) : Bad :=
  let dl (e : Nat) : Nat := match regs.find? (fun r => r.1 == 0x10100 + 8 * e) with
    | some r => bits r.2 31 16
    | none => bits (vget s.engines e Engine.reset).ecfg 31 16
  need ((segsOf l 7).all (fun g => decide (handoffBound g.body ≤ dl g.stall.val * 60))) 0x23

/-- MULS of R221: the exact product shifted right by 32, wrapped to 64 bits. -/
def muls (a b : Word) : Word := wordOfInt (fdiv (sword a * sword b) (2 ^ 32))

/-- The cam polynomial of a segment at x (R221). -/
def camPoly (seg : List Byte) (x : Word) : Word :=
  let c (i : Nat) : Word := wordAt seg (8 * i)
  let t := c 6
  let t := c 5 + muls t x
  let t := c 4 + muls t x
  let t := c 3 + muls t x
  let t := c 2 + muls t x
  c 1 + muls t x

/-- Segments of a cam table (R220). -/
def camSegs (t : List Byte) : List (List Byte) := slices 64 ((t.drop 64).take (64 * bits (wordAt t 0) 13 0))

/-- A cam table holds no reserved encoding and its segments rise (R222). -/
def camForm (t : List Byte) : Bool :=
  let n := bits (wordAt t 0) 13 0
  let segs := camSegs t
  let start (g : List Byte) : Word := wordAt g 0
  decide (1 ≤ n) && decide (n ≤ 8192) && segs.length == n && bits (wordAt t 0) 63 15 == 0 && wordAt t 8 != 0 &&
    ((t.drop 24).take 40).all (· == 0) && segs.all (fun g => wordAt g 56 == 0) &&
    (match segs with
    | [] => false
    | g :: _ => start g == 0) &&
    (List.range (n - 1)).all (fun i => decide ((start (segs.getD i [])).toNat < (start (segs.getD (i + 1) [])).toNat)) &&
    decide ((start (segs.getD (n - 1) [])).toNat < (wordAt t 8).toNat)

/-- The two values differ by at most 256 LSB, modulo 2^64 (R222). -/
def near (a b : Word) : Bool := decide ((sword (a - b)).natAbs ≤ 256)

/-- The first segment of a cam table whose end value fails (R222). -/
def camBreak (t : List Byte) : Option Nat :=
  let segs := camSegs t
  let n := segs.length
  let g (i : Nat) : List Byte := segs.getD i []
  (List.range n).find? (fun i =>
    if i + 1 < n then !near (camPoly (g i) (wordAt (g (i + 1)) 0 - wordAt (g i) 0)) (wordAt (g (i + 1)) 8)
    else bit (wordAt t 0) 14 && !near (camPoly (g i) (wordAt t 8 - wordAt (g i) 0)) (wordAt (g 0) 8 + wordAt t 16))

/-- A table of a cam store image: its directory entry's offset, cut to its length (R219). -/
def camTableAt (b : List Byte) (camid : Nat) : Option (List Byte) :=
  let off := bits (wordAt b (8 * camid)) 20 0
  if off = 0 then none
  else some ((b.drop off).take (64 + 64 * bits (wordAt (b.drop off) 0) 13 0))

/-- The check of the cam store of an image (R219, R222). -/
def checkCams (b : List Byte) : Bad :=
  if b.isEmpty then none
  else
    let dir := (List.range 256).filterMap (camTableAt b)
    firstBad [
      need ((List.range 256).all (fun i =>
        let w := wordAt b (8 * i)
        let off := bits w 20 0
        bits w 63 21 == 0 && (off == 0 || (mult off 8 && decide (4096 ≤ off) && decide (off < b.length)))) &&
        decide (4096 ≤ b.length) && dir.all camForm) 0x41,
      need (dir.all (fun t => (camBreak t).isNone)) 0x42,
      need (decide (b.length ≤ 2 ^ 21) && decide ((dir.foldl (fun n t => n + (camSegs t).length) 0) ≤ 32704)) 0x43]

/-! ### The frame schedule and gate control lists (R256, R286 to R288, R577) -/

/-- A content entry, or none where it breaks R286 or R287. -/
def contentOf (w : Word) : Option Content :=
  match bits w 7 0 with
  | 1 =>
    let len := bits w 31 16
    let off := bits w 49 32
    if bits w 15 10 == 0 && bits w 63 50 == 0 && mult len 8 && decide (8 ≤ len) && decide (len ≤ 1472) && mult off 8 &&
        decide (off + len ≤ 2 ^ 18) then
      some (.image (bits w 9 8) len off)
    else none
  | 2 =>
    let f := bits w 41 35
    let n := bits w 49 42
    if bits w 31 8 == 0 && bits w 63 50 == 0 && decide (1 ≤ n) && decide (f + n ≤ 128) then some (.axis (bits w 34 32) f n)
    else none
  | _ => none

/-- Length of a block at its reserved length (R241, R286). -/
def contentLen : Content → Nat
  | .image _ len _ => 8 + len
  | .axis _ _ n => 8 + 8 * ceilDiv n 8 + 8 * n

/-- A schedule entry from its 32 bytes and the content words of the table (R287). -/
def schedOf (content : List Word) (b : List Byte) : SchedEntry :=
  let w0 := wordAt b 0
  let w1 := wordAt b 8
  let w2 := wordAt b 16
  let w3 := wordAt b 24
  { frameId := bits w0 11 0, rx := bit w0 12, port := bits w0 14 13, cb := bit w0 15, queue := bits w0 18 16,
    freshen := bit w0 19, periodM1 := bits w0 51 32, phase := bits w1 19 0, off := bits w1 34 20, off2 := bits w1 49 35,
    mac := bits w2 47 0, vid := bits w2 59 48, pcp := bits w2 62 60, freshBit := bits w3 20 0, freshMkt := bits w3 22 21,
    content := ((content.drop (bits w3 47 32)).take (bits w3 54 48)).filterMap contentOf, due := none, accepted := none,
    missRun := 0, gathers := 0, gathered := [], axisBlocks := [], built := none, prev := [], lateRun := false, cbSeq := 0,
    cbRecent := [] }

/-- The parts of a SCHED segment: entries, content words, and lists (R577). -/
def schedParts (b : List Byte) : List (List Byte) × List Word × List Byte :=
  let n := bits (wordAt b 0) 15 0
  let c := bits (wordAt b 0) 31 16
  (slices 32 ((b.drop 32).take (32 * n)), wordsOfBytes ((b.drop (32 + 32 * n)).take (8 * c)), b.drop (32 + 32 * n + 8 * c))

/-- The gate control lists of a SCHED segment with their ports, and the bytes left over (R577). -/
def gclsOf : Nat → List Byte → List (Nat × Gcl) × List Byte
  | 0, b => ([], b)
  | k + 1, b =>
    let n := bits (wordAt b 0) 24 16
    let es := (wordsOfBytes ((b.drop 32).take (8 * n))).map (fun w => (BitVec.ofNat 8 (bits w 7 0), bits w 39 8))
    let g : Nat × Gcl := (bits (wordAt b 0) 1 0, { cycle := bits (wordAt b 8) 29 0, base := wordAt b 16, entries := es })
    let r := gclsOf k (b.drop (32 + 8 * n))
    (g :: r.1, r.2)

/-- The gate control lists of a SCHED segment. -/
def gateLists (b : List Byte) : List (Nat × Gcl) := (gclsOf (bits (wordAt b 0) 34 32) (schedParts b).2.2).1

/-- The reserved fields of the list headers and entries are 0 (R256, R577). -/
def gclHeaders : Nat → List Byte → Bool
  | 0, b => b.isEmpty
  | k + 1, b =>
    let n := bits (wordAt b 0) 24 16
    let c := bits (wordAt b 8) 29 0
    let ws := wordsOfBytes ((b.drop 32).take (8 * n))
    decide (32 + 8 * n ≤ b.length) && decide (1 ≤ n) && decide (n ≤ 256) && bits (wordAt b 0) 15 2 == 0 &&
      bits (wordAt b 0) 63 25 == 0 && bits (wordAt b 8) 63 30 == 0 && wordAt b 24 == 0 && decide (1000 ≤ c) &&
      decide (c ≤ 10 ^ 9) && ws.all (fun w => bits w 63 40 == 0 && decide (20 ≤ bits w 39 8)) &&
      (ws.foldl (fun t w => t + bits w 39 8) 0) == c && gclHeaders k (b.drop (32 + 8 * n))

/-- A SCHED segment keeps R577. -/
def schedForm (b : List Byte) : Bool :=
  let p := schedParts b
  let h := wordAt b 0
  let lists := gateLists b
  decide (32 ≤ b.length) && bits h 63 35 == 0 && decide (bits h 34 32 ≤ 4) && ((b.drop 8).take 24).all (· == 0) &&
    p.1.length == bits h 15 0 && p.2.1.length == bits h 31 16 && gclHeaders (bits h 34 32) p.2.2 &&
    lists.length == (lists.map Prod.fst).eraseDups.length

/-- The slot ranges of the axis blocks that a schedule names: engine, first slot, slots (R240; log 21). -/
def blockRanges (l : List SchedEntry) : List (Nat × Nat × Nat) :=
  (l.flatMap (fun e => e.content.filterMap (fun c => match c with
    | .axis k f n => some (k, f, n)
    | .image _ _ _ => none))).eraseDups

/-- An axis block range is one of at most 8 of its engine and meets no other range named before it (R240). -/
def rangeFits (all : List (Nat × Nat × Nat)) (r : Nat × Nat × Nat) : Bool :=
  let before := all.takeWhile (fun x => decide (x ≠ r))
  let mine := before.filter (fun x => x.1 == r.1)
  decide (mine.length < 8) && mine.all (fun x => apart x.2.1 x.2.2 r.2.1 r.2.2)

/-- Tenths of a nanosecond per byte at a SPEED code (R250). -/
def byteTenths (speed : Nat) : Nat :=
  match speed with
  | 0 => 80
  | 1 => 32
  | 2 => 16
  | _ => 8

/-- Bytes on the wire of a transmit frame at its reserved length, with preamble, delimiter and gap (R285). -/
def wireLen (e : SchedEntry) : Nat :=
  max 64 (12 + 4 + (if e.cb then 6 else 0) + 2 + 16 + e.content.foldl (fun n c => n + contentLen c) 0 + 4) + 20

/-- The gate of a queue is open at an offset of the gate cycle. -/
def gateOpenAt : List (BitVec 8 × Nat) → Nat → Nat → Bool
  | [], _, _ => false
  | (g, n) :: r, q, t => if t < n then g.getLsbD q else gateOpenAt r q (t - n)

/-- The gate stays open for `d` ns from an offset of the gate cycle. -/
def gateOpenFor (g : Gcl) (q t d : Nat) : Bool :=
  let edges := (g.entries.foldl (fun (a : List Nat × Nat) e => (a.1 ++ [a.2], a.2 + e.2)) ([], 0)).1
  gateOpenAt g.entries q (t % g.cycle) &&
    (edges ++ edges.map (· + g.cycle)).all (fun x => !(decide (t % g.cycle < x) && decide (x < t % g.cycle + d)) ||
      gateOpenAt g.entries q (x % g.cycle))

/-- Every transmission of an entry meets an open gate: the offsets it takes in the gate cycle are stepped by the common divisor of its period and the gate cycle (R288). -/
def gateFits (g : Gcl) (e : SchedEntry) (d : Nat) : Bool :=
  let p := (e.periodM1 + 1) * 31250
  let k := Nat.gcd p g.cycle
  let start := (e.phase * 31250 + e.off + g.cycle - g.base.toNat % g.cycle) % g.cycle
  g.cycle != 0 && (List.range (g.cycle / k)).all (fun i => gateOpenFor g e.queue ((start + i * k) % g.cycle) d)

/-- The image ranges that a receive entry writes, its fresh bit as the byte that holds it (R288, R292). -/
def rxRanges (e : SchedEntry) : Ranges :=
  if !e.rx then []
  else e.content.filterMap (fun c => match c with
    | .image m len off => some (m, off, len)
    | .axis _ _ _ => none)

/-- The ranges of input halves that the receive entries of a schedule write. -/
def schedRanges (l : List SchedEntry) : Ranges := l.flatMap rxRanges

/-- A fresh bit lies in none of a list of ranges (R288). -/
def freshClear (l : Ranges) (e : SchedEntry) : Bool :=
  !e.freshen || l.all (fun x => x.1 != e.freshMkt || !(decide (8 * x.2.1 ≤ e.freshBit) && decide (e.freshBit < 8 * (x.2.1 + x.2.2))))

/-- The speed a port would send at: the negotiated one while its link is up, else the configured one (R250, R252). -/
def portSpeed (p : Port) : Nat := if p.link then p.spd else bits p.cfg 2 1

/-- A schedule entry keeps R287 and R288 beside the entries before it. -/
def schedEntryForm (s : State) (lists : List (Nat × Gcl)) (content : List Word) (routes : Ranges)
    (all : List (Nat × Nat × Nat)) (before : List SchedEntry) (b : List Byte) : Bool :=
  let e := schedOf content b
  let w0 := wordAt b 0
  let n := bits (wordAt b 24) 54 48
  let ports : List Nat := if e.cb then [e.port, e.port + 1] else [e.port]
  let earlier := schedRanges before ++ routes
  let mine := rxRanges e
  bits w0 31 20 == 0 && bits w0 63 52 == 0 && bits (wordAt b 8) 63 50 == 0 && !bit (wordAt b 16) 63 &&
    bits (wordAt b 24) 31 23 == 0 && bits (wordAt b 24) 63 55 == 0 && decide (1 ≤ n) && decide (n ≤ 64) &&
    decide (bits (wordAt b 24) 47 32 + n ≤ content.length) && e.content.length == n &&
    decide (e.phase < e.periodM1 + 1) && decide (e.off ≤ 31249) &&
    (if e.rx then decide (e.off < e.off2) && decide (e.off2 ≤ 31249) && e.queue == 0
     else decide (1000 ≤ e.off2) && decide (e.off2 ≤ 31250) && !e.freshen) &&
    (e.freshen || (e.freshBit == 0 && e.freshMkt == 0)) &&
    !(e.cb && e.port % 2 == 1) &&
    before.all (fun x => x.frameId != e.frameId || x.rx != e.rx ||
      !(ports.any (fun p => x.port == p || (x.cb && x.port + 1 == p)))) &&
    (e.rx || decide (16 + e.content.foldl (fun n c => n + contentLen c) 0 ≤ 1496)) &&
    e.content.all (fun c => match c with
      | .axis k f m => !e.rx && rangeFits all (k, f, m)
      | .image _ _ _ => true) &&
    (needEach (fun pre x => clear (earlier ++ pre) x.1 x.2.1 x.2.2) 1 mine).isNone &&
    freshClear (earlier ++ mine) e &&
    before.all (fun x => freshClear mine x && !(x.freshen && e.freshen && x.freshMkt == e.freshMkt && x.freshBit == e.freshBit)) &&
    (e.rx || ports.all (fun p => match lists.find? (fun g => g.1 == p) with
      | none => true
      | some g => gateFits g.2 e (ceilDiv (wireLen e * byteTenths (portSpeed (vget s.net.ports p Port.reset))) 10)))

/-- The entries of a SCHED segment. -/
def schedTable (b : List Byte) : List SchedEntry := (schedParts b).1.map (schedOf (schedParts b).2.1)

/-- The check of a frame schedule: SCHED_INVALID with the first failing entry (R288). -/
def checkSched (s : State) (routes : Ranges) (b : List Byte) : Bad :=
  if b.isEmpty then none
  else if !schedForm b then some (0x24, 0)
  else
    let p := schedParts b
    needEach (fun before x => schedEntryForm s (gateLists b) p.2.1 routes (blockRanges (schedTable b))
      (before.map (schedOf p.2.1)) x) 0x24 p.1

/-! ### The field configuration (R298, R310, R319, R323) -/

/-- A field configuration entry: block 0 FIO or 1 ANA with the register offset, as one number 4096 × block + offset, and the value. -/
def fieldEntry (b : List Byte) : Nat × Word := (bits (wordAt b 0) 12 0, wordAt b 8)

/-- A value holds no reserved encoding and no reserved bit of a field configuration register; false where the register is none of them (R296, R298, R302, R307, R310, R316, R319, R325, R330). -/
def fieldValueForm (r : Nat) (v : Word) : Bool :=
  if 4096 ≤ r then
    (r - 4096) % 0x40 == 0 && decide (r - 4096 < 0x100) && decide (bits v 2 0 ≤ 4) && bits v 63 6 == 0
  else if r = 0 then
    decide (bits v 15 8 < bits v 7 0 + 1) && decide (bits v 30 16 ≤ 31249) && decide (bits v 45 31 ≤ 31249) &&
      decide (200 ≤ bits v 60 46) && decide (bits v 60 46 ≤ 31249) && bits v 63 61 == 0
  else if r = 8 then
    mult (bits v 21 4) 64 && mult (bits v 41 24) 64 && decide (bits v 45 42 ≤ 8) && decide (bits v 51 46 ≤ 32) &&
      decide (bits v 55 52 ≤ 8) && bits v 63 56 == 0
  else if r = 0x10 then decide (v.toNat ≤ 3)
  else match slotOf 0x80 16 8 r with
  | some _ => bits v 7 6 != 0 && bits v 63 15 == 0
  | none => match slotOf 0x100 8 64 r with
  | some i => i % 2 == 0 || (bits v 38 7 != 0 && bits v 63 39 == 0)
  | none => match slotOf 0x400 48 32 r with
  | some _ => decide (bits v 32 29 ≤ 8) && bits v 63 33 == 0
  | none => match slotOf 0xA00 48 32 r with
  | some _ => bits v 63 6 == 0
  | none => false

/-- The value that a list of entries leaves in a register, the reset value where it writes none. -/
def fieldValueIn (l : List (Nat × Word)) (r : Nat) : Word :=
  match l.reverse.find? (fun x => x.1 == r) with
  | some x => x.2
  | none => if r = 0 then 0x32_0000_0000_0000 else if 0x80 ≤ r && decide (r < 0x100) then 0x40
            else if 0x100 ≤ r && decide (r < 0x300) && r % 16 = 8 then 0x80 else 0

/-- The register groups that take part in a conflict of the whole list: counters (R310), generator slots (R323), and reflexes (R319). -/
def fieldConflicts (l : List (Nat × Word)) : List (List Nat) :=
  let v (r : Nat) : Word := fieldValueIn l r
  let ch (n : Nat) : Nat := 0x400 + 48 * n
  let ct (n : Nat) : Nat := 0xA00 + 48 * n
  let isIn (n : Nat) : Bool := decide (n < 32) && !bit (v (ch n)) 0
  let slot (n : Nat) : Nat := bits (v (ch n)) 32 29
  let rfx (e : Nat) : Nat × Nat := (0x100 + 16 * e, 0x108 + 16 * e)
  let counters := (List.range 32).filterMap (fun k =>
    let m := bits (v (ct k)) 2 0
    let broken := (3 ≤ m && m ≤ 6 && (k % 2 == 1 || bits (v (ct (k + 1))) 2 0 != 0)) ||
      (3 ≤ m && m ≤ 5 && !(isIn k && isIn (k + 1))) || (m == 6 && !isIn k)
    if broken then some [ct k, ct (k + 1), ch k, ch (k + 1)] else none)
  let gens := (List.range 32).filterMap (fun n =>
    if slot n = 0 then none
    else if bits (v 8) 45 42 < slot n then some [ch n, 8]
    else match (List.range n).find? (fun k => slot k == slot n) with
      | some k => some [ch n, ch k]
      | none => none)
  let reflexes := (List.range 32).filterMap (fun c =>
    let es := (List.range 32).filter (fun e => bits (v (rfx e).2) 1 0 != 0 && bit (v (rfx e).1) c &&
      bit (v (ch (bits (v (rfx e).2) 6 2))) 0 && bits (v (ch (bits (v (rfx e).2) 6 2))) 19 18 == 2)
    if 8 < ((es.map (fun e => bits (v (rfx e).2) 6 2)).eraseDups).length then
      some (es.flatMap (fun e => [(rfx e).1, (rfx e).2, ch (bits (v (rfx e).2) 6 2)]))
    else none)
  counters ++ gens ++ reflexes

/-- The check of the field configuration list: FIELD_INVALID with the lowest failing entry (R298). -/
def checkField (b : List Byte) : Bad :=
  let es := slices 16 b
  let l := es.map fieldEntry
  let wrong := ((enumFrom 0 es).filter (fun x =>
    bits (wordAt x.2 0) 63 13 != 0 || !mult (fieldEntry x.2).1 8 || !fieldValueForm (fieldEntry x.2).1 (fieldEntry x.2).2)).map Prod.fst
  let clash := (fieldConflicts l).map (fun rs =>
    ((enumFrom 0 l).filter (fun x => rs.contains x.2.1)).foldl (fun n x => max n x.1) 0)
  if !mult b.length 16 then some (0x25, b.length / 16)
  else (minBy id (wrong ++ clash)).map (fun i => (0x25, i))

/-- The ranges that the field sequencer writes under FIO.MAP of a list (R304, R305). -/
def sampleRanges (l : List (Nat × Word)) : Ranges :=
  let v := fieldValueIn l 8
  let len := 64 * ceilDiv (32 + 8 * ceilDiv (bits v 51 46) 2 + 16 * bits v 55 52) 64
  (List.range 4).filterMap (fun m => if bit v m then some (m, bits v 21 4, len) else none)

/-! ### Code images and change packages (R170, R498) -/

/-- BAR0 offsets that the REGS segment may carry: MOT.ECFGn, TSY.CTL, RED.CTL, RED.PWATCH, RED.FHOLD, WDG.CTL to WDG.OWN3, and MKTn.CLK (R245, R269, R406, R498, R551, R579). -/
def regAllowed (off : Nat) : Bool :=
  (slotOf 0x10100 8 8 off).isSome || off == 0xE000 || (slotOf 0x14000 8 3 off).isSome || (slotOf 0x2000 8 7 off).isSome ||
    (slotOf 0x15000 0x1000 4 off).isSome

/-- The entries of a REGS segment (R498). -/
def regList (b : List Byte) : List (Nat × Word) := (slices 16 b).map (fun x => (bits (wordAt x 0) 17 0, wordAt x 8))

/-- The header and the directory of a code image body, or none for IMAGE_INVALID (R498, R576, R581). -/
def imageSegs (id : Word) (body : List Byte) : Option (List Segment) :=
  let w1 := wordAt body 8
  let n := bits (wordAt body 16) 63 32
  if wordAt body 0 == id && bits w1 15 0 == 1 && bits w1 63 20 == 0 && decide (1 ≤ n) && decide (n ≤ 1024) &&
      ((body.drop 24).take 40).all (· == 0) && decide (64 ≤ body.length) then
    match directory body n 11 with
    | some l =>
      if (segsOf l 3).all (fun g => layoutForm g.body) && (segsOf l 4).all (fun g => (initPairs g.body.length g.body).isSome) &&
          (segsOf l 6).all (fun g => regionsForm g.market g.body) &&
          regionsFit ((segsOf l 6).flatMap (fun g => regionList g.body)) &&
          (segsOf l 11).all (fun g => mult g.body.length 16 && (regList g.body).all (fun r => regAllowed r.1) &&
            (slices 16 g.body).all (fun x => bits (wordAt x 0) 63 18 == 0))
      then some l else none
    | none => none
  else none

/-- The checks of a project load on the segments of a code image, in the order of their statuses (R511). -/
def checkImage (s : State) (l : List Segment) : Bad :=
  let tasks := taskTable (bodyOf l 2)
  let sched := schedTable (bodyOf l 9)
  let fields := (slices 16 (bodyOf l 10)).map fieldEntry
  let regs := regList (bodyOf l 11)
  let routes := routeTable (bodyOf l 5)
  firstBad [
    checkTasks (bodyOf l 2),
    checkRoutes tasks (schedRanges sched ++ sampleRanges fields) (bodyOf l 5),
    checkAxes s regs l,
    checkTiming s regs l,
    checkSched s (routes.map (fun r => (r.dstMkt.val, r.dstOff, r.len))) (bodyOf l 9),
    checkField (bodyOf l 10),
    checkCams (bodyOf l 8)]

/-- The fixed form of a change package: header and directory (R168, R170). -/
def packageForm (b : List Byte) : Option (List Segment) :=
  let n := bits (wordAt b 0) 63 32
  if bits (wordAt b 0) 15 0 == 1 && bits (wordAt b 0) 31 16 == 0 && bits (wordAt b 24) 63 32 == 0 && decide (1 ≤ n) &&
      decide (n ≤ 256) && bits (wordAt b 24) 31 0 == b.length && decide (64 ≤ b.length) && wordAt b 8 != wordAt b 16 then
    match directory b n 6 with
    | some l =>
      if (segsOf l 3).all (fun g => layoutForm g.body) && (segsOf l 4).all (fun g => (initPairs g.body.length g.body).isSome) &&
          (segsOf l 6).all (fun g => regionsForm g.market g.body)
      then some l else none
    | none => none
  else none

/-- DIGEST of a package matches its bytes from 64 on (R168). -/
def packageDigest (b : List Byte) : Bool := sha256 (b.drop 64) == (b.drop 32).take 32

end Sys2Proof.Machine
end

