-- ==== Sys2Proof/Machine/Net.lean ====
section
/-!
DEFINITION. Network ports and cycle frames: port control, gate control lists, preemption, transmit entries, receive entries, and the NET registers (R249 to R256, R285 to R293).
-/
namespace Sys2Proof.Machine

/-- A port. -/
def portAt (s : State) (n : Nat) : Port := vget s.net.ports n Port.reset

/-- An entry of the frame schedule. -/
def schedAt (s : State) (i : Nat) : Option SchedEntry := s.net.sched[i]?

/-! ### Ports (R250 to R256) -/

/-- A write of NETn.CFG: every field while EN = 0, EN alone while EN = 1; EN asks for or returns the lane's tokens (R250, R251). -/
def writeNetCfg (n : Nat) (v : Word) (s : State) : State :=
  let p := portAt s n
  let en := bit p.cfg 0
  let put (w : Word) (q : State) : State := modPort n (fun x => { x with cfg := w }) q
  let q := if en then put (putBits p.cfg 0 0 (bits v 0 0)) s
    else judged p.cfg v [anyField 15 0, { hi := 26, lo := 16, good := fun x => 64 ≤ x && x ≤ 2000 }] put s
  if !en && bit v 0 then purseAsk 4 3 n q
  else if en && !bit v 0 then
    modPort n (fun x => { x with started := false, link := false, vstate := 0, preact := false })
      (purseDrop 4 n (if p.started then purseReturn 4 3 q else q))
  else q

/-- NET_CFG_WRITE (R250, R251). -/
def execNetCfgWrite (port : Fin 4) (val : Word) (s : State) : Out := ok (writeNetCfg port.val val s)

/-- The counters of a port set to 0 (R293). -/
def clearPort (n : Nat) (s : State) : State :=
  modPort n (fun p => { p with
    rxcyc := 0, txcyc := 0, rxdisc := 0, rxmiss := 0, glate := 0, cbelim := 0, rxfcs := 0, rxother := 0 }) s

/-- NET_CNTCLR: the counters of the ports named in bits [3..0] are set to 0 (R293). -/
def execNetCntclr (val : Word) (s : State) : Out :=
  ok (forEach (List.range 4) (fun n q => if bit val n then clearPort n q else q) s)

/-- A write to a NETn block (R250 to R258, R293). -/
def writeNet (n o : Nat) (v : Word) (s : State) : State :=
  match o with
  | 0x00 => writeNetCfg n v s
  | 0x08 => modPort n (fun p => { p with badspd := p.badspd && !bit v 3, nogrant := p.nogrant && !bit v 4 }) s
  | 0x10 => modPort n (fun p => { p with mac := field 0 (bits v 47 0) }) s
  | 0x200 => if n = 0 then forEach (List.range 4) (fun k q => if bit v k then clearPort k q else q) s else s
  | _ =>
    match slotOf 0x18 8 4 o with
    | some k => modPort n (fun p => { p with tsc := vset p.tsc k (field 0 (bits v 31 0)) }) s
    | none => s

/-- PORT_LINK_CHANGE: the PHY's link goes up or down; an unsupported speed holds it down (R249, R252, R255). -/
def execPortLinkChange (port : Fin 4) (up : Bool) (spd : BitVec 2) (bad : Bool) (s : State) : Out :=
  if !(portAt s port.val).started then ok s
  else
    ok (modPort port.val (fun p =>
      let on := up && !bad
      { p with
        link := on, badspd := p.badspd || bad
        spd := if bit p.cfg 3 then spd.toNat else bits p.cfg 2 1
        vstate := if on && bit p.cfg 4 && bit p.cfg 5 then 1 else 0
        preact := on && bit p.cfg 4 && !bit p.cfg 5 }) s)

/-- PREEMPTION_VERIFICATION: 0 a verify mPacket is received and answered, 1 a response is received, 2 the verify timer has expired for the last time (R252, R255). -/
def execPreemptionVerification (port : Fin 4) (what : Fin 3) (s : State) : Out :=
  let p := portAt s port.val
  if p.link && p.vstate == 1 && what.val == 1 then ok (modPort port.val (fun p => { p with vstate := 2, preact := true }) s)
  else if p.link && p.vstate == 1 && what.val == 2 then ok (modPort port.val (fun p => { p with vstate := 3, preact := false }) s)
  else ok s

/-- The first start of an administrative list's cycle after T (R256). -/
def changeTime (s : State) (g : Gcl) : Nat :=
  let t := nowT s
  let b := g.base.toNat
  if t < b || g.cycle = 0 then b else b + ((t - b) / g.cycle + 1) * g.cycle

/-- GCL_CHANGE: the administrative gate control list of a port is installed at its change time (R252, R256). -/
def execGclChange (port : Fin 4) (s : State) : Out :=
  match (portAt s port.val).admin with
  | some g => ok (modPort port.val (fun p => { p with oper := some g, admin := none }) (untilT (changeTime s g) s))
  | none => ok s

/-- A port receives frames: its link is up and the network engines are not held (R252, R536; log 49). -/
def receives (s : State) (n : Nat) : Bool := (portAt s n).link && s.ctl.mode != .held

/-- UNSUPPORTED_FRAME: a frame of another kind, or with an FCS error, is discarded and counted (R254, R293). -/
def execUnsupportedFrame (port : Fin 4) (fcsError : Bool) (s : State) : Out :=
  if !receives s port.val then ok s
  else ok (modPort port.val (fun p =>
    if fcsError then { p with rxfcs := (p.rxfcs + 1) % 2 ^ 64 } else { p with rxother := (p.rxother + 1) % 2 ^ 64 }) s)

/-! ### Transmit entries (R203, R285, R286, R289, R290) -/

/-- The ports an entry uses (R287). -/
def entryPorts (e : SchedEntry) : List Nat := if e.cb then [e.port, e.port + 1] else [e.port]

/-- An entry is due at boundary n (R287). -/
def dueAt (periodM1 phase n : Nat) : Bool := (n + (periodM1 + 1) - phase % (periodM1 + 1)) % (periodM1 + 1) == 0

/-- The boundary whose frame an entry gathers for next: the one it is due for, or the next one when its gather starts before that boundary (R289). -/
def gatherFor (s : State) (e : SchedEntry) : Option Nat :=
  if e.off2 ≤ e.off then e.due
  else if dueAt e.periodM1 e.phase (s.clock.ticknum + 1) then some (s.clock.ticknum + 1) else none

/-- The last motion cycle instant of an engine, as a boundary number (R198). -/
def lastCycleTick (s : State) (e : Engine) : Nat :=
  let c := bits e.cfg 4 0
  let p := bits e.cfg 8 5
  let n := s.clock.ticknum
  n - (n + c - p % max c 1) % max c 1

/-- An axis block: header, codes padded to 8, and escapes (R240). -/
def axisBlock (k first n cyc : Nat) (codes : List (BitVec 8)) (escs : List Word) : List Byte :=
  bytesOfWord (field 0 2 ||| field 8 k ||| field 16 first ||| field 24 n ||| field 32 escs.length ||| field 40 (cyc % 65536)) ++
    fitBytes (8 * ceilDiv n 8) codes ++ bytesOfWords escs

/-- The block of a range whose hand-off is missing: code 0 everywhere, CYCLE that of the cycle concerned, whether it has begun or not (R203). -/
def missingBlock (s : State) (k first n : Nat) : List Byte :=
  let g := vget s.engines k Engine.reset
  axisBlock k first n (if g.due.isSome then g.ecyc + 1 else g.ecyc) (List.replicate n 0) []

/-- The axis block of a range from the set-point buffers, and whether its hand-off is missing (R203, R240). -/
def readBlock (s : State) (k first n : Nat) : List Byte × Bool :=
  let g := vget s.engines k Engine.reset
  if g.codesFor = some (lastCycleTick s g) then
    let code (i : Nat) : BitVec 8 := match g.codes.find? (fun c => c.slot == first + i) with
      | some c => c.code
      | none => 0
    let escs := (List.range n).filterMap (fun i => match g.codes.find? (fun c => c.slot == first + i) with
      | some c => c.esc
      | none => none)
    (axisBlock k first n g.ecyc ((List.range n).map code) escs, false)
  else (missingBlock s k first n, true)

/-- An engine's block was sent without its hand-off: its first slot, its slots, and the cycle concerned (R203). -/
def noteMissed (k first n : Nat) (s : State) : State :=
  modEngine k (fun g =>
    let x := (first, n, lastCycleTick s g)
    if g.missed.contains x then g else { g with missed := g.missed ++ [x] }) s

/-- The image ranges of an entry in one Market's output half (R289). -/
def entryRanges (e : SchedEntry) (m : Nat) : List (Nat × Nat) :=
  e.content.filterMap (fun c => match c with
    | .image k len off => if k = m then some (off, len) else none
    | .axis _ _ _ => none)

/-- TRANSMIT_GATHER: at TXOFF - GLEAD one gather per Market begins and the axis blocks are read (R203, R289). -/
def execTransmitGather (entry : Nat) (s : State) : Out :=
  match schedAt s entry with
  | none => ok s
  | some e =>
    match gatherFor s e with
    | none => ok s
    | some n =>
      if e.rx || s.ctl.mode == .held || e.built.isSome || 0 < e.gathers then ok s
      else
        let q := untilT (n * 31250 + e.off - e.off2) s
        let blocks := e.content.filterMap (fun c => match c with
          | .axis k f m => some ((k, f, m), readBlock q k f m)
          | .image _ _ _ => none)
        let q := forEach blocks (fun b q => if b.2.2 then noteMissed b.1.1 b.1.2.1 b.1.2.2 q else q) q
        let ms := allMarkets.filter (fun m => !(entryRanges e m.val).isEmpty)
        let q := modSched entry (fun x => { x with
          due := some n, gathers := ms.length, gathered := [], axisBlocks := blocks.map (fun b => b.2.1), built := none }) q
        let q := forEach ms (fun m q =>
          let rs := entryRanges e m.val
          bankAsk m (.gather (.frame e.port entry) rs) (rs.foldl (fun a r => a + r.2) 0) q) q
        ok (markBuilt entry q)

/-- The bytes of one image block out of what the gathers delivered, zeros where none did (R286, R290). -/
def imageBlock (parts : List (Nat × Nat × List Byte)) (m len off : Nat) : List Byte :=
  bytesOfWord (field 0 1 ||| field 8 m ||| field 16 len ||| field 32 off) ++
    fitBytes len (match parts.find? (fun p => p.1 == m && p.2.1 == off) with
      | some p => p.2.2
      | none => [])

/-- All blocks of a frame in content order (R286, R287). -/
def frameBlocks : List Content → List (Nat × Nat × List Byte) → List (List Byte) → List (List Byte)
  | [], _, _ => []
  | .image m len off :: r, parts, axes => imageBlock parts m len off :: frameBlocks r parts axes
  | .axis _ _ _ :: r, parts, axes => axes.headD [] :: frameBlocks r parts axes.tail

/-- The payload of a cycle frame (R285). -/
def framePayload (s : State) (e : SchedEntry) (n : Nat) (blocks : List (List Byte)) : List Byte :=
  let body := blocks.flatMap id
  bytesOfWords [field 0 1 ||| field 8 1 ||| field 16 e.frameId ||| field 32 (n % 65536) ||| field 48 blocks.length,
    field 0 s.red.epoch ||| field 32 (16 + body.length)] ++ body

/-- Two bytes, most significant first. -/
def be16 (n : Nat) : List Byte := [BitVec.ofNat 8 (n / 256), BitVec.ofNat 8 n]

/-- A cycle frame on the wire from the destination MAC to the FCS (R285). -/
def frameBytes (s : State) (e : SchedEntry) (port : Nat) (payload : List Byte) : List Byte :=
  let head := bytesOfNat 6 e.mac ++ bytesOfNat 6 (portAt s port).mac.toNat ++ [0x81, 0x00] ++
    be16 (e.pcp * 8192 + e.vid) ++ (if e.cb then [0xF1, 0xC1, 0, 0] ++ be16 (e.cbSeq % 65536) else []) ++ [0x88, 0xB5]
  let l := head ++ payload
  let l := l ++ List.replicate (60 - l.length) 0
  l ++ bytesOfNat 4 (crc32 l).toNat

/-- The unit sends cycle frames: not in HELD, and only with the mandate (R67, R382). -/
def sendsFrames (s : State) : Bool :=
  s.ctl.mode != .held && (s.red.role == .solo || s.red.role == .active)

/-- A frame leaves a port whose link is up: its delimiter within 6.4 ns of TXOFF at 10G, within 8 ns otherwise (R289, R293). -/
def sendFrame (e : SchedEntry) (n port : Nat) (payload : List Byte) (s : State) : State :=
  let p := portAt s port
  if !p.link then s
  else
    let r := freshWord s
    let t : Word := field 0 (n * 31250 + e.off + r.1.toNat % (if p.spd = 3 then 7 else 9))
    let w : WireFrame := { port := port, bytes := frameBytes s e port payload, t := t }
    modPort port (fun p => { p with txcyc := (p.txcyc + 1) % 2 ^ 64 }) { r.2 with net := { r.2.net with wire := r.2.net.wire ++ [w] } }

/-- FRAME_TRANSMIT: at TXOFF the frame is sent, late ones with the previous gather's images and missing axis blocks (R203, R289, R290). -/
def execFrameTransmit (entry : Nat) (s : State) : Out :=
  match schedAt s entry with
  | none => ok s
  | some e =>
    match e.due with
    | none => ok s
    | some n =>
      if e.rx || s.ctl.mode == .held then ok s
      else
        let q := untilT (n * 31250 + e.off) s
        let inTime := e.built.isSome
        let axes := if inTime then e.axisBlocks else e.content.filterMap (fun c => match c with
          | .axis k f m => some (missingBlock q k f m)
          | .image _ _ _ => none)
        let parts := if inTime then e.gathered else e.prev
        let q := if inTime then q else forEach e.content (fun c q => match c with
          | .axis k f m => noteMissed k f m q
          | .image _ _ _ => q) q
        let payload := framePayload q e n (frameBlocks e.content parts axes)
        let late := !inTime && sendsFrames q
        let q := if sendsFrames q then forEach (entryPorts e) (fun p q => sendFrame e n p payload q) q else q
        let q := if late then modPort e.port (fun p => { p with glate := (p.glate + 1) % 2 ^ 64 }) q else q
        let q := if late && !e.lateRun then raise q 0x0400 1 (field 0 e.port) (field 0 e.frameId) else q
        ok (modSched entry (fun x => { x with
          due := none, built := none, gathers := 0, lateRun := late, cbSeq := (x.cbSeq + 1) % 65536,
          prev := if e.gathers = 0 && !e.gathered.isEmpty then e.gathered else e.prev }) q)

/-! ### Receive entries (R254, R255, R257, R285, R291, R292) -/

/-- A received cycle frame taken apart: source MAC, VID, R-TAG number, and payload. -/
structure RxFrame where
  src : Nat
  vid : Nat
  tag : Option Nat
  payload : List Byte
deriving DecidableEq, Repr

/-- The number of two bytes, most significant first. -/
def be16At (l : List Byte) (i : Nat) : Nat := (l.getD i 0).toNat * 256 + (l.getD (i + 1) 0).toNat

/-- A frame taken apart, or none when its EtherType is not 16#88B5; one without a VLAN tag has the VID of no entry (R254, R285). -/
def rxFrame (l : List Byte) : Option RxFrame :=
  let src := natOfBytes ((l.drop 6).take 6)
  let vlan := be16At l 12 == 0x8100
  let r := if vlan then l.drop 16 else l.drop 12
  let vid := if vlan then be16At l 14 % 4096 else 4096
  let tagged := be16At r 0 == 0xF1C1
  let p := if tagged then r.drop 6 else r
  if be16At p 0 = 0x88B5 then
    some { src := src, vid := vid, tag := if tagged then some (be16At r 4) else none, payload := p.drop 2 }
  else none

/-- The header of a received payload keeps R285 (R291 reason 1). -/
def rxHeader (p : List Byte) : Bool :=
  let a := wordAt p 0
  let b := wordAt p 8
  let n := bits b 47 32
  bits a 7 0 == 1 && bits a 15 8 == 2 && bits a 31 28 == 0 && bits a 63 56 == 0 && bits b 63 48 == 0 &&
    decide (1 ≤ bits a 55 48) && decide (bits a 55 48 ≤ 64) && n % 8 == 0 && decide (24 ≤ n) && decide (n ≤ 1496) &&
    decide (n ≤ p.length)

/-- The data of the blocks of a payload, when they equal the content entries in number, order and header (R291 reason 1). -/
def rxBlocks : List Content → List Byte → Option (List (Nat × Nat × List Byte))
  | [], p => if p.isEmpty then some [] else none
  | .image m len off :: r, p =>
    if wordAt p 0 == (field 0 1 ||| field 8 m ||| field 16 len ||| field 32 off) && decide (8 + len ≤ p.length) then
      (rxBlocks r (p.drop (8 + len))).map (fun l => (m, off, (p.drop 8).take len) :: l)
    else none
  | .axis _ _ _ :: _, _ => none

/-- The receive entry that a frame belongs to (R291 reason 2). -/
def rxEntry (s : State) (port : Nat) (f : RxFrame) : Option Nat :=
  indexWhere (fun e => e.rx && (entryPorts e).contains port && e.frameId == bits (wordAt f.payload 0) 27 16 &&
    e.mac == f.src && e.vid == f.vid) s.net.sched

/-- The history length of the vector recovery, 2 to 32 (R255; open, log 22). -/
def cbLength : Nat := 2 + Config.cbHistory % 31

/-- A copy passes the vector recovery of its stream: not seen, and within the history (R255). -/
def recovers (e : SchedEntry) (seq : Nat) : Bool :=
  e.cbRecent.isEmpty || (!e.cbRecent.contains seq &&
    (let d := signedOf 16 (seq + 65536 - e.cbSeq)
     decide (-(cbLength : Int) < d) && decide (d < (cbLength : Int))))

/-- The stream's history after an accepted number (R255). -/
def recovered (e : SchedEntry) (seq : Nat) : SchedEntry :=
  let top := if e.cbRecent.isEmpty || decide (0 < signedOf 16 (seq + 65536 - e.cbSeq)) then seq else e.cbSeq
  { e with cbSeq := top, cbRecent := seq :: e.cbRecent.filter (fun x => decide (signedOf 16 (top + 65536 - x) < (cbLength : Int))) }

/-- A received cycle frame discarded (R291, R293). -/
def discardFrame (port reason : Nat) (s : State) : State :=
  modPort port (fun p => { p with rxdisc := (p.rxdisc + 1) % 2 ^ 64, lastdisc := reason }) s

/-- The corrected stamp of a received frame: raw minus INGRESS of the speed in use (R257). -/
def rxStamp (s : State) (port : Nat) (raw : Word) : Word :=
  let p := portAt s port
  raw - wordOfInt (sbits (vget p.tsc p.spd 0) 15 0)

/-- An accepted frame: written to each Market it names, its fresh bit set, and a run of misses ended (R292). -/
def acceptFrame (port i n : Nat) (e : SchedEntry) (blocks : List (Nat × Nat × List Byte)) (s : State) : State :=
  let q := modSched i (fun x => { x with accepted := some n, missRun := 0 }) s
  let q := modPort port (fun p => { p with rxcyc := (p.rxcyc + 1) % 2 ^ 64 }) q
  let q := if e.missRun = 0 || e.accepted.isNone then q else raise q 0x0402 0 (field 0 port) (field 0 e.frameId) (field 0 e.missRun)
  forEach allMarkets (fun m q =>
    let mine := blocks.filter (fun b => b.1 == m.val)
    let fresh := if e.freshen && e.freshMkt == m.val then some (e.freshBit, true) else none
    if mine.isEmpty && fresh.isNone then q
    else bankAsk m (.frameWrite (mine.map (fun b => (imageBase m.val + b.2.1, b.2.2))) fresh)
      (mine.foldl (fun a b => a + b.2.2.length) 0) q) q

/-- The checks of R291 in their order on a frame of a known entry. -/
def checkFrame (port i : Nat) (e : SchedEntry) (f : RxFrame) (stamp : Word) (s : State) : State :=
  let plen := bits (wordAt f.payload 8) 47 32
  match (if bits (wordAt f.payload 0) 55 48 = e.content.length then rxBlocks e.content ((f.payload.take plen).drop 16) else none) with
  | none => discardFrame port 1 s
  | some blocks =>
    let n := stamp.toNat / 31250
    let d := stamp.toNat % 31250
    if !(dueAt e.periodM1 e.phase n && decide (e.off ≤ d) && decide (d ≤ e.off2)) then discardFrame port 3 s
    else if bits (wordAt f.payload 0) 47 32 ≠ n % 65536 then discardFrame port 4 s
    else if !e.cb && e.accepted == some n then discardFrame port 5 s
    else acceptFrame port i n e blocks s

/-- CYCLE_FRAME_RECEIVE: a frame, given without its FCS and within MAXFRM, is recovered under 802.1CB, checked, and accepted or discarded (R250, R254, R255, R257, R291, R292). `stamp` is the raw MAC stamp. -/
def execCycleFrameReceive (port : Fin 4) (stamp : Word) (frame : List Byte) (s : State) : Out :=
  let n := port.val
  if !receives s n then ok s
  else if bits (portAt s n).cfg 26 16 < frame.length + 4 then
    ok (modPort n (fun p => { p with rxother := (p.rxother + 1) % 2 ^ 64 }) s)
  else match rxFrame frame with
  | none => ok (modPort n (fun p => { p with rxother := (p.rxother + 1) % 2 ^ 64 }) s)
  | some f =>
    let t := rxStamp s n stamp
    match rxEntry s n f with
    | none => ok (discardFrame n (if rxHeader f.payload then 2 else 1) s)
    | some i =>
      match schedAt s i with
      | none => ok s
      | some e =>
        let seq := f.tag.getD 0
        if e.cb && !recovers e seq then ok (modPort n (fun p => { p with cbelim := (p.cbelim + 1) % 2 ^ 64 }) s)
        else
          let q := if e.cb then modSched i (fun x => recovered x seq) s else s
          ok (if rxHeader f.payload then checkFrame n i e f t q else discardFrame n 1 q)

/-- CB_RECOVERY_RESET_TIMEOUT: the sequence history of a stream is reset (R255). -/
def execCbRecoveryResetTimeout (entry : Nat) (s : State) : Out := ok (modSched entry (fun e => { e with cbRecent := [] }) s)

/-- RECEIVE_WINDOW_CLOSE: at RXCLOSE without an accepted frame the miss is counted and reported, and the fresh bit cleared (R292). -/
def execReceiveWindowClose (entry : Nat) (s : State) : Out :=
  match schedAt s entry with
  | none => ok s
  | some e =>
    match e.rx, e.due with
    | true, some n =>
      let q := modSched entry (fun x => { x with due := none }) (untilT (n * 31250 + e.off2) s)
      if e.accepted = some n then ok q
      else
        let q := modPort e.port (fun p => { p with rxmiss := (p.rxmiss + 1) % 2 ^ 64 }) q
        let q := modSched entry (fun x => { x with missRun := x.missRun + 1 }) q
        let q := if e.missRun = 0 && e.accepted.isSome then raise q 0x0401 1 (field 0 e.port) (field 0 e.frameId) else q
        ok (if e.freshen then bankAsk (Fin.ofNat 4 e.freshMkt) (.frameWrite [] (some (e.freshBit, false))) 0 q else q)
    | _, _ => ok s

end Sys2Proof.Machine
end

