-- ==== Sys2Proof/Machine/Motion.lean ====
section
/-!
DEFINITION. The motion engines: axis states, commands, set-points of every mode, cams and registration, faults, set-point coding, the phases of a motion cycle, and the MOT registers (R197 to R248, R394).
-/
namespace Sys2Proof.Machine

/-! ### Axes and their records (R197, R205, R213) -/

/-- An engine. -/
def engineAt (s : State) (e : Nat) : Engine := vget s.engines e Engine.reset

/-- An axis that has received nothing (R214, R235). -/
def Axis.standby : Axis :=
  { state := .standby, mode := .none, result := 0, cause := 0, inpos := false, clutched := false, camdone := false,
    setpt := 0, svel := 0, acc := 0, ackseq := 0, ferr := 0, regerr := 0, regcnt := 0, regmiss := 0, regofs := 0,
    history := [], p1 := 0, vlim := 0, alim := 0, jlim := 0, gnum := 0, gden := 1, gcl := 0, soff := 0, dec := 0,
    stopHow := .ramp, camRef := { camid := 0, moff := 0, soff := 0 }, camNext := none, lastq := none, masters := [],
    markCount := 0, markSeen := false, pendCorr := none, ramp := none, accepted := false, missing := true, jump := false,
    refresh := 0, r := 0, v := 0, fbPrev := 0 }

/-- An axis slot of an engine. -/
def axisAt (s : State) (e slot : Nat) : Axis := ((engineAt s e).axes[slot]?).getD Axis.standby

/-- One axis changed. -/
def modAxis (e slot : Nat) (f : Axis → Axis) (s : State) : State :=
  modEngine e (fun g => { g with axes := g.axes.modify slot f }) s

/-- The axis number (R197). -/
def axisNo (e slot : Nat) : Nat := 128 * e + slot

/-- A SERVO type (R205). -/
def isServo (ty : Nat) : Bool := ty == 1 || ty == 2

/-- A parameter with 0 standing for the record's limit (R213). -/
def orRecord (p r : Word) : Word := if p = 0 then r else p

/-! ### Cam tables in the cam store (R219 to R223) -/

/-- The address of a cam table, or none for an empty CAMID (R219). -/
def camAddr (s : State) (camid : Nat) : Option Nat :=
  let off := bits (readWord s (camBase + 8 * camid)) 20 0
  if off = 0 then none else some (camBase + off)

/-- The segment of a table with the largest MSTART not above u (R221). -/
def camSegment (s : State) (a : Nat) (u : Nat) : Nat :=
  let n := bits (readWord s a) 13 0
  (((List.range n).reverse).find? (fun i => decide ((readWord s (a + 64 + 64 * i)).toNat ≤ u))).getD 0

/-- The cam function at a phase (R221). -/
def camAt (s : State) (a : Nat) (u : Nat) : Word :=
  let g := a + 64 + 64 * camSegment s a u
  let x : Word := field 0 u - readWord s g
  camPoly (readBytes s g 64) x

/-- Master phase of a cam: g, q and u of R223. -/
def camPhase (s : State) (a : Nat) (m moff : Word) : Int × Int × Nat :=
  let g := sword (m - moff)
  let p : Int := ((readWord s (a + 8)).toNat : Int)
  let q := fdiv g p
  (g, q, (g - q * p).toNat)

/-- The set-point of a cam, and whether a one-shot table is past its end (R223). -/
def camSetpt (s : State) (a : Nat) (m moff soff ofs : Word) : Word × Bool :=
  let ph := camPhase s a m moff
  let rise := readWord s (a + 16)
  if bit (readWord s a) 14 then (soff + wordOfInt (ph.2.1 * sword rise) + camAt s a ph.2.2 + ofs, false)
  else if ph.1 < 0 then (soff + camAt s a 0 + ofs, false)
  else if ((readWord s (a + 8)).toNat : Int) ≤ ph.1 then (soff + readWord s (a + 72) + rise + ofs, true)
  else (soff + camAt s a ph.2.2 + ofs, false)

/-! ### Reading (R200, R205, R207, R225, R433) -/

/-- A word of the motion read of a cycle: none was not read, `some none` is unreadable. -/
def readOf (c : MotionRun) (m off : Nat) : Option (Option Word) :=
  (c.reads.find? (fun x => x.1 == m && x.2.1 == off)).map (fun x => x.2.2)

/-- The feedback position of an axis: none without feedback, `some none` unreadable (R205). -/
def feedback (s : State) (c : MotionRun) (e slot : Nat) : Option (Option Word) :=
  let w1 := axisRec s e slot 8
  let m := bits (axisRec s e slot 0) 4 3
  match bits w1 19 18, readOf c m (bits w1 17 0) with
  | 0, _ => none
  | _, none => none
  | _, some none => some none
  | 1, some (some v) => some (some v)
  | _, some (some v) => some (some (wordOfInt (sbits v 31 0 * sword (axisRec s e slot 72))))

/-- Slots of an engine that hold an axis. -/
def usedSlots (s : State) (e : Nat) : List Nat :=
  (List.range (engineAt s e).axes.length).filter (fun i => axisType s e i != 0)

/-- Image banks that an engine's axes read (R200). -/
def banksUsed (s : State) (e : Nat) : List Nat := (List.range 4).filter (fun m => !(motionWords s e m).isEmpty)

/-- Address of an axis's command block (R205). -/
def commandAddr (s : State) (e slot : Nat) : Nat :=
  let w0 := axisRec s e slot 0
  marketBase (bits w0 4 3) + bits w0 53 32

/-! ### Faults and stops (R204, R214, R217) -/

/-- AXIS_FAULT (R217, R461). -/
def axisFaultEvent (e slot cause : Nat) (s : State) : State :=
  raise s 0x0203 2 (field 0 (axisNo e slot) ||| field 10 cause)

/-- A fault meets an axis: MOVING or STOPPING stops under its STOPMODE, HELD goes to FAULT (R214, R217). -/
def axisFault (e slot cause : Nat) (s : State) : State :=
  let a := axisAt s e slot
  let w0 := axisRec s e slot 0
  let how : StopHow := if cause = 4 || axisType s e slot == 4 then .ramp else stopHowOf (bits w0 6 5) a
  match a.state with
  | .moving => axisFaultEvent e slot cause (modAxis e slot (stopAxis how cause (axisRec s e slot 40)) s)
  | .stopping =>
    if a.cause = 0 then
      axisFaultEvent e slot cause (modAxis e slot (fun x => { x with cause := cause, stopHow := how, dec := axisRec s e slot 40 }) s)
    else s
  | .held =>
    if cause = 1 || cause = 3 then axisFaultEvent e slot cause (modAxis e slot (fun x => { x with state := .fault, cause := cause }) s)
    else s
  | _ => s

/-- Reduced mode: every MOVING axis stops with cause ENGINE under RAMP, and MOTION_REDUCED is raised (R204, R433). -/
def enterReduced (e : Nat) (s : State) : State :=
  if (engineAt s e).state = 2 then s
  else
    let q := raise (modEngine e (fun g => { g with state := 2 }) s) 0x0202 2 (field 0 e)
    forEach (usedSlots q e) (fun i q => if (axisAt q e i).state == .moving then axisFault e i 4 q else q) q

/-- Damaged words that an engine reads from its records or the cam store put it in reduced mode (R433). -/
def readGuard (e : Nat) (l : List Nat) (s : State) : State :=
  match l with
  | [] => s
  | _ => enterReduced e (forEach l memUe s)

/-- The damaged words of the records of an engine's used slots (R205, R433). -/
def badRecords (s : State) (e : Nat) : List Nat := (usedSlots s e).flatMap (fun i => ueAll s (motBase e + 128 * i) 128)

/-- The damaged words of the cam segment that an axis evaluates at a phase (R433). -/
def badCam (s : State) (a u : Nat) : List Nat := ueAll s a 24 ++ ueAll s (a + 64 + 64 * camSegment s a u) 64

/-! ### Commands (R208, R209, R213, R215, R231) -/

/-- No reserved field of a command block holds a value other than 0 (R208). -/
def commandClean (b : List Byte) : Bool :=
  bits (wordAt b 0) 63 50 == 0 && wordAt b 40 == 0 && wordAt b 48 == 0 && bits (wordAt b 56) 63 32 == 0

/-- RESULT of a command (R213, R215): the state is judged before the parameters. -/
def commandResult (s : State) (c : MotionRun) (e slot : Nat) (b : List Byte) : Nat :=
  let a := axisAt s e slot
  let ty := axisType s e slot
  let w0 := wordAt b 0
  let p (i : Nat) : Word := wordAt b (8 * i)
  let lim (i off : Nat) : Bool := decide ((p i).toNat ≤ (axisRec s e slot off).toNat)
  let moving (m : AxisMode) : Bool := a.state == .moving && a.mode == m
  let cmd := bits w0 39 32
  let state := match cmd with
    | 0 => true
    | 1 => a.state == .standby || a.state == .held
    | 2 => ty != 4 && (a.state == .held || moving .move || moving .jog || moving .vmaster)
    | 3 => ty != 4 && (a.state == .held || moving .move || moving .jog || moving .vmaster)
    | 4 => isServo ty && a.state == .held
    | 5 => isServo ty && (a.state == .held || moving .cam)
    | 6 => ty != 4 && (a.state == .held || moving .direct)
    | 7 => a.state == .moving
    | _ => a.state == .fault
  if 8 < cmd then 1
  else if !state then 2
  else if !commandClean b || (cmd = 5 && 1 < bits w0 49 48) then 3
  else match cmd with
    | 1 => (match feedback s c e slot with
      | some (some _) => 0
      | _ => 4)
    | 2 =>
      if !(lim 2 16 && lim 3 24 && lim 4 32) then 3
      else if ty = 2 && !(decide (sword (axisRec s e slot 48) ≤ sword (p 1)) && decide (sword (p 1) ≤ sword (axisRec s e slot 56)))
        then 7 else 0
    | 3 => if lim 2 24 && lim 3 32 then 0 else 3
    | 4 => if bits (p 1) 63 32 = 0 || sword (p 3) < 0 then 3 else 0
    | 5 => if (camAddr s (bits w0 47 40)).isNone then 5 else 0
    | _ => 0

/-- An axis starts moving under a mode. -/
def startMove (m : AxisMode) (a : Axis) : Axis :=
  { a with state := .moving, mode := m, cause := 0, inpos := false, clutched := false, camdone := false, camNext := none }

/-- The mode of a profile: VMASTER for a virtual master (R210, R213). -/
def profileMode (ty : Nat) (m : AxisMode) : AxisMode := if ty = 3 then .vmaster else m

/-- A cam takes over: REGOFS is 0 and a pending correction is discarded (R224). -/
def switchCam (r : CamRef) (a : Axis) : Axis :=
  { a with camRef := r, camNext := none, regofs := 0, pendCorr := none, ramp := none, camdone := false, lastq := none }

/-- The effect of an accepted command (R213). -/
def commandEffect (s : State) (c : MotionRun) (e slot : Nat) (b : List Byte) (a : Axis) : Axis :=
  let ty := axisType s e slot
  let w0 := wordAt b 0
  let p (i : Nat) : Word := wordAt b (8 * i)
  let rec_ (off : Nat) : Word := axisRec s e slot off
  match bits w0 39 32 with
  | 1 =>
    let fb := match feedback s c e slot with
      | some (some v) => v
      | _ => a.setpt
    { a with
      state := if ty = 4 then .moving else .held, mode := if ty = 4 then .xmaster else .none, setpt := fb, svel := 0,
      acc := 0, jump := true, cause := 0, history := [], fbPrev := fb, inpos := false }
  | 2 => { startMove (profileMode ty .move) a with
      p1 := p 1, vlim := orRecord (p 2) (rec_ 16), alim := orRecord (p 3) (rec_ 24), jlim := orRecord (p 4) (rec_ 32), accepted := false }
  | 3 => { startMove (profileMode ty .jog) a with
      p1 := p 1, vlim := rec_ 16, alim := orRecord (p 2) (rec_ 24), jlim := orRecord (p 3) (rec_ 32), accepted := true }
  | 4 => { startMove .gear a with
      gnum := sbits (p 1) 31 0, gden := bits (p 1) 63 32, p1 := p 2, gcl := p 3, soff := a.setpt }
  | 5 =>
    let r : CamRef := { camid := bits w0 47 40, moff := p 1, soff := p 2 }
    if a.state == .moving && bits w0 49 48 == 1 then { a with camNext := some r }
    else switchCam r (startMove .cam a)
  | 6 => { startMove .direct a with p1 := p 1 }
  | 7 => stopAxis .ramp 0 (orRecord (p 1) (rec_ 40)) a
  | 8 => { a with state := .held, mode := .none, cause := 0 }
  | _ => a

/-- After a warm takeover every SERVO axis with feedback is given INIT, and goes to HELD (R399). -/
def giveInit (c : MotionRun) (e slot : Nat) (s : State) : State :=
  if isServo (axisType s e slot) && bits (axisRec s e slot 8) 19 18 != 0 then
    modAxis e slot (commandEffect s c e slot (bytesOfWord (field 32 1))) s
  else s

/-- The command that the read phase presents to an axis is answered (R207, R209, R215, R231). -/
def takeAxisCommand (c : MotionRun) (e slot : Nat) (s : State) : State :=
  if c.initAll then giveInit c e slot s
  else match c.cmds.find? (fun x => x.1 == slot) with
  | none => s
  | some (_, b) =>
    let a := axisAt s e slot
    let seq : Word := field 0 (bits (wordAt b 0) 31 0)
    if bits (wordAt b 56) 31 0 ≠ seq.toNat || seq.toNat = a.ackseq then s
    else
      let r := if c.discardCmds then 6 else commandResult s c e slot b
      let f (x : Axis) : Axis := { (if r = 0 then commandEffect s c e slot b x else x) with ackseq := seq.toNat, result := r }
      modAxis e slot f s

/-! ### Set-points (R199, R216, R218, R223, R230) -/

/-- A signed number held within ± a bound. -/
def within (b : Int) (x : Int) : Int := max (-b) (min b x)

/-- The velocity of the next cycle of a profile: within VMAX, AMAX and JMAX; the change of acceleration is free within them (R216; log 11). -/
def profileVel (target : Word) (a : Axis) : Int :=
  let j := within (a.jlim.toNat : Int) (Config.profileJerk target a.setpt a.svel a.acc)
  let acc := within (a.alim.toNat : Int) (sword a.acc + j)
  within (a.vlim.toNat : Int) (sword a.svel + acc)

/-- A velocity may follow the present one in one cycle within the limits (R216). -/
def mayTake (a : Axis) (v : Int) : Bool :=
  decide (v.natAbs ≤ a.vlim.toNat) && decide ((v - sword a.svel).natAbs ≤ a.alim.toNat) &&
    decide ((v - sword a.svel - sword a.acc).natAbs ≤ a.jlim.toNat)

/-- The set-point of a MOVE: its target when the last step fits the limits, else the next step of the profile (R216). -/
def moveSetpt (a : Axis) : Word :=
  let d := sword (a.p1 - a.setpt)
  if mayTake a d && decide (d.natAbs ≤ a.alim.toNat) then a.p1 else a.setpt + wordOfInt (profileVel a.p1 a)

/-- The set-point of a JOG (R216). -/
def jogSetpt (a : Axis) : Word :=
  let want := within (a.vlim.toNat : Int) (sword a.p1)
  a.setpt + wordOfInt (if mayTake a want then want else profileVel a.p1 a)

/-- The set-point of a GEAR and whether its clutch is complete (R218). -/
def gearSetpt (m : Word) (a : Axis) : Word × Bool :=
  let d := sword (m - a.p1)
  let cl := sword a.gcl
  let den : Int := (a.gden : Int)
  if d ≤ 0 then (a.soff, decide (cl ≤ d))
  else if d < cl then
    (a.soff + wordOfInt (fdiv (a.gnum * d * d * d * (2 * cl - d)) (2 * den * cl * cl * cl)), false)
  else (a.soff + wordOfInt (fdiv (a.gnum * (2 * d - cl)) (2 * den)), true)

/-- The set-point of a ramp to standstill (R217, R230). -/
def rampSetpt (a : Axis) : Word :=
  let v := sword a.svel
  let m : Int := max ((v.natAbs : Int) - (a.dec.toNat : Int)) 0
  a.setpt + wordOfInt (if 0 ≤ v then m else -m)

/-- The master's set-point of this cycle (R199). -/
def masterSetpt (s : State) (e slot : Nat) : Word :=
  let n := bits (axisRec s e slot 0) 20 11
  (axisAt s (n / 128) (n % 128)).setpt

/-- ns of a motion cycle (R198). -/
def cycleNs (g : Engine) : Nat := bits g.cfg 4 0 * 31250

/-- The registration offset of an axis at a master position, with a ramp that has ended (R228). -/
def rampOffset (s : State) (e slot : Nat) (m : Word) (a : Axis) : Axis :=
  match a.ramp with
  | none => a
  | some r =>
    let l : Int := ((bits (axisRec s e slot 80) 63 34 * 256 : Nat) : Int)
    let d := sword (m - r.start)
    if l ≤ d then { a with regofs := r.base + wordOfInt r.c, ramp := none }
    else if d ≤ 0 then { a with regofs := r.base }
    else { a with regofs := r.base + wordOfInt (fdiv (r.c * (3 * d * d * l - 2 * d * d * d)) (l * l * l)) }

/-- A pending correction that is due applies: a step with a JUMP, or the start of a ramp (R228). -/
def applyCorrection (s : State) (e slot : Nat) (m : Word) (q : Int) (u : Nat) (a : Axis) : Axis :=
  match a.pendCorr with
  | none => a
  | some (c, from_) =>
    if q < from_ || decide (u < (axisRec s e slot 120).toNat) || a.ramp.isSome then a
    else if bit (axisRec s e slot 0) 10 then { a with regofs := a.regofs + wordOfInt c, pendCorr := none, jump := true }
    else { a with pendCorr := none, ramp := some { c := c, base := a.regofs, start := m } }

/-- The master position at an edge time, between the kept positions that bracket it; none is stale (R225). -/
def markPosition : List (Word × Word) → Word → Option Word
  | (mb, tb) :: (ma, ta) :: r, t =>
    if ta.toNat ≤ t.toNat then
      some (ma + wordOfInt (fdiv (sword (mb - ma) * sword (t - ta)) (sword (tb - ta))))
    else markPosition ((ma, ta) :: r) t
  | _, _ => none

/-- The error of a mark brought into half a period (R226). -/
def markError (period : Int) (x : Int) : Int :=
  let y := x - period * fdiv x period
  if 2 * y ≤ period then y else y - period

/-- A new mark: within the window it is accepted and gives a correction (R225 to R227). -/
def takeMark (e slot : Nat) (camA : Nat) (t : Word) (q : Int) (u : Nat) (s : State) : State :=
  let a := axisAt s e slot
  match markPosition a.masters t with
  | none => s
  | some pm =>
    let period : Int := ((readWord s (camA + 8)).toNat : Int)
    let um := ((camPhase s camA pm a.camRef.moff).2.2 : Int)
    let err := markError period (um - sword (axisRec s e slot 88))
    if (axisRec s e slot 96).toNat < err.natAbs then s
    else
      let gain : Int := (bits (axisRec s e slot 80) 33 18 : Int)
      let raw := -(fdiv (fdiv (err * sword (axisRec s e slot 104)) (2 ^ 32) * gain) (2 ^ 16))
      let top : Int := ((axisRec s e slot 112).toNat : Int)
      let c := within top raw
      let from_ := if (axisRec s e slot 120).toNat < u then q + 1 else q
      let z := modAxis e slot (fun x => { x with
        regerr := wordOfInt err, regcnt := (x.regcnt + 1) % 2 ^ 32, markSeen := true, missing := false,
        pendCorr := some (c, from_) }) s
      if c = raw then z else raise z 0x0205 1 (field 0 (axisNo e slot)) (wordOfInt raw)

/-- REGMISS of an axis status counted (R210, R226). -/
def countMiss (e slot : Nat) (s : State) : State :=
  let a := axisAt s e slot
  let c := satStep 32 a.regmiss
  let q := modAxis e slot (fun x => { x with regmiss := c.1, missing := true }) s
  let q := if c.2 then raise q 0x0003 1 (field 0 2) (field 0 (axisNo e slot) ||| field 16 52) else q
  if a.missing then q else raise q 0x0204 1 (field 0 (axisNo e slot))

/-- The master position of this cycle and its target instant kept, whatever the axis does (R225). -/
def keepMaster (c : MotionRun) (e slot : Nat) (s : State) : State :=
  if !bit (axisRec s e slot 0) 9 then s
  else
    let target : Word := field 0 (c.tick * 31250 + cycleNs (engineAt s e))
    modAxis e slot (fun x => { x with masters := ((masterSetpt s e slot, target) :: x.masters).take 3 }) s

/-- The latch count of this cycle kept, whatever the axis does (R225). -/
def keepCount (c : MotionRun) (e slot : Nat) (s : State) : State :=
  let w0 := axisRec s e slot 0
  let off := bits (axisRec s e slot 80) 17 0
  if !bit w0 9 then s
  else match readOf c (bits w0 4 3) off, readOf c (bits w0 4 3) (off + 8) with
    | some (some _), some (some n) => modAxis e slot (fun x => { x with markCount := bits n 31 0 }) s
    | _, _ => s

/-- Registration in one cycle of a cam: a new mark, the passing of the window, and the corrections (R225 to R228). -/
def registration (c : MotionRun) (e slot : Nat) (camA : Nat) (m : Word) (s : State) : State :=
  let w0 := axisRec s e slot 0
  if !bit w0 9 then s
  else
    let a := axisAt s e slot
    let ph := camPhase s camA m a.camRef.moff
    let off := bits (axisRec s e slot 80) 17 0
    let mk := bits w0 4 3
    let s := match readOf c mk off, readOf c mk (off + 8) with
      | some (some t), some (some n) => if bits n 31 0 = a.markCount then s else takeMark e slot camA t ph.2.1 ph.2.2 s
      | _, _ => s
    let period : Int := ((readWord s (camA + 8)).toNat : Int)
    let edge := sword (axisRec s e slot 88) + ((axisRec s e slot 96).toNat : Int)
    let passed := match a.lastq with
      | some g => decide (fdiv (g - edge) period < fdiv (ph.1 - edge) period)
      | none => false
    let s := if !passed then s
      else if (axisAt s e slot).markSeen then modAxis e slot (fun x => { x with markSeen := false }) s
      else countMiss e slot s
    modAxis e slot (fun x => applyCorrection s e slot m ph.2.1 ph.2.2 (rampOffset s e slot m x)) s

/-- A waiting cam switch takes effect when q differs from that of the cycle before (R224). -/
def waitingCam (m : Word) (e slot : Nat) (s : State) : State :=
  let a := axisAt s e slot
  match a.camNext, camAddr s a.camRef.camid, a.lastq with
  | some r, some t, some g =>
    let p : Int := ((readWord s (t + 8)).toNat : Int)
    if fdiv g p = fdiv (sword (m - a.camRef.moff)) p then s else modAxis e slot (switchCam r) s
  | _, _, _ => s

/-- One cycle of an axis in CAM (R223 to R228, R433). -/
def camCycle (c : MotionRun) (e slot : Nat) (s : State) : State × Word :=
  let m := masterSetpt s e slot
  let q := waitingCam m e slot s
  let a := axisAt q e slot
  match camAddr q a.camRef.camid with
  | none => (q, a.setpt)
  | some t =>
    let q := registration c e slot t m q
    let a := axisAt q e slot
    let ph := camPhase q t m a.camRef.moff
    let r := camSetpt q t m a.camRef.moff a.camRef.soff a.regofs
    let bad := badCam q t ph.2.2
    if bad.isEmpty then
      (modAxis e slot (fun x => { x with lastq := some ph.1, camdone := r.2 }) q, r.1)
    else (readGuard e bad q, a.setpt)

/-- The set-point of an axis for this cycle by its state and mode (R212, R213, R216 to R218, R223, R230). -/
def nextSetpt (c : MotionRun) (e slot : Nat) (s : State) : State × Word :=
  let a := axisAt s e slot
  let byMode : State × Word := match a.mode with
    | .move => (s, moveSetpt a)
    | .jog => (s, jogSetpt a)
    | .vmaster => (s, if a.accepted then jogSetpt a else moveSetpt a)
    | .direct => (s, a.p1)
    | .gear =>
      let r := gearSetpt (masterSetpt s e slot) a
      (modAxis e slot (fun x => { x with clutched := r.2 }) s, r.1)
    | .cam => camCycle c e slot s
    | .xmaster => (match feedback s c e slot with
      | some (some fb) =>
        (modAxis e slot (fun x => { x with fbPrev := fb }) s,
         Config.masterEstimate fb a.fbPrev (bits (axisRec s e slot 8) 47 28) (cycleNs (engineAt s e)))
      | _ => (s, a.setpt + a.svel))
    | .none => (s, a.setpt)
  match a.state with
  | .moving => byMode
  | .stopping => (match a.stopHow with
    | .follow => byMode
    | .ramp => (s, rampSetpt a)
    | .hold => (s, a.setpt))
  | _ => (s, a.setpt)

/-- A SERVO_LIN set-point in GEAR, CAM or DIRECT held within LMIN to LMAX, and whether it was outside (R217). -/
def limited (s : State) (e slot : Nat) (a : Axis) (p : Word) : Word × Bool :=
  let lo := axisRec s e slot 48
  let hi := axisRec s e slot 56
  if axisType s e slot == 2 && (a.state == .moving || a.state == .stopping) &&
      (a.mode == .gear || a.mode == .cam || a.mode == .direct) then
    (if sword p < sword lo then (lo, true) else if sword hi < sword p then (hi, true) else (p, false))
  else (p, false)

/-- The following error of a cycle, and whether it breaks FELIM (R210, R217). -/
def followError (s : State) (e slot : Nat) (a : Axis) (p : Word) (fb : Option (Option Word)) : Word × Bool :=
  let felim := axisRec s e slot 64
  let lag := bits (axisRec s e slot 8) 27 20
  match fb, (p :: a.history)[lag]? with
  | some (some v), some past =>
    if felim = 0 || !isServo (axisType s e slot) || a.state == .standby then (0, false)
    else (past - v, decide (felim.toNat < (sword (past - v)).natAbs))
  | _, _ => (0, false)

/-- An axis that has reached velocity 0, or its target, changes its state (R214). -/
def settleAxis (wasStopping wasMove : Bool) (a : Axis) : Axis :=
  if wasStopping && a.state == .stopping && a.svel == 0 then
    { a with state := if a.cause = 0 then .held else .fault, mode := .none }
  else if wasMove && a.state == .moving && a.setpt == a.p1 then { a with state := .held, mode := .none, inpos := true }
  else a

/-- One axis in one motion cycle up to its set-point, faults and state (R213 to R218, R223, R231). -/
def runAxis (c : MotionRun) (e slot : Nat) (s : State) : State :=
  let s := keepMaster c e slot (takeAxisCommand c e slot s)
  let a0 := axisAt s e slot
  let r := nextSetpt c e slot s
  let lim := limited r.1 e slot (axisAt r.1 e slot) r.2
  let p := lim.1
  let fb := feedback s c e slot
  let fe := followError r.1 e slot a0 p fb
  let checked := axisType s e slot == 4 || (isServo (axisType s e slot) && axisRec s e slot 64 != 0)
  let q := modAxis e slot (fun a => { a with
    setpt := p, svel := p - a.setpt, acc := (p - a.setpt) - a.svel, ferr := fe.1, history := (p :: a.history).take 256 }) r.1
  let q := if checked && fb == some none && a0.state != .standby then axisFault e slot 3 q else q
  let q := if fe.2 then axisFault e slot 1 q else q
  let q := if lim.2 then axisFault e slot 2 q else q
  let isMove := a0.mode == .move || (a0.mode == .vmaster && !a0.accepted)
  keepCount c e slot (modAxis e slot (settleAxis (a0.state == .stopping) (a0.state == .moving && isMove)) q)

/-! ### Coding (R212, R234 to R239) -/

/-- A slot is STILL: STANDBY, a master type, ARMED = 0, or stopped under HOLD (R212, R232, R235). -/
def isStill (s : State) (e slot : Nat) (a : Axis) : Bool :=
  !s.ctl.armed || a.state == .standby || !isServo (axisType s e slot) || (a.state == .stopping && a.stopHow == .hold)

/-- The code of a slot and the coder after it (R235, R239). -/
def codeSlot (still : Bool) (slot : Nat) (a : Axis) : SlotCode × Axis :=
  let done : Axis := { a with jump := false, refresh := a.refresh - 1 }
  let p := a.setpt
  let out (c : BitVec 8) (esc : Option Word) : SlotCode := { slot := slot, code := c, esc := esc, r0 := a.r, v0 := a.v }
  if still then (out 0x80 none, { done with v := 0 })
  else if a.jump then (out 0x7F (some p), { done with r := p })
  else if 0 < a.refresh then (out 0x81 (some p), { done with v := p - a.r, r := p })
  else
    let c := fdiv (sword (p - (a.r + a.v)) + 128) 256
    if c < -126 || 126 < c then (out 0x81 (some p), { done with v := p - a.r, r := p })
    else
      let v := a.v + wordOfInt (256 * c)
      (out (BitVec.ofInt 8 c) none, { done with v := v, r := a.r + v })

/-- A slot given code 0 (R202, R235). -/
def codeZero (slot : Nat) (a : Axis) : SlotCode × Axis :=
  ({ slot := slot, code := 0, esc := none, r0 := a.r, v0 := a.v }, { a with r := a.r + a.v })

/-- The coder of the slots of a missed block advances as for code 0 from where it stood before the missed cycle (R203). -/
def catchUp (e : Nat) (s : State) : State :=
  let g := engineAt s e
  forEach g.missed (fun b q =>
    mapAxes e (fun i a =>
      if b.1 ≤ i && i < b.1 + b.2.1 then
        (match (if g.codesFor = some b.2.2 then g.codes.find? (fun c => c.slot == i) else none) with
        | some c => { a with r := c.r0 + c.v0, v := c.v0 }
        | none => { a with r := a.r + a.v })
      else a) q) (modEngine e (fun g => { g with missed := [] }) s)

/-- The sending slots of an engine: those of its axis blocks (R234, R240). -/
def sendSlots (s : State) (e : Nat) : List Nat :=
  let rs := (blockRanges s.net.sched).filter (fun r => r.1 == e)
  (List.range 128).filter (fun i => rs.any (fun r => decide (r.2.1 ≤ i) && decide (i < r.2.1 + r.2.2)))

/-- The sending slots of an engine that start a refresh in this cycle: RFRN of them in every second cycle, in ascending order and wrapping (R238). -/
def pickRefresh (e : Nat) (s : State) : State :=
  let g := engineAt s e
  let sending := sendSlots s e
  let n := min (bits g.cfg 35 32) sending.length
  if g.ecyc % 2 = 0 || n = 0 then s
  else
    let chosen := ((sending.filter (fun i => g.refreshPos ≤ i)) ++ (sending.filter (fun i => i < g.refreshPos))).take n
    let q := modEngine e (fun g => { g with refreshPos := chosen.getLastD 0 + 1 }) s
    forEach chosen (fun i q => modAxis e i (fun a => { a with refresh := 2 }) q) q

/-- Every sending slot of an engine coded, one without an axis as STILL; unfinished ones carry code 0 (R202, R212, R235; log 50). -/
def codeAll (e : Nat) (unfinished : List Nat) (s : State) : State :=
  let q := pickRefresh e (modEngine e (fun g => { g with codes := [] }) s)
  forEach (sendSlots q e) (fun i q =>
    let a := axisAt q e i
    let r := if unfinished.contains i && !isStill q e i a then codeZero i a else codeSlot (isStill q e i a) i a
    modEngine e (fun g => { g with
      codes := g.codes ++ [r.1], eesc := (g.eesc + r.1.esc.toList.length) % 2 ^ 64 }) (modAxis e i (fun _ => r.2) q)) q

/-! ### The phases of a motion cycle (R200) -/

/-- Two engines pass the level barriers together (R200). -/
def sameGroup (s : State) (e f : Nat) : Bool := bits (engineAt s e).cfg 8 0 == bits (engineAt s f).cfg 8 0

/-- The engines of a group whose cycle of a tick is in progress and not yet computed. -/
def groupOf (s : State) (e tick : Nat) : List Nat :=
  (List.range 8).filter (fun f => sameGroup s e f && (match (engineAt s f).cycle with
    | some c => c.tick == tick && !c.computed
    | none => false))

/-- Every engine of the group that has axes has started the cycle and ended its read phase (R200). -/
def barrierOpen (s : State) (e tick : Nat) : Bool :=
  (List.range 8).all (fun f => !sameGroup s e f || (engineAt s f).axes.isEmpty || ((engineAt s f).due != some tick && (match (engineAt s f).cycle with
    | some c => c.tick != tick || c.waiting.isEmpty
    | none => true)))

/-- An axis in one motion cycle; an unfinished one only has the command of before a RUN refused and the INIT of a takeover given (R202, R231, R399). -/
def runOrSkip (c : MotionRun) (e slot : Nat) (skip : Bool) (s : State) : State :=
  if !skip then runAxis c e slot s
  else if c.discardCmds || c.initAll then takeAxisCommand c e slot s
  else s

/-- All levels of a group of engines, one after the other, then the coding of each engine; `skip` names unfinished slots of engine `e` (R199, R200, R202). -/
def computeGroup (e : Nat) (skip : List Nat) (l : List Nat) (s : State) : State :=
  let q := forEach l catchUp s
  let level (k : Nat) (q : State) : State := forEach l (fun f q =>
    forEach (usedSlots q f) (fun i q =>
      match (engineAt q f).cycle with
      | some c =>
        if bits (axisRec q f i 0) 8 7 = k then runOrSkip c f i (f = e && skip.contains i) q else q
      | none => q) q) q
  let q := forEach (List.range 4) level q
  forEach l (fun f q => modEngine f (fun g => { g with cycle := g.cycle.map (fun c => { c with computed := true }) })
    (codeAll f (if f = e then skip else []) q)) q

/-- The code of a mode in the status block (R210). -/
def modeCode (a : Axis) : Nat :=
  if a.state != .moving then 0
  else match a.mode with
    | .move => 0
    | .jog => 1
    | .gear => 2
    | .cam => 3
    | .direct => 4
    | .vmaster => 5
    | .xmaster => 6
    | .none => 0

/-- The code of an axis state (R210). -/
def AxisState.code : AxisState → Nat
  | .standby => 0
  | .held => 1
  | .moving => 2
  | .stopping => 3
  | .fault => 4

/-- The status block of an axis (R210). -/
def statusBlock (g : Engine) (a : Axis) : List Byte :=
  bytesOfWords [field 0 (g.ecyc % 2 ^ 32) ||| (a.ackseq <<< 32),
    field 0 a.state.code ||| field 3 (modeCode a) ||| field 8 a.result ||| field 16 a.cause ||| flag 20 a.inpos |||
      flag 21 a.clutched ||| flag 22 a.camdone ||| flag 23 (a.pendCorr.isSome || a.ramp.isSome),
    a.setpt, a.svel, a.ferr, a.regerr, field 0 a.regcnt ||| field 32 a.regmiss, a.regofs]

/-- Every status block of an engine written (R200, R207, R210). -/
def writeStatus (e : Nat) (s : State) : State :=
  forEach (usedSlots s e) (fun i q =>
    marketWrite none (commandAddr q e i + 64) (statusBlock (engineAt q e) (axisAt q e i)) q) s

/-- MOTHASH of a cycle: ECYC and the engine's axis blocks in ascending FIRST order (R389). -/
def motionHash (s : State) (e : Nat) : Word :=
  let g := engineAt s e
  let rs := ((blockRanges s.net.sched).filter (fun r => r.1 == e)).map (fun r => (r.2.1, r.2.2))
  let sorted := (List.range 128).flatMap (fun f => rs.filter (fun r => r.1 == f))
  crc64 (bytesOfNat 8 g.ecyc ++ sorted.flatMap (fun r => (readBlock s e r.1 r.2).1))

/-- A motion hash known on the standby is compared with the other one of its cycle; with CMPOFF = 1 a mismatch is only counted (R391, R394). -/
def compareMotion (e cyc : Nat) (h : Word) (s : State) : State :=
  match s.red.motHashes.find? (fun x => x.1 == e && x.2.1 == cyc) with
  | some x =>
    let q := modRed (fun r => { r with motHashes := r.motHashes.filter (fun y => !(y.1 == e && y.2.1 ≤ cyc)) }) s
    if x.2.2 = h then q
    else if q.red.cmpOff then
      let c := satStep 32 q.red.cmpbad
      counterFull 0x14048 c.2 (modRed (fun r => { r with cmpbad := c.1 }) q)
    else pairDetach 11 q
  | none => modRed (fun r => { r with motHashes := r.motHashes ++ [(e, cyc, h)] }) s

/-- The own motion hash is sent, and compared on the standby (R385, R394). -/
def shareMotion (e : Nat) (s : State) : State :=
  if (mirrorOn s || following s) && !(engineAt s e).axes.isEmpty then
    let h := motionHash s e
    let n := (engineAt s e).ecyc
    let q := sendHash (field 0 n) (flag 63 true ||| field 0 e) h s
    if following s then compareMotion e n h q else q
  else s

/-- A computed cycle is handed off: set-point buffers, LASTDONE, status blocks, hash (R200, R246). -/
def handOffCycle (e : Nat) (s : State) : State :=
  match (engineAt s e).cycle with
  | none => s
  | some c =>
    let d := satTo 16 ((nowT s - c.tick * 31250) / 10)
    let q := modEngine e (fun g => { g with
      cycle := none, codesFor := some c.tick, lastdone := d, maxdone := max g.maxdone d }) s
    shareMotion e (writeStatus e q)

/-- The motion read content sent to the standby (R377, R385): words of the banks, then the command blocks, in pieces that each begin with a last-piece flag. -/
def sendMotion (e : Nat) (s : State) : State :=
  match mirrorOn s, (engineAt s e).cycle with
  | true, some c =>
    let reads := bytesOfWords (c.reads.flatMap (fun r =>
      [field 0 r.1 ||| field 8 r.2.1 ||| flag 63 r.2.2.isSome, r.2.2.getD 0]))
    let cmds := c.cmds.flatMap (fun x => bytesOfWords [flag 62 true ||| field 0 x.1] ++ x.2)
    let ps := (pieces 4064 reads ++ pieces 4032 cmds).map Prod.snd
    forEach (enumFrom 1 ps) (fun p q =>
      linkSend 5 (field 0 (engineAt s e).ecyc) (bytesOfWords [field 0 e, flag 0 (p.1 == ps.length)] ++ p.2) q) s
  | _, _ => s

/-- The words and command blocks of a mirrored motion read (R385). -/
def mirroredReads : Nat → List Byte → List (Nat × Nat × Option Word) × List (Nat × List Byte)
  | 0, _ => ([], [])
  | fuel + 1, l =>
    if l.isEmpty then ([], [])
    else
      let w := wordAt l 0
      if bit w 62 then
        let r := mirroredReads fuel (l.drop 72)
        (r.1, (bits w 7 0, (l.drop 8).take 64) :: r.2)
      else
        let r := mirroredReads fuel (l.drop 16)
        ((bits w 7 0, bits w 31 8, if bit w 63 then some (wordAt l 8) else none) :: r.1, r.2)

/-- The mirrored motion read of an engine's next cycle on the standby (R385). -/
def motionMirror (s : State) (e : Nat) : Option (List Byte) :=
  (s.red.motions.find? (fun m => m.1 == (engineAt s e).ecyc + 1 && m.2.1 == e && m.2.2.1)).map (fun m => m.2.2.2)

/-- MOTION_CYCLE: at Tm the read phase begins; a standby takes the mirrored content instead (R198, R200, R207, R209, R229 to R232, R385, R433). -/
def execMotionCycle (e : Fin 8) (s : State) : Out :=
  let g := engineAt s e.val
  match g.due with
  | none => ok s
  | some n =>
    if s.ctl.mode == .held then ok s
    else
      let q := untilT (n * 31250) s
      let q := readGuard e.val (badRecords q e.val) q
      let reads := q.ctl.mode == .run || q.ctl.mode == .hold
      let begin_ (w : List Nat) (rs : List (Nat × Nat × Option Word)) (cs : List (Nat × List Byte)) (z : State) : State :=
        modEngine e.val (fun g => { g with
          due := none, ecyc := (g.ecyc + 1) % 2 ^ 64, stale := g.stale && !reads
          cycle := some { tick := n, started := z.mono, waiting := w, reads := rs, cmds := cs,
                          discardCmds := g.stale, initAll := reads && q.red.initAxes.contains e.val, computed := false } }) z
      if q.red.role == .standby && !g.axes.isEmpty then
        (match motionMirror q e.val with
        | none => ok s
        | some l =>
          let r := mirroredReads l.length l
          ok (modRed (fun x => { x with motions := x.motions.filter (fun m => !(m.2.1 == e.val && m.1 ≤ g.ecyc + 1)) })
            (begin_ [] r.1 r.2 q)))
      else
        let ok_ (i : Nat) : Bool := (ueAll q (commandAddr q e.val i) 64).isEmpty
        let bad := if reads then (usedSlots q e.val).flatMap (fun i => ueAll q (commandAddr q e.val i) 64) else []
        let cs := if reads then ((usedSlots q e.val).filter ok_).map (fun i => (i, readBytes q (commandAddr q e.val i) 64)) else []
        let q := modRed (fun x => { x with initAxes := if reads then x.initAxes.filter (fun i => i != e.val) else x.initAxes }) (forEach bad memUe q)
        let ms := banksUsed q e.val
        ok (forEach ms (fun m q => bankAsk (Fin.ofNat 4 m) (.motionRead e.val) (8 * (motionWords q e.val m).eraseDups.length) q)
          (begin_ ms [] cs q))

/-- The end of an overrun run is reported (R202). -/
def endOverrun (e : Nat) (s : State) : State :=
  let g := engineAt s e
  if g.run = 0 then s
  else raise (modEngine e (fun g => { g with run := 0 }) s) 0x0201 0 (field 0 e) (field 0 g.run)

/-- MOTION_HANDOFF: once every engine of the group has read, levels and coding are computed and the engine hands off (R200, R202). -/
def execMotionHandoff (e : Fin 8) (s : State) : Out :=
  match (engineAt s e.val).cycle with
  | none => ok s
  | some c =>
    if c.computed then ok (endOverrun e.val (handOffCycle e.val s))
    else if barrierOpen s e.val c.tick then
      let q := forEach (groupOf s e.val c.tick) sendMotion s
      ok (endOverrun e.val (handOffCycle e.val (computeGroup e.val [] (groupOf q e.val c.tick) q)))
    else ok s

/-- MOTION_DEADLINE: DL is reached; unfinished sending slots carry code 0, the overrun is counted and reported, and MOVRLIM enters reduced mode (R202, R204, R247). -/
def execMotionDeadline (e : Fin 8) (unfinished : List Nat) (s : State) : Out :=
  match (engineAt s e.val).cycle with
  | none => ok s
  | some c =>
    if unfinished.isEmpty || c.computed then ok s
    else
      let g := engineAt s e.val
      let q := untilT (c.tick * 31250 + 10 * bits g.cfg 31 16) s
      let l := (groupOf q e.val c.tick).filter (fun f => f == e.val || (match (engineAt q f).cycle with
        | some x => x.waiting.isEmpty
        | none => false))
      let q := handOffCycle e.val (computeGroup e.val unfinished l (forEach l sendMotion q))
      let k := satStep 32 g.eovr
      let q := modEngine e.val (fun g => { g with eovr := k.1, run := g.run + 1 }) q
      let q := counterFull (0x10180 + 8 * e.val) k.2 q
      let q := if g.run = 0 then raise q 0x0200 1 (field 0 e.val) else q
      let lim := bits g.cfg 43 36
      ok (if lim ≠ 0 && g.run + 1 = lim then enterReduced e.val q else q)

/-! ### The MOT registers (R244 to R248) -/

/-- A write of MOT.ECFGn with its relations MPHASE < MCYC and DL < MCYC x 3,125 (R244, R245, R546). -/
def writeEcfg (e : Nat) (v : Word) (s : State) : State :=
  let old := (engineAt s e).ecfg
  let g (w : Word) (hi lo : Nat) : Nat := bits w hi lo
  let a := judge old v [{ hi := 4, lo := 0, good := fun x => 1 ≤ x && x ≤ 16 }, anyField 8 5,
    { hi := 31, lo := 16, good := fun x => x != 0 }, { hi := 35, lo := 32, good := fun x => x ≤ 8 }, anyField 43 36]
  let phaseBad := decide (g a.1 4 0 ≤ g a.1 8 5)
  let b := if phaseBad then putBits (putBits a.1 4 0 (g old 4 0)) 8 5 (g old 8 5) else a.1
  let dlBad := decide (g b 4 0 * 3125 ≤ g b 31 16)
  let c := if dlBad then putBits (putBits (putBits b 4 0 (g old 4 0)) 31 16 (g old 31 16)) 8 5 (if g b 8 5 < g old 4 0 then g b 8 5 else g old 8 5) else b
  when_ (a.2 || phaseBad || dlBad) reservedWrite (modEngine e (fun x => { x with ecfg := c }) s)

/-- MOT_ECFG_WRITE (R244, R245). -/
def execMotEcfgWrite (e : Fin 8) (val : Word) (s : State) : Out := ok (writeEcfg e.val val s)

/-- EOVR, EESC and MAXDONE of the engines named in bits [7..0] are set to 0 (R248). -/
def clearMotCounts (v : Word) (s : State) : State :=
  forEach (List.range 8) (fun e q => if bit v e then modEngine e (fun g => { g with eovr := 0, eesc := 0, maxdone := 0 }) q else q) s

/-- MOT_CNTCLR (R248). -/
def execMotCntclr (val : Word) (s : State) : Out := ok (clearMotCounts val s)

/-- A write to the MOT block (R244, R248). -/
def writeMot (o : Nat) (v : Word) (s : State) : State :=
  if o = 0 then clearMotCounts v s
  else match slotOf 0x100 8 8 o with
    | some e => writeEcfg e v s
    | none => s

end Sys2Proof.Machine
end

