-- ==== Sys2Proof/Machine/HostData.lean ====
section
/-!
DEFINITION. The commands that move host data over DMA channel 0: what they wait for, and the bytes they give to and take from the host (R364, R366, R370, R371).
-/
namespace Sys2Proof.Machine

/-- A command that moves host data on a channel: BAD_DESC on a reserved field, ABORTED while the engine is off; while the channel is halted or has earlier commands it waits in its ring (R349, R364, R365, R370, R371; the order of the checks, log 19). -/
def dataOn (ch : Nat) (c : Cmd) (clean : Bool) (f : State → State) (s : State) : State :=
  if !clean then finish c 2 0 0 s
  else if dmaOff s then finish c 5 0 0 s
  else if chanTaken s ch then s
  else f s

/-- A command of R364 that uses channel 0. -/
def dataCommand (c : Cmd) (clean : Bool) (f : State → State) (s : State) : State := dataOn 0 c clean f s

/-- A record given to the host over a channel, and the command's completion (R351, R366, R370). -/
def giveOn (ch : Nat) (c : Cmd) (a : Word) (bs : List Byte) (r0 r1 : Word) (s : State) : State :=
  if !hostRangeOk a bs.length then finish c 3 0 0 s
  else if !canReq s then finish c 4 0 0 (chanHalt ch 7 true false a.toNat s)
  else finish c 0 r0 r1 (chanBytes ch bs.length (hostWrite a.toNat bs s))

/-- A record given to the host over channel 0. -/
def giveBytes (c : Cmd) (a : Word) (bs : List Byte) (r0 r1 : Word) (s : State) : State := giveOn 0 c a bs r0 r1 s

/-- The host bytes of a load command handed to `f`, cut to the length the descriptor names (R366, R370). -/
def takeOn (ch : Nat) (c : Cmd) (a : Word) (n : Nat) (data : List Byte) (f : List Byte → State → State) (s : State) : State :=
  if !hostRangeOk a n then finish c 3 0 0 s
  else if !canReq s then finish c 4 0 0 (chanHalt ch 7 false false a.toNat s)
  else f (fitBytes n data) (chanBytes ch n s)

/-- The host bytes of a load command over channel 0. -/
def takeBytes (c : Cmd) (a : Word) (n : Nat) (data : List Byte) (f : List Byte → State → State) (s : State) : State :=
  takeOn 0 c a n data f s

/-- The unit is the standby of a pair, which refuses the commands of R388. -/
def isStandby (s : State) : Bool := s.red.role == .standby

/-- A command refused on the standby: BAD_STATE with reason STANDBY in RESULT0 (R388, R405). -/
def notOnStandby (c : Cmd) (f : State → State) (s : State) : State :=
  if isStandby s then finish c 6 16 0 s else f s

end Sys2Proof.Machine
end

