-- ==== Sys2Proof/Machine/Time.lean ====
section
/-!
DEFINITION. The time unit and the time-sync service: base tick boundaries, corrections of the local clock, time comparators, PTP messages, and the TSY and TCMP registers (R44, R257 to R284, R303, R352).
-/
namespace Sys2Proof.Machine

/-! ### Base tick boundaries (R44, R198, R273, R274, R276, R287, R303) -/

/-- The number of the next boundary to fire (R274, R276). -/
def nextBoundary (c : Clock) : Nat := c.firstBoundary.getD (c.ticknum + 1)

/-- A cyclic task is released at boundary n (R44). -/
def releasedAt (e : TaskEntry) (n : Nat) : Bool := !e.event && dueAt e.periodM1 e.phase n

/-- The field period is due at boundary n (R303). -/
def fieldDue (s : State) (n : Nat) : Bool := dueAt (bits s.field.tcfg 7 0) (bits s.field.tcfg 15 8) n

/-- Release signals leave for the Markets; outside RUN and HOLD no release follows, and what ran ahead for the instant is squashed (R44, R47, R69, R91). -/
def fireReleases (n : Nat) (s : State) : State :=
  let ids := (s.tasks.filter (fun x => releasedAt x.e n)).map (fun x => x.e.id)
  if s.ctl.mode == .run || s.ctl.mode == .hold then
    { s with signals := s.signals ++ ids.map (fun i => { task := i, tick := n }) }
  else squashWhere (fun q t => ids.contains (tillAt q t).rel.task) s

/-- The motion cycles of a boundary become due; one that never began counts as missed (R198, R203, R247). -/
def fireMotion (n : Nat) (s : State) : State :=
  forEach (List.range 8) (fun e q =>
    let g := engineAt q e
    if dueAt (bits g.cfg 4 0 - 1) (bits g.cfg 8 5) n then modEngine e (fun g => { g with
      due := some n, ecyc := if g.due.isSome && q.red.role != .standby then (g.ecyc + 1) % 2 ^ 64 else g.ecyc }) q
    else q) s

/-- The field instants of a boundary; a gather that begins before its boundary belongs to the boundary before (R303). -/
def fireField (n : Nat) (s : State) : State :=
  let f := s.field
  let inOff := bits f.tcfg 30 16
  let outOff := bits f.tcfg 45 31
  let lead := bits f.tcfg 60 46
  let now := fieldDue s n
  let gatherHere := if lead ≤ outOff then now else fieldDue s (n + 1)
  let gatherAt := if lead ≤ outOff then n * 31250 + outOff - lead else (n + 1) * 31250 + outOff - lead
  { s with field := { f with
      tinDue := if now then some (n * 31250 + inOff) else f.tinDue
      toutDue := if now then some (n * 31250 + outOff) else f.toutDue
      gatherDue := if gatherHere then some gatherAt else f.gatherDue } }

/-- The frames and receive windows of a boundary become due; a frame gathered ahead for it stays as it is (R273, R287, R289, R292). -/
def fireSched (n : Nat) (s : State) : State :=
  { s with net := { s.net with sched := s.net.sched.map (fun e =>
      if !dueAt e.periodM1 e.phase n || e.due == some n then e
      else if e.rx then { e with due := some n }
      else { e with due := some n, gathers := 0, built := none }) } }

/-- At its transfer boundary a unit that has abdicated gives up the mandate (R396, R403). -/
def fireHandover (n : Nat) (s : State) : State :=
  match s.red.handover with
  | some (h, planned) => if h ≤ n then surrender s.red.reason (planned && s.field.toutDue.isSome) s else s
  | none => s

/-- Boundary n fires (R273). In HELD nothing is scheduled. -/
def fireBoundary (n : Nat) (s : State) : State :=
  let q := { s with clock := { s.clock with ticknum := n, firstBoundary := none } }
  if q.ctl.mode == .held then q else fireHandover n (fireSched n (fireField n (fireMotion n (fireReleases n q))))

/-- TICK_BOUNDARY: the tick comparator fires the next boundary when T reaches it; none while SET = 0 (R273, R274). -/
def execTickBoundary (s : State) : Out :=
  if s.clock.set && s.power.inReset.isNone then
    let n := nextBoundary s.clock
    ok (fireBoundary n (untilT (n * 31250) s))
  else ok s

/-! ### Time comparators (R277 to R284) -/

/-- A comparator. -/
def tcmpAt (s : State) (n : Nat) : Comparator := vget s.tcmp n Comparator.reset

/-- One comparator changed. -/
def modTcmp (n : Nat) (f : Comparator → Comparator) (s : State) : State := { s with tcmp := vmod s.tcmp n f }

/-- TIME minus T on 64 bits (R278, R280). -/
def tcmpDistance (s : State) (time : Word) : Int := sword (time - localT s)

/-- The action that TARGET selects (R282). -/
def tcmpAction (ctl : Word) (s : State) : State :=
  let i := bits ctl 11 4
  match bits ctl 3 1 with
  | 1 => forEach (List.range 4) (fun k q => if i.testBit k then analogTrigger k q else q) s
  | 2 =>
    let c := i % 32
    if isOutput (channelAt s c) && outSrc (channelAt s c) == 3 && bit (channelAt s c).cfg 28 then updateField (handOver c s) else s
  | 3 => { s with field := { s.field with
      tout0 := if i.testBit 0 then s.field.tout0 else i.testBit 1, tout1 := if i.testBit 0 then i.testBit 1 else s.field.tout1 } }
  | _ => s

/-- A comparator fires, late by some ns or in time: flags, reload, event, triggers, and action (R279, R282). -/
def fireTcmp (n : Nat) (late : Option Nat) (s : State) : State :=
  let c := tcmpAt s n
  let per := c.per.toNat
  let past := (-(tcmpDistance s c.time)).toNat
  let k := if per = 0 then 0 else past / per + 1
  let total := c.skips + (k - 1)
  let q := modTcmp n (fun c => { c with
    fired := true, armed := per != 0, time := c.time + field 0 (k * per), skips := min total 0xFFFF
    late := c.late || late.isSome, lateness := late.getD c.lateness }) s
  let q := counterFull (0xF018 + 0x20 * n) (decide (c.skips < 0xFFFF) && decide (0xFFFF ≤ total)) q
  let q := if bit c.ctl 12 then raise q 0x0309 0 (field 0 n) c.time else q
  tcmpAction c.ctl (triggerTasks 3 n 0 (localT q) 0 q)

/-- A comparator is armed at its target: fired late, armed, or refused (R278). -/
def armTcmp (n : Nat) (s : State) : State :=
  let d := tcmpDistance s (tcmpAt s n).time
  if d ≤ 0 && decide (-(2 ^ 39 : Int) < d) then fireTcmp n (some (-d).toNat) s
  else if 0 < d && decide (d < (2 ^ 39 : Int)) then modTcmp n (fun c => { c with armed := true }) s
  else modTcmp n (fun c => { c with armed := false, range := true }) s

/-- A write to TIME or CTL that coincides with the firing is discarded with WDROP, and the firing takes place (R281). -/
def unlessFiring (n : Nat) (f : State → State) (s : State) : State :=
  let c := tcmpAt s n
  if c.armed && decide (tcmpDistance s c.time ≤ 0) then fireTcmp n none (modTcmp n (fun c => { c with wdrop := true }) s) else f s

/-- A write of TCMP.TIMEn: arms while EN = 1 (R278). -/
def writeTcmpTime (n : Nat) (v : Word) (s : State) : State :=
  unlessFiring n (fun q =>
    let q := modTcmp n (fun c => { c with time := v }) q
    if bit (tcmpAt q n).ctl 0 then armTcmp n q else q) s

/-- TCMP_TIME_WRITE (R278, R281). -/
def execTcmpTimeWrite (n : Fin 64) (val : Word) (s : State) : Out := ok (writeTcmpTime n.val val s)

/-- A write of TCMP.CTLn: EN from 0 to 1 arms, EN = 0 disarms (R278, R284). -/
def writeTcmpCtl (n : Nat) (v : Word) (s : State) : State :=
  unlessFiring n (fun q =>
    let old := (tcmpAt q n).ctl
    let q := judged old v [anyField 0 0, { hi := 3, lo := 1, good := fun x => x ≤ 3 }, anyField 12 4]
      (fun w q => modTcmp n (fun c => { c with ctl := w, armed := c.armed && bit w 0 }) q) q
    if !bit old 0 && bit v 0 then armTcmp n q else q) s

/-- TCMP_CTL_WRITE (R284). -/
def execTcmpCtlWrite (n : Fin 64) (val : Word) (s : State) : Out := ok (writeTcmpCtl n.val val s)

/-- A write to the TCMP block: CTL, TIME, PER and STAT of each comparator (R284). -/
def writeTcmp (o : Nat) (v : Word) (s : State) : State :=
  let n := o / 0x20
  if 0x800 ≤ o then s
  else match o % 0x20 / 8 with
    | 0 => writeTcmpCtl n v s
    | 1 => writeTcmpTime n v s
    | 2 => judged (tcmpAt s n).per v [{ hi := 38, lo := 0, good := fun x => x == 0 || 1000 ≤ x }]
        (fun w q => modTcmp n (fun c => { c with per := w }) q) s
    | _ => modTcmp n (fun c => { c with
        fired := c.fired && !bit v 1, late := c.late && !bit v 2, range := c.range && !bit v 3, wdrop := c.wdrop && !bit v 4,
        stepdis := c.stepdis && !bit v 5, skips := if bits v 63 48 = 0xFFFF then 0 else c.skips }) s

/-- TIME_COMPARATOR_FIRE: an armed comparator fires when T reaches its target (R277, R282). -/
def execTimeComparatorFire (n : Fin 64) (s : State) : Out :=
  let c := tcmpAt s n.val
  if c.armed && s.power.inReset.isNone then ok (fireTcmp n.val none (untilT c.time.toNat s)) else ok s

/-- Every armed comparator re-evaluated at a step (R280). -/
def reevaluate (s : State) : State :=
  forEach (List.range 64) (fun n q =>
    let c := tcmpAt q n
    let d := tcmpDistance q c.time
    if !c.armed then q
    else if d ≤ 0 then fireTcmp n (some (min (-d).toNat (2 ^ 40 - 1))) q
    else if (2 ^ 39 : Int) ≤ d then modTcmp n (fun c => { c with armed := false, stepdis := true }) q
    else q) s

/-! ### Corrections of the clock (R265 to R268, R274 to R276) -/

/-- The clock changed. -/
def modClock (f : Clock → Clock) (s : State) : State := { s with clock := f s.clock }

/-- Boundaries passed by a forward step: the highest fires at once, the others are skipped (R276). -/
def passBoundaries (s : State) : State :=
  let first := nextBoundary s.clock
  let top := nowT s / 31250
  if !s.clock.set || top < first then s
  else
    let n := top - first
    let q := fireBoundary top (modClock (fun c => { c with tskip := c.tskip + n }) s)
    if n = 0 then q else raise q 0x0308 1 (field 0 n)

/-- A step of T by D ns (R265). -/
def stepClock (d : Int) (s : State) : State := modClock (fun c => { c with o := c.o + d * 2 ^ 40 }) s

/-- The step that sets the clock: SET, the first boundary after it, and TIME_SET with its source (R265 rule 1, R274, R275). -/
def setClock (d : Int) (src : Nat) (s : State) : State :=
  let q := stepClock d s
  let q := modClock (fun c => { c with set := true, firstBoundary := some (nowT q / 31250 + 1) }) q
  reevaluate (raise q 0x030D 0 (field 0 src) (wordOfInt d))

/-- A forced step is armed (R268). -/
def forcedArmed (s : State) : Bool :=
  match s.clock.keyArm with
  | some t => decide (s.mono ≤ t + 1000000)
  | none => false

/-- The key sequence ends: any other write to the TSY block (R268). -/
def clearKeys (s : State) : State := modClock (fun c => { c with keyFirst := false, keyArm := none }) s

/-- A correction D written to TSY.ADJ (R265). -/
def adjustClock (d : Int) (src : Nat) (s : State) : State :=
  let q := clearKeys s
  if !s.clock.set then setClock d src q
  else if d.natAbs ≤ s.clock.jumpLim || forcedArmed s then
    passBoundaries (reevaluate (raise (modClock (fun c => { c with stepped := true }) (stepClock d q)) 0x0300 0 (wordOfInt d)))
  else
    raise (modClock (fun c => { foldClock c with slewRem := d * 2 ^ 40, jref := true }) q) 0x0301 1 (wordOfInt d)

/-- A new rate, the running one folded first (R267). -/
def writeRate (r : Int) (s : State) : State := modClock (fun c => { foldClock c with rate := r }) s

/-- TSY_ADJ: a correction written by the host, or by the Teller for the source that R275 gives it. -/
def execTsyAdj (val : Word) (teller : Bool) (s : State) : Out :=
  ok (adjustClock (sword val) (if !teller then 4 else if bit s.clock.ctl 0 then 0 else 2) s)

/-- TSY_RATE_WRITE (R267, R269). -/
def execTsyRateWrite (val : Word) (s : State) : Out := ok (writeRate (sbits val 31 0) (clearKeys s))

/-- A write of TSY.SLEWMAX: a running slew goes on at the new rate (R266, R269). -/
def writeSlewMax (v : Word) (s : State) : State :=
  let r := bits v 30 0
  if r = 0 || 2 ^ 30 < r then reservedWrite s else modClock (fun c => { foldClock c with slewMax := r }) s

/-- TSY_SLEWMAX_WRITE (R266). -/
def execTsySlewmaxWrite (val : Word) (s : State) : Out := ok (writeSlewMax val (clearKeys s))

/-- A write of TSY.KEY (R268). -/
def writeTsyKey (v : Word) (s : State) : State :=
  let k := bits v 15 0
  modClock (fun c => { c with
    keyFirst := k == 0xC10C, keyArm := if k = 0x0C1C && c.keyFirst then some s.mono else none }) s

/-- TSY_KEY (R268). -/
def execTsyKey (val : Word) (s : State) : Out := ok (writeTsyKey val s)

/-- FORCED_STEP_TIMEOUT: KEYARM clears 1 ms after arming (R268). -/
def execForcedStepTimeout (s : State) : Out :=
  match s.clock.keyArm with
  | some t => ok (modClock (fun c => { c with keyArm := none }) (untilMono (t + 1000000) s))
  | none => ok s

/-- SLEW_END: the slew has applied its amount exactly (R266, R267). -/
def execSlewEnd (s : State) : Out :=
  let c := s.clock
  if c.slewRem = 0 || s.power.inReset.isSome then ok s
  else
    let need_ := ceilDiv c.slewRem.natAbs c.slewMax
    ok (modClock (fun c => { foldClock c with slewRem := 0 }) (passTime (need_ - (elapsedF c).toNat) s))

/-- T, SEC, NS and F captured at one instant (R263). -/
def snapTime (s : State) : State :=
  let t := localT s
  modClock (fun c => { c with snapT := t, snapSec := t.toNat / 10 ^ 9, snapNs := t.toNat % 10 ^ 9, snapFrc := c.f }) s

/-- TSY_SNAP: a write of 1 to GO captures the time (R263). -/
def execTsySnap (val : Word) (s : State) : Out := ok (if bit val 0 then snapTime (clearKeys s) else clearKeys s)

/-- The RTC time in ns (R275). -/
def rtcNs (r : Rtc) : Int := ((r.count * 10 ^ 9 / 32768 : Nat) : Int)

/-- The Teller sets the clock from the RTC, or leaves T with D = 0 when the RTC holds no valid time (R275 item 2). -/
def setFromRtc (src : Nat) (s : State) : State :=
  adjustClock (if s.rtc.tvalid then rtcNs s.rtc - sword (localT s) else 0) src s

/-- A write of TSY.CTL: the domains only while SERVOEN = 0; SERVOEN cleared after READY with the clock unset sets it from the RTC (R270, R275). -/
def writeTsyCtl (v : Word) (s : State) : State :=
  let old := s.clock.ctl
  let servo := bit old 0
  let w := if servo then putBits (putBits old 0 0 (bits v 0 0)) 15 15 (bits v 15 15) else field 0 (bits v 15 0)
  let q := modClock (fun c => { c with ctl := w }) (clearKeys s)
  if s.power.ready && servo && !bit v 0 && !s.clock.set then setFromRtc 2 q else q

/-- SERVOEN_CLEAR (R275). -/
def execServoenClear (val : Word) (s : State) : Out := ok (writeTsyCtl val s)

/-- A write to the TSY block (R263 to R270). -/
def writeTsy (o : Nat) (v : Word) (src : Nat) (s : State) : State :=
  match o with
  | 0x00 => writeTsyCtl v s
  | 0x08 => modClock (fun c => { c with jref := c.jref && !bit v 3, stepped := c.stepped && !bit v 4 }) (clearKeys s)
  | 0x18 => if bit v 0 then snapTime (clearKeys s) else clearKeys s
  | 0x40 => writeRate (sbits v 31 0) (clearKeys s)
  | 0x48 => adjustClock (sword v) src s
  | 0x50 => modClock (fun c => { c with jumpLim := bits v 31 0 }) (clearKeys s)
  | 0x58 => writeSlewMax v (clearKeys s)
  | 0x68 => writeTsyKey v s
  | _ => clearKeys s

/-! ### The time-sync service (R255, R257, R271, R272, R275, R352) -/

/-- The service's state changed. -/
def modSync (f : TimeSync → TimeSync) (s : State) : State := { s with sync := f s.sync }

/-- Eight octets in the order of the standard as a number. -/
def idKey (w : Word) : Nat := natOfBytes (bytesOfWord w).reverse

/-- The unit's clockIdentity: the EUI-64 of port 0's MAC address (IEEE 1588; PRESUMED, log 24). -/
def ownIdentity (s : State) : Word :=
  let m := bytesOfNat 6 (portAt s 0).mac.toNat
  wordOfBytes (m.take 3 ++ [0xFF, 0xFE] ++ m.drop 3)

/-- The unit's own data set in the order of the default BMCA (R255; IEEE 1588, PRESUMED, log 24). -/
def ownDataSet (s : State) : List Nat :=
  let y := s.sync
  [y.prio1, y.clockClass, y.accuracy, y.variance, y.prio2, idKey (ownIdentity s)]

/-- One data set is better than another: the first number that differs is lower. -/
def betterSet : List Nat → List Nat → Bool
  | a :: r, b :: q => if a = b then betterSet r q else decide (a < b)
  | _, _ => false

/-- A master is selected, anew or in place of another one (R272). -/
def selectMaster (gmid : Word) (ds : List Nat) (steps : Nat) (s : State) : State :=
  let y := s.sync
  if y.master = some gmid then modSync (fun y => { y with masterSet := ds, steps := steps }) s
  else
    let wasSlave := s.clock.state == 1 || s.clock.state == 2
    let q := modSync (fun y => { y with
      master := some gmid, masterSet := ds, steps := steps, goodRun := 0, badRun := 0, firstOffset := true }) s
    let q := modClock (fun c => { c with state := 1, gmself := false }) q
    match y.master, wasSlave with
    | some old, true => raise q 0x0305 1 old gmid
    | _, _ => raise q 0x0302 0 gmid

/-- The unit becomes grandmaster of the clock domain (R272, R275 item 2). -/
def becomeGrandmaster (s : State) : State :=
  if s.clock.gmself then s
  else
    let q := modSync (fun y => { y with master := none, masterSet := [], steps := 0, goodRun := 0, badRun := 0 }) s
    let q := raise (modClock (fun c => { c with state := 0, gmself := true }) q) 0x0307 0
    if q.clock.set then q else setFromRtc 1 q

/-- An Announce of the clock domain: the best master is selected, the unit itself among the candidates when it may be grandmaster (R255, R272). -/
def serveAnnounce (gmid : Word) (ds : List Nat) (steps : Nat) (s : State) : State :=
  let own := s.sync.gmcap && betterSet (ownDataSet s) ds
  match s.sync.master with
  | some m =>
    if m = gmid then (if own then becomeGrandmaster s else selectMaster gmid ds steps s)
    else if betterSet ds s.sync.masterSet && !own then selectMaster gmid ds steps s else s
  | none => if own then becomeGrandmaster s else selectMaster gmid ds steps s

/-- The clock disciplined by a measured offset (R271, R272, R275 item 1): the first offset of a master by TSY.ADJ, every other one by TSY.RATE. -/
def discipline (off : Int) (s : State) : State :=
  if !bit s.clock.ctl 0 then s
  else if s.sync.firstOffset then adjustClock (-off) 0 (modSync (fun y => { y with firstOffset := false }) s)
  else
    let r := within (2 ^ 31 - 1) (Config.servoRate off s.clock.rate)
    modSync (fun y => { y with rates := (r :: y.rates).take 16 }) (writeRate r (clearKeys s))

/-- LOCKED and ACQUIRING by the run of offsets within and beyond the threshold (R272). -/
def judgeOffset (off : Int) (s : State) : State :=
  let y := s.sync
  match s.clock.state with
  | 1 =>
    if off.natAbs ≤ y.lockThr then
      if y.goodRun + 1 = 16 then
        raise (modClock (fun c => { c with state := 2 }) (modSync (fun y => { y with goodRun := 0, badRun := 0 }) s)) 0x0303 0 (wordOfInt off)
      else modSync (fun y => { y with goodRun := y.goodRun + 1 }) s
    else modSync (fun y => { y with goodRun := 0 }) s
  | 2 =>
    if 4 * y.lockThr < off.natAbs then
      if y.badRun + 1 = 4 then
        raise (modClock (fun c => { c with state := 1 }) (modSync (fun y => { y with goodRun := 0, badRun := 0 }) s)) 0x0304 1 (wordOfInt off)
      else modSync (fun y => { y with badRun := y.badRun + 1 }) s
    else modSync (fun y => { y with badRun := 0 }) s
  | _ => s

/-- The parameters of a TIME_CONFIG in force (R352). -/
def applyConfig (w1 w2 : Word) (y : TimeSync) : TimeSync :=
  { y with
    logSync := sbits w1 7 0, logAnn := sbits w1 15 8, syncTmo := bits w1 19 16, annTmo := bits w1 23 20,
    lockThr := bits w1 39 24, ptpEn := bits w1 43 40, oneStep := bits w1 47 44, p2p := bits w1 51 48,
    prio1 := bits w2 7 0, prio2 := bits w2 15 8, clockClass := bits w2 23 16, accuracy := bits w2 31 24,
    variance := bits w2 47 32, gmcap := bit w2 48, setWait := bits w2 56 49, pendingConfig := none }

/-- A Sync interval passes: a waiting TIME_CONFIG takes effect (R352). -/
def syncInterval (s : State) : State :=
  match s.sync.pendingConfig with
  | some (a, b) => modSync (applyConfig a b) s
  | none => s

/-- A Sync of the clock domain: offset and mean path delay measured, the state judged, the clock disciplined (R271, R272). -/
def serveSync (stamp origin : Word) (s : State) : State :=
  let diff := sword (stamp - origin)
  let off := diff - s.sync.mpd
  let q := modSync (fun y => { y with syncDiff := diff }) s
  if q.sync.master.isNone || !(q.clock.state == 1 || q.clock.state == 2) then q
  else discipline off (judgeOffset off (modClock (fun c => { c with offsMeas := off }) q))

/-- PTP runs on a port whose link is up (R352). -/
def ptpRuns (s : State) (port : Nat) : Bool := (portAt s port).link && s.sync.ptpEn.testBit port

/-- PTP_MESSAGE_RECEIVE: a message is stamped and served (R255, R257, R271, R272). -/
def execPtpMessageReceive (port : Fin 4) (msg : PtpMsg) (s : State) : Out :=
  let c := s.clock
  let dom := bits c.ctl 7 1
  let aux (d : BitVec 7) : Bool := bit c.ctl 15 && d.toNat == bits c.ctl 14 8 && d.toNat != dom
  if !ptpRuns s port.val then ok s
  else match msg with
    | .announce d p1 cls acc var p2 gmid steps =>
      if d.toNat = dom then
        ok (serveAnnounce gmid [p1.toNat, cls.toNat, acc.toNat, var.toNat, p2.toNat, idKey gmid] (steps.toNat + 1) s)
      else if aux d then
        ok (modSync (fun y => { y with auxValid := y.auxValid && y.auxGmid == gmid, auxGmid := gmid }) s)
      else ok s
    | .sync d raw origin =>
      let stamp := rxStamp s port.val raw
      if d.toNat = dom then ok (syncInterval (serveSync stamp origin s))
      else if aux d then
        ok (modSync (fun y => { y with auxOff := s.sync.mpd - sword (stamp - origin), auxValid := y.auxGmid != 0 }) s)
      else ok s
    | .delayResp d t4 =>
      match s.sync.delayReq with
      | some t3 =>
        if d.toNat = dom then
          ok (modSync (fun y => { y with mpd := fdiv (y.syncDiff + sword (t4 - t3)) 2, delayReq := none }) s)
        else ok s
      | none => ok s

/-- SYNC_RECEIPT_TIMEOUT: no other master is available: HOLDOVER with the mean of the last rates, or, from FREERUN, the unit becomes grandmaster when it may (R272). -/
def execSyncReceiptTimeout (s : State) : Out :=
  let c := s.clock
  if c.state = 1 || c.state = 2 then
    let l := s.sync.rates
    let mean : Int := if l.isEmpty then c.rate else fdiv (l.foldl (· + ·) 0) l.length
    let q := modSync (fun y => { y with master := none, masterSet := [], steps := 0, goodRun := 0, badRun := 0 }) s
    let q := modClock (fun c => { c with state := 3 }) (if bit c.ctl 0 then writeRate mean (clearKeys q) else q)
    ok (raise q 0x0306 1 (wordOfInt q.clock.rate))
  else if c.state = 0 && s.sync.gmcap && s.sync.ptpEn != 0 then ok (becomeGrandmaster s)
  else ok s

/-- PTP_MESSAGE_TRANSMIT: the service sends a Sync (0), an Announce (1) or a delay request (2) through a port; the content beyond the message type is the standard's (R255, R257, R259, R271). -/
def execPtpMessageTransmit (port : Fin 4) (kind : Fin 3) (stamp : Word) (s : State) : Out :=
  let p := portAt s port.val
  if !ptpRuns s port.val then ok s
  else
    let eg : Word := stamp + wordOfInt (sbits (vget p.tsc p.spd 0) 31 16)
    let code : Byte := match kind.val with
      | 0 => 0
      | 1 => 11
      | _ => if s.sync.p2p.testBit port.val then 2 else 1
    let frame := [0x01, 0x1B, 0x19, 0x00, 0x00, 0x00] ++ bytesOfNat 6 p.mac.toNat ++ [0x88, 0xF7, code]
    let q := { s with net := { s.net with wire := s.net.wire ++ [{ port := port.val, bytes := frame, t := stamp }] } }
    match kind.val with
    | 0 => ok (syncInterval q)
    | 2 => ok (modSync (fun y => { y with delayReq := some eg }) q)
    | _ => ok q

/-- SETWAIT_EXPIRY: no master SETWAIT seconds after READY: the clock is set from the RTC (R275 item 3). -/
def execSetwaitExpiry (s : State) : Out :=
  match s.sync.setWaitFrom with
  | some t =>
    if bit s.clock.ctl 0 && !s.clock.set && s.sync.master.isNone && s.sync.setWait != 0 then
      ok (setFromRtc 3 (untilMono (t + s.sync.setWait * 10 ^ 9) s))
    else ok s
  | none => ok s

/-- The operands of a TIME_CONFIG hold no reserved encoding (R349, R352). -/
def timeConfigForm (c : Cmd) : Bool :=
  let w := opnd c 1
  reservedZero c [lowMask 52, lowMask 57] && decide (-7 ≤ sbits w 7 0) && decide (sbits w 7 0 ≤ 4) && decide (-3 ≤ sbits w 15 8) &&
    decide (sbits w 15 8 ≤ 4) && decide (2 ≤ bits w 19 16) && decide (2 ≤ bits w 23 20) && bits w 39 24 != 0

/-- TIME_CONFIG: the parameters wait for the next Sync interval; with PTP off on every port they take effect at once (R271, R352). -/
def execTimeConfig (ring : Fin 16) (s : State) : Out :=
  onRing ring.val 0x30 s (fun c q =>
    if !timeConfigForm c then finish c 2 0 0 q
    else
      let q := modSync (fun y => { y with pendingConfig := some (opnd c 1, opnd c 2) }) q
      finish c 0 0 0 (if q.sync.ptpEn = 0 then syncInterval q else q))

/-- The TIME_STATUS record (R352). -/
def timeRecord (s : State) : List Byte :=
  let y := s.sync
  bytesOfWords [field 0 s.clock.state ||| flag 2 s.clock.gmself ||| flag 3 y.auxValid ||| field 8 (min y.steps 255),
    (if s.clock.gmself then ownIdentity s else y.master.getD 0), wordOfInt s.clock.offsMeas, wordOfInt y.mpd,
    wordOfInt s.clock.rate, y.auxGmid, wordOfInt y.auxOff, 0]

/-- TIME_STATUS: the record is written to host memory (R271, R351, R352). -/
def execTimeStatus (ring : Fin 16) (s : State) : Out :=
  onRing ring.val 0x31 s (fun c q =>
    dataCommand c (reservedZero c [lowMask 64]) (fun q => giveBytes c (opnd c 1) (timeRecord q) 0 0 q) q)

end Sys2Proof.Machine
end

