-- ==== Sys2Proof/Machine/Watchdog.lean ====
section
/-!
DEFINITION. The system watchdog, the Purse registers, fatal errors, and the stop with a retentive save at a power loss or a watchdog failure (R80, R409 to R437, R526).
-/
namespace Sys2Proof.Machine

/-! ### The stop of a power loss, and the save that follows (R80, R417, R526, R528, R533) -/

/-- The regions of the loaded project are to be saved: READY has been reached and a project with retentive regions is loaded (R80, R492, R528). -/
def saveWanted (s : State) : Bool := s.power.ready && s.project.loaded && !s.project.regions.isEmpty

/-- STOP with REASON = POWERFAIL at this instant: running releases may still commit for 2 ms, and the save is due (R80). -/
def powerStop (cause : Nat) (tpf : Word) (s : State) : State :=
  let q := if s.ctl.mode == .held then s
    else if s.ctl.mode == .stop then setMode .stop 3 0 s
    else enterStop true 3 0 s
  { q with
    ctl := { q.ctl with pfDeadline := some (s.mono + 2000000), saveByHandler := q.ctl.saveByHandler || cause == 1 }
    nvs := { q.nvs with saving := if saveWanted s then some (cause, tpf.toNat) else none } }

/-- SAVE_COMMIT_DEADLINE: 2 ms after the stop, releases still running are abandoned (R72, R80). -/
def execSaveCommitDeadline (s : State) : Out :=
  match s.ctl.pfDeadline with
  | none => ok s
  | some t =>
    let q := untilMono t s
    let q := forEach allTills (fun u q => if isLive (tillAt q u) && !commitBegun q u then abandon u q else q) q
    ok { q with ctl := { q.ctl with pfDeadline := none } }

/-! ### Periods and services (R409 to R415, R420) -/

/-- The active of a pair gives up the mandate with cause SUPERVISION, without the Teller (R395, R416, R434). -/
def abdicateSupervision (s : State) : State := if mirroring s then abdicate 4 (boundaryAfter2us s) s else s

/-- A failure: captured, the hard timer starts, the mandate is given up, and the Teller's handler raises WDG_EXPIRED and begins the save (R416 to R418). -/
def wdgFail (cause : Nat) (s : State) : State :=
  let c := wdgCount s
  let pc := freshWord s
  let missing : BitVec 32 := if wdgCheckMode s then wdgMissing s c else 0
  let q := modWdg (fun w => { w with
    base := c, since := s.mono, expired := true, expCause := cause, expValid := true, expMissing := missing, exppc := pc.1,
    expt := localT s, expops := s.rtc.opsec, lastsvct := w.liveSvct, hard := some s.mono }) pc.2
  let q := raise (abdicateSupervision q) 0x0801 2 (field 0 cause) (field 0 missing.toNat)
  if bit s.wdg.cfg 4 && decide (25 ≤ bits s.wdg.cfg 12 5) && s.power.loss.isNone then powerStop 1 (localT s) q else q

/-- A service completed at the present count (R410). -/
def wdgJudge (s : State) : State :=
  let c := wdgCount s
  if c < wdgOpen s then wdgFail 2 s else if wdgExpire s ≤ c then wdgFail 1 s else wdgServed s

/-- A write of WDG.SVC (R411). -/
def wdgService (v : Word) (teller : Bool) (s : State) : State :=
  let k := bits v 15 0
  let foreign (q : State) : State := modWdg (fun w => { w with foreign := true }) q
  if !wdgRuns s then s
  else if wdgCheckMode s || bit s.wdg.cfg 3 == teller then foreign s
  else if k = 0x5A3C && !s.wdg.key1 then modWdg (fun w => { w with key1 := true }) s
  else if k = 0xC3A5 && s.wdg.key1 then wdgJudge (modWdg (fun w => { w with key1 := false }) s)
  else wdgFail 3 s

/-- WDG_SVC (R411). -/
def execWdgSvc (val : Word) (teller : Bool) (s : State) : Out := ok (wdgService val teller s)

/-- A check-in of a slot by a sender: a TASK_ID or 126 for the host (R412 to R414). -/
def checkIn (slot sender : Nat) (s : State) : State :=
  if !wdgRuns s then s
  else if !wdgCheckMode s || !s.wdg.sloten.getLsbD slot || !(slotOwner s slot == 127 || slotOwner s slot == sender) then
    modWdg (fun w => { w with stray := true }) s
  else
    let b : BitVec 32 := BitVec.ofNat 32 (2 ^ slot)
    if s.wdg.chk.getLsbD slot then
      let q := modWdg (fun w => { w with dup := w.dup ||| b, dupRaised := w.dupRaised ||| b }) s
      if s.wdg.dupRaised.getLsbD slot then q else raise q 0x0800 1 (field 0 slot)
    else
      let q := modWdg (fun w => { w with chk := w.chk ||| b }) s
      if periodComplete q then wdgJudge q else q

/-- WDG_CHECKIN: the host checks in, or completes with WDG_SLOT (R412, R437). -/
def execWdgCheckin (ring : Fin 16) (s : State) : Out :=
  onRing ring.val 0x80 s (fun c q =>
    let slot := bits (opnd c 1) 4 0
    if !reservedZero c [lowMask 5] then finish c 2 0 0 q
    else
      let refused := !wdgCheckMode q || !q.wdg.sloten.getLsbD slot || decide (slotOwner q slot ≤ 95)
      finish c (if refused then 0xE1 else 0) 0 0 (checkIn slot 126 q))

/-- The window has opened, or is reached now: a period that is then complete is a valid service (R410, R413). -/
def openWindow (s : State) : State :=
  let q := untilMono (s.wdg.since + (wdgOpen s - s.wdg.base) * 1000) s
  if periodComplete q then wdgJudge q else q

/-- WDG_WINDOW_OPEN: from WOPEN on slots of tasks that are not live are satisfied, and a period that is then complete is a valid service (R410, R413). -/
def execWdgWindowOpen (s : State) : Out :=
  if wdgRuns s && wdgCheckMode s && s.wdg.susp.isNone && s.power.loss.isNone then ok (openWindow s) else ok s

/-- WATCHDOG_EXPIRE: COUNT reaches EXPIRE with no valid service in the period; a period that was complete before is a valid service (R410, R413). -/
def execWatchdogExpire (s : State) : Out :=
  if wdgRuns s && s.wdg.susp.isNone && s.power.loss.isNone then
    (if wdgCheckMode s && periodComplete (untilMono (s.wdg.since + (wdgOpen s - s.wdg.base) * 1000) s) then ok (openWindow s)
    else ok (wdgFail 1 (untilMono (s.wdg.since + (wdgExpire s - s.wdg.base) * 1000) s)))
  else ok s

/-- COUNT stops while the flash interface erases (R420). -/
def wdgSuspend (s : State) : State := modWdg (fun w => { w with base := wdgCount s, susp := some s.mono }) s

/-- COUNT runs again (R420). -/
def wdgResume (s : State) : State :=
  if s.wdg.susp.isSome then modWdg (fun w => { w with susp := none, since := s.mono }) s else s

/-- ERASE_SUSPENSION_LIMIT: 1.0 s after the erase began COUNT runs again (R420). -/
def execEraseSuspensionLimit (s : State) : Out :=
  match s.nvs.eraseFrom, s.wdg.susp with
  | some t, some _ => ok (wdgResume (untilMono (t + 10 ^ 9) s))
  | _, _ => ok s

/-! ### Control sequences and configuration (R421, R422, R424) -/

/-- The effect of a completed control sequence (R421). -/
def wdgSequence (first second : Nat) (s : State) : Option State :=
  let refuse : State := modWdg (fun w => { w with cfgbad := true }) s
  if first = 0xE1A7 && second = 0x7A1E then
    some (if wdgCheckMode s && s.wdg.sloten == 0 then refuse else wdgBegin (modWdg (fun w => { w with en := true }) s))
  else if first = 0xD15A && second = 0xA5D1 then
    some (if s.wdg.lock || s.wdg.expired then refuse else modWdg (fun w => { w with en := false, base := wdgCount s }) s)
  else if first = 0x10C4 && second = 0xC401 then some (modWdg (fun w => { w with lock := true }) s)
  else none

/-- A write of WDG.KEY (R421). -/
def wdgKeyWrite (v : Word) (s : State) : State :=
  let k := bits v 15 0
  let start (q : State) : State :=
    modWdg (fun w => { w with keyFirst := if k = 0xE1A7 || k = 0xD15A || k = 0x10C4 then some k else none }) q
  match s.wdg.keyFirst with
  | none => start s
  | some f =>
    match wdgSequence f k (modWdg (fun w => { w with keyFirst := none }) s) with
    | some q => q
    | none => start s

/-- WDG_KEY (R421). -/
def execWdgKey (val : Word) (s : State) : Out := ok (wdgKeyWrite val s)

/-- A write of a configuration register: nothing but CFGEN while EN = 1 or LOCK = 1 (R422). -/
def wdgConfig (f : State → State) (s : State) : State :=
  if s.wdg.en || s.wdg.lock then modWdg (fun w => { w with cfgen := true }) s else f s

/-- An OWNER code that is not reserved (R424). -/
def ownerGood (x : Nat) : Bool := x ≤ 95 || x == 126 || x == 127

/-- A write to the WDG block (R411, R421 to R424). -/
def writeWdg (o : Nat) (v : Word) (teller : Bool) (s : State) : State :=
  match o with
  | 0x00 => wdgConfig (judged s.wdg.cfg v [anyField 4 2, { hi := 12, lo := 5, good := fun x => x != 0 }]
      (fun w q => modWdg (fun g => { g with cfg := w }) q)) s
  | 0x08 => wdgConfig (fun q =>
      if bits v 23 0 = 0 || decide (bits v 47 24 ≤ bits v 23 0) then reservedWrite q
      else modWdg (fun g => { g with win := field 0 (bits v 47 0) }) q) s
  | 0x10 => wdgConfig (modWdg (fun g => { g with sloten := v.setWidth 32 })) s
  | 0x38 => wdgService v teller s
  | 0x40 => wdgKeyWrite v s
  | 0x48 => modWdg (fun w => { w with
      foreign := w.foreign && !bit v 27, stray := w.stray && !bit v 28, cfgen := w.cfgen && !bit v 29,
      cfgbad := w.cfgbad && !bit v 30 }) s
  | 0x58 => modWdg (fun w => { w with dup := w.dup &&& ~~~(v.setWidth 32) }) s
  | 0x68 => modWdg (fun w => { w with expValid := w.expValid && !bit v 3 }) s
  | _ =>
    match slotOf 0x18 8 4 o with
    | some k => wdgConfig (judged (vget s.wdg.own k 0) v
        ((List.range 8).map (fun i => { hi := 8 * i + 6, lo := 8 * i, good := ownerGood }))
        (fun w q => modWdg (fun g => { g with own := vset g.own k w }) q)) s
    | none => s

/-! ### The Purse's registers (R426, R430) -/

/-- The Purse changed. -/
def modPurse (f : Purse → Purse) (s : State) : State := { s with purse := f s.purse }

/-- A write of PRS.BUDGET: above STRAP refused with BUDREF, below 8 a reserved encoding (R426, R430). -/
def writeBudget (v : Word) (s : State) : State :=
  let n := bits v 5 0
  if s.purse.strap < n then modPurse (fun p => { p with budref := true }) s
  else if n < 8 then reservedWrite s
  else modPurse (fun p => { p with tokens := n }) s

/-- PRS_BUDGET_WRITE (R426). -/
def execPrsBudgetWrite (val : Word) (s : State) : Out := ok (writeBudget val s)

/-- FAILS and MAXWAIT cleared (R430). -/
def clearPurse (s : State) : State := modPurse (fun p => { p with fails := 0, maxwait := 0 }) s

/-- PRS_CNTCLR (R430). -/
def execPrsCntclr (val : Word) (s : State) : Out := ok (if bit val 0 then clearPurse s else s)

/-- A write to the PRS block (R430). -/
def writePrs (o : Nat) (v : Word) (s : State) : State :=
  match o with
  | 0x00 => writeBudget v s
  | 0x08 => modPurse (fun p => { p with budref := p.budref && !bit v 19 }) s
  | 0x38 => if bit v 0 then clearPurse s else s
  | _ => s

/-! ### Fatal errors and the error counters (R434, R436) -/

/-- A fatal error is captured, the mandate given up, and a reset is due 40 us later (R434). -/
def fatalNow (cause : Nat) (s : State) : State :=
  if s.errs.fatalAt.isSome || s.power.inReset.isSome then s
  else
    abdicateSupervision { s with errs := { s.errs with
      fatalCause := cause, fatalValid := true, fatalAt := some s.mono } }

/-- FATAL_ERROR (R434). -/
def execFatalError (cause : Fin 5) (s : State) : Out := ok (fatalNow (cause.val + 1) s)

/-- Every counter of R436 set to 0. -/
def clearErrorCounts (s : State) : State :=
  { s with errs := { s.errs with ces := Vector.replicate 68 0, ues := Vector.replicate 68 0 } }

/-- The SYS key sequence is broken by any other SYS write (R540). -/
def dropRstKey (s : State) : State := { s with power := { s.power with rstKey := false } }

/-- SYS_ECNTCLR: a write of 1 clears every SRAM error counter (R436). -/
def execSysEcntclr (val : Word) (s : State) : Out :=
  ok (let q := dropRstKey s; if bit val 0 then clearErrorCounts q else q)

/-- A write of SYS.ERRS (R435). -/
def writeErrs (v : Word) (s : State) : State :=
  { s with errs := { s.errs with
      rsvdw := s.errs.rsvdw && !bit v 0, accbar := s.errs.accbar && !bit v 1, accsys := s.errs.accsys && !bit v 2,
      ce := s.errs.ce && !bit v 3, ue := s.errs.ue && !bit v 4, purse := s.errs.purse && !bit v 5,
      wdgprev := s.errs.wdgprev && !bit v 6, fatalprev := s.errs.fatalprev && !bit v 7 } }

end Sys2Proof.Machine
end

