-- ==== Sys2Proof/Machine/Rtc.lean ====
section
/-!
DEFINITION. The backup domain and the calendar: crystal edges, writes of the count, the lockout, the comparison with network time, and the RTC commands and registers (R438 to R452, R467, R468).
-/
namespace Sys2Proof.Machine

/-- The backup domain changed. -/
def modRtc (f : Rtc → Rtc) (s : State) : State := { s with rtc := f s.rtc }

/-! ### Crystal edges (R441 to R446, R448) -/

/-- Edge `winpos` of the CAL window is an adjusting edge (R445). -/
def adjusting (r : Rtc) : Bool := decide (r.winpos * r.cal.natAbs / 2 ^ 20 < (r.winpos + 1) * r.cal.natAbs / 2 ^ 20)

/-- What a counting edge adds (R445). -/
def edgeAdds (r : Rtc) : Nat := if adjusting r then (if 0 < r.cal then 2 else 0) else 1

/-- A counting edge with `extra` ticks on top (R444, R445). -/
def countingEdge (extra : Nat) (r : Rtc) : Rtc :=
  { r with count := (r.count + extra + edgeAdds r) % 2 ^ 48, winpos := (r.winpos + 1) % 2 ^ 20 }

/-- The count at an edge with no write: withheld under a shift, or counted (R444, R445). -/
def plainEdge (r : Rtc) : Rtc := if 0 < r.shrem then { r with shrem := r.shrem - 1 } else countingEdge 0 r

/-- The raw crystal seconds: OPSEC with the main supply present, and the sample of VBAT, which no command reports (R448; log 10). -/
def rawEdge (s : State) : State :=
  let r := s.rtc
  if r.edges + 1 < 32768 then modRtc (fun r => { r with edges := r.edges + 1 }) s
  else
    let b := freshBool s
    modRtc (fun r => { r with edges := 0, opsec := if r.onVbat then r.opsec else (r.opsec + 1) % 2 ^ 40, vbatlow := b.1 }) b.2

/-- CRYSTAL_EDGE: one edge of the crystal without the application of a write (R441, R444, R445, R448). -/
def execCrystalEdge (s : State) : Out := ok (rawEdge (modRtc plainEdge s))

/-- A write applied at its edge (R443 to R445). -/
def applyWrite (w : RtcWrite) (r : Rtc) : Rtc :=
  match w with
  | .setsec sec _ => { r with count := sec * 32768 % 2 ^ 48, wseq := (r.wseq + 1) % 2 ^ 16, tvalid := true, shrem := 0 }
  | .shift t =>
    let q := { r with wseq := (r.wseq + 1) % 2 ^ 16 }
    if 0 < t then countingEdge t.toNat q else if t = 0 then plainEdge q else { q with shrem := t.natAbs - 1 }
  | .cal c => plainEdge { r with cal := c }

/-- RTC_WRITE_APPLY: the write in flight is applied at a crystal edge; a seconds write raises RTC_SET and completes its command (R443 to R446, R461, R467). -/
def execRtcWriteApply (s : State) : Out :=
  match s.rtc.write with
  | none => ok s
  | some w =>
    let old := s.rtc.count
    let ring := s.rtc.writeRing
    let q := rawEdge (modRtc (fun r => { applyWrite w { r with write := none } with writeRing := none }) s)
    match w with
    | .setsec _ src =>
      let q := if s.power.inReset.isSome then q else raise q 0x030A 0 (field 0 old) (field 0 q.rtc.count) (field 0 src)
      ok (match ring with
        | some n => finishBusy n 0 (rtcCountWord q.rtc) 0 q
        | none => q)
    | _ => ok q

/-- A write sent toward the backup domain: locked out, discarded with BUSY, or in flight (R439, R446). -/
def sendRtc (w : RtcWrite) (s : State) : State :=
  let r := s.rtc
  if r.lockout then modRtc (fun r => { r with lockdisc := true }) s
  else if r.write.isSome || (match w with
      | .shift _ => 0 < r.shrem
      | _ => false) then modRtc (fun r => { r with busy := true }) s
  else modRtc (fun r => { r with write := some w }) s

/-- A write of RTC.SHIFT; -32,768 is reserved (R444, R448). -/
def writeShift (v : Word) (s : State) : State :=
  if bits v 15 0 = 0x8000 then reservedWrite s else sendRtc (.shift (sbits v 15 0)) s

/-- A value of RTC.CAL that is not reserved (R445, R448). -/
def calGood (c : Int) : Bool := decide (-537 ≤ c) && decide (c ≤ 537)

/-- A write of RTC.CAL (R445, R448). -/
def writeCal (v : Word) (s : State) : State := if calGood (sbits v 10 0) then sendRtc (.cal (sbits v 10 0)) s else reservedWrite s

/-- A write of RTC.SETSEC (R443). -/
def writeSetsec (v : Word) (s : State) : State := sendRtc (.setsec (bits v 32 0) 0) s

/-- RTC_SETSEC_WRITE (R443). -/
def execRtcSetsecWrite (val : Word) (s : State) : Out := ok (writeSetsec val s)

/-- RTC_SHIFT_WRITE (R444). -/
def execRtcShiftWrite (val : Word) (s : State) : Out := ok (writeShift val s)

/-- RTC_CAL_WRITE (R445). -/
def execRtcCalWrite (val : Word) (s : State) : Out := ok (writeCal val s)

/-- A write to the RTC block: OPSEC and PWRCYC only while BKLOST = 1 (R448). -/
def writeRtc (o : Nat) (v : Word) (s : State) : State :=
  match o with
  | 0x08 => writeSetsec v s
  | 0x10 => writeShift v s
  | 0x18 => writeCal v s
  | 0x20 => modRtc (fun r => { r with sync := bit v 0 }) s
  | 0x28 => modRtc (fun r => { r with
      busy := r.busy && !bit v 1, bklost := r.bklost && !bit v 3, lockdisc := r.lockdisc && !bit v 4 }) s
  | 0x30 => if s.rtc.bklost then modRtc (fun r => { r with opsec := bits v 39 0 }) s else s
  | 0x38 => if s.rtc.bklost then modRtc (fun r => { r with pwrcyc := bits v 23 0 }) s else s
  | _ => s

/-- RTC_SYNC_CHECK: once per second the count is compared with network time; every 1,024 s CAL follows from the shifts, by an open law within its range (R445, R447; log 25). -/
def execRtcSyncCheck (s : State) : Out :=
  let r := s.rtc
  if !r.sync || s.clock.state != 2 || r.write.isSome || r.lockout then ok s
  else
    let target : Nat := nowT s * 32768 / 10 ^ 9
    let d : Int := (target : Int) - (r.count : Int)
    let q := modRtc (fun r => { r with syncSecs := r.syncSecs + 1 }) s
    if 32767 < d.natAbs then ok (sendRtc (.setsec (target / 32768) 1) q)
    else if 1024 ≤ q.rtc.syncSecs then
      let c := max (-537) (min 537 (Config.calFromShifts r.cal r.syncSum))
      ok (sendRtc (.cal c) (modRtc (fun r => { r with syncSecs := 0, syncSum := 0 }) q))
    else if d = 0 || 0 < r.shrem then ok q
    else ok (sendRtc (.shift d) (modRtc (fun r => { r with syncSum := r.syncSum + d }) q))

/-! ### The calendar (R449 to R451) -/

/-- A leap year (R450). -/
def leapYear (y : Nat) : Bool := (y % 4 == 0 && y % 100 != 0) || y % 400 == 0

/-- Days from 1970-01-01 to 1 January of a year from 1970 on. -/
def daysToYear (y : Nat) : Nat := 365 * (y - 1970) + ((List.range (y - 1970)).filter (fun i => leapYear (1970 + i))).length

/-- Days of a month (R450). -/
def monthDays (y m : Nat) : Nat :=
  match m with
  | 2 => if leapYear y then 29 else 28
  | 4 => 30
  | 6 => 30
  | 9 => 30
  | 11 => 30
  | _ => 31

/-- Days of a year before a month. -/
def daysToMonth (y m : Nat) : Nat := (List.range (m - 1)).foldl (fun n i => n + monthDays y (i + 1)) 0

/-- A packed date has every field in its range and no reserved bit (R449, R450). -/
def dateGood (w : Word) : Bool :=
  let y := bits w 15 0
  let m := bits w 19 16
  decide (1970 ≤ y) && decide (y ≤ 2242) && decide (1 ≤ m) && decide (m ≤ 12) && decide (1 ≤ bits w 24 20) &&
    decide (bits w 24 20 ≤ monthDays y m) && decide (bits w 29 25 ≤ 23) && decide (bits w 35 30 ≤ 59) &&
    decide (bits w 41 36 ≤ 59) && bits w 63 60 == 0

/-- Ticks of a date since 1970 (R441, R449). -/
def dateTicks (w : Word) : Nat :=
  let y := bits w 15 0
  let day := daysToYear y + daysToMonth y (bits w 19 16) + (bits w 24 20 - 1)
  (day * 86400 + bits w 29 25 * 3600 + bits w 35 30 * 60 + bits w 41 36) * 32768 + bits w 56 42

/-- The packed date of a count (R449, R450). -/
def dateOf (ticks : Nat) : Word :=
  let sec := ticks / 32768
  let day := sec / 86400
  let t := sec % 86400
  let y := (((List.range 273).reverse).find? (fun i => decide (daysToYear (1970 + i) ≤ day))).getD 0 + 1970
  let d := day - daysToYear y
  let m := (((List.range 12).reverse).find? (fun i => decide (daysToMonth y (i + 1) ≤ d))).getD 0 + 1
  field 0 y ||| field 16 m ||| field 20 (d - daysToMonth y m + 1) ||| field 25 (t / 3600) ||| field 30 (t % 3600 / 60) |||
    field 36 (t % 60) ||| field 42 (ticks % 32768) ||| field 57 ((day + 3) % 7)

/-- A count inside 0 to 2^48 - 1 (R450). -/
def countGood (i : Int) : Bool := decide (0 ≤ i) && decide (i < (2 ^ 48 : Int))

/-- A count as a date under an offset, or DATE_RANGE (R450, R451). -/
def countToDate (count : Nat) (offs : Int) : Except Nat Word :=
  let t : Int := (count : Int) + offs * 32768
  if countGood t then .ok (dateOf t.toNat) else .error 0xC1

/-- A date as a count under an offset, or DATE_INVALID or DATE_RANGE (R450, R451). -/
def dateToCount (w : Word) (offs : Int) : Except Nat Word :=
  if !dateGood w then .error 0xC0
  else
    let t : Int := (dateTicks w : Int) - offs * 32768
    if countGood t then .ok (field 0 t.toNat) else .error 0xC1

/-! ### The commands (R467) -/

/-- RTC_GET: RTC.COUNT, OPSEC and PWRCYC (R442, R467). -/
def execRtcGet (ring : Fin 16) (s : State) : Out :=
  onRing ring.val 0x40 s (fun c q =>
    if !reservedZero c [] then finish c 2 0 0 q
    else finish c 0 (rtcCountWord q.rtc) (field 0 q.rtc.opsec ||| field 40 q.rtc.pwrcyc) q)

/-- A seconds write of a command: RTC_BUSY where R446 would discard it, else the command waits for the application (R446, R467). -/
def commandSetsec (c : Cmd) (sec src : Nat) (s : State) : State :=
  if s.rtc.write.isSome then finish c 0xC2 0 0 s
  else accept c (modRtc (fun r => { r with writeRing := some c.ring }) (sendRtc (.setsec sec src) s))

/-- RTC_SETSEC (R443, R467). -/
def execRtcSetsec (ring : Fin 16) (s : State) : Out :=
  onRing ring.val 0x41 s (fun c q =>
    if !reservedZero c [lowMask 33] then finish c 2 0 0 q else commandSetsec c (bits (opnd c 1) 32 0) 0 q)

/-- RTC_SETDATE: the date with SUB = 0 less its offset (R449 to R451, R467). -/
def execRtcSetdate (ring : Fin 16) (s : State) : Out :=
  onRing ring.val 0x42 s (fun c q =>
    let w := opnd c 1
    if !reservedZero c [lowMask 64, lowMask 32] then finish c 2 0 0 q
    else if bits w 56 42 ≠ 0 then finish c 0xC0 0 0 q
    else match dateToCount w (sbits (opnd c 2) 31 0) with
      | .error e => finish c e 0 0 q
      | .ok v => commandSetsec c (v.toNat / 32768) 2 q)

/-- RTC_SHIFT (R444, R467). -/
def execRtcShift (ring : Fin 16) (s : State) : Out :=
  onRing ring.val 0x43 s (fun c q =>
    let v := opnd c 1
    if !reservedZero c [lowMask 16] || bits v 15 0 = 0x8000 then finish c 2 0 0 q
    else if q.rtc.write.isSome || 0 < q.rtc.shrem then finish c 0xC2 0 0 q
    else finish c 0 0 0 (sendRtc (.shift (sbits v 15 0)) q))

/-- RTC_CAL (R445, R467). -/
def execRtcCal (ring : Fin 16) (s : State) : Out :=
  onRing ring.val 0x44 s (fun c q =>
    let v := opnd c 1
    if !reservedZero c [lowMask 11] || !calGood (sbits v 10 0) then finish c 2 0 0 q
    else if q.rtc.write.isSome then finish c 0xC2 0 0 q
    else finish c 0 0 0 (sendRtc (.cal (sbits v 10 0)) q))

/-- CAL_TO_DATE (R451, R467). -/
def execCalToDate (ring : Fin 16) (s : State) : Out :=
  onRing ring.val 0x45 s (fun c q =>
    if !reservedZero c [lowMask 48, lowMask 32] then finish c 2 0 0 q
    else match countToDate (bits (opnd c 1) 47 0) (sbits (opnd c 2) 31 0) with
      | .error e => finish c e 0 0 q
      | .ok v => finish c 0 v 0 q)

/-- DATE_TO_CAL (R451, R467). -/
def execDateToCal (ring : Fin 16) (s : State) : Out :=
  onRing ring.val 0x46 s (fun c q =>
    if !reservedZero c [lowMask 64, lowMask 32] then finish c 2 0 0 q
    else match dateToCount (opnd c 1) (sbits (opnd c 2) 31 0) with
      | .error e => finish c e 0 0 q
      | .ok v => finish c 0 v 0 q)

end Sys2Proof.Machine
end

