-- ==== Sys2Proof/Machine/Flash.lean ====
section
/-!
DEFINITION. The flash die: its areas, the queue of program and erase operations and their Purse requests, what a finished operation leaves in memory, and the refresh of sectors (R469 to R474, R488, R489).
-/
namespace Sys2Proof.Machine

/-- The store changed. -/
def modNvs (f : Nvs → Nvs) (s : State) : State := { s with nvs := f s.nvs }

/-! ### Areas (R469) -/

/-- Bytes of a flash sector (R469). -/
def sectorSize : Nat := 0x1_0000

/-- The sector of a flash offset. -/
def sectorOf (off : Nat) : Nat := off / sectorSize

/-- Flash offset of parameter bank b (R469). -/
def paramBase (b : Nat) : Nat := 0x64E_0000 + b * 0x20_0000

/-- Flash offset of firmware slot 0 or 1 (R469). -/
def fwBase (slot : Nat) : Nat := 0x3_0000 + slot * 0x80_0000

/-- Flash offset of project slot 0 or 1 (R469). -/
def prjBase (slot : Nat) : Nat := 0x103_0000 + slot * 0x280_0000

/-- Flash offset of save area 0 to 2 (R469). -/
def saveBase (area : Nat) : Nat := 0x61B_0000 + area * 0x11_0000

/-- Flash offset of the recorder ring (R469). -/
def recBase : Nat := 0x68E_0000

/-- First sector of a refresh buffer (R469). -/
def bufferSector (i : Nat) : Nat := 1936 + i

/-- Flash offset of the package staging (R469). -/
def stagingBase : Nat := 0x792_0000

/-- Sectors that are refreshed one by one: firmware and project slots, the recorder ring and the staging (R473, R488, R489). -/
def refreshable (n : Nat) : Bool :=
  (decide (3 ≤ n) && decide (n ≤ 1538)) || (decide (1678 ≤ n) && decide (n ≤ 1935)) || (decide (1938 ≤ n) && decide (n ≤ 1962))

/-- Sectors of the parameter banks, which a compaction refreshes (R488). -/
def paramSector (n : Nat) : Bool := decide (1614 ≤ n) && decide (n ≤ 1677)

/-- A byte string of flash. -/
def flashBytes (s : State) (off n : Nat) : List Byte := readBytes s (flashBase + off) n

/-- An address lies in a sector. -/
def inSector (n a : Nat) : Bool := decide (flashBase + n * sectorSize ≤ a) && decide (a < flashBase + (n + 1) * sectorSize)

/-- A sector is not erased: some byte does not read 16#FF, or some group does not pass a margin read as erased (R472, R479). -/
def sectorHolds (s : State) (n : Nat) : Bool :=
  s.mem.any (fun c => inSector n c.1) || s.ue.any (inSector n) || s.nvs.weak.any (inSector n)

/-! ### Operations (R427, R471, R472) -/

/-- The source of an operation's Purse request (R427). -/
def flashSrc (op : FlashOp) : Nat :=
  match op with
  | .program _ _ => 5
  | .erase _ => 6

/-- The tokens an operation holds (R427, R471). -/
def flashTokens (op : FlashOp) : Nat :=
  match op with
  | .program _ _ => 2
  | .erase _ => 6

/-- The next waiting operation becomes the current one and makes its Purse request (R427, R471). -/
def flashKick (s : State) : State :=
  match s.nvs.job, s.nvs.queue with
  | none, j :: rest => purseAsk (flashSrc j.op) (flashTokens j.op) 0 (modNvs (fun n => { n with job := some j, queue := rest }) s)
  | _, _ => s

/-- A job that waits. -/
def flashJob (user : FlashUser) (op : FlashOp) : FlashJob := { op := op, user := user, granted := false, started := 0 }

/-- Operations put at the end of the waiting ones. -/
def flashAsk (l : List FlashJob) (s : State) : State := flashKick (modNvs (fun n => { n with queue := n.queue ++ l }) s)

/-- Operations put ahead of the waiting ones, to follow the one that has just ended. -/
def flashNext (l : List FlashJob) (s : State) : State := modNvs (fun n => { n with queue := l ++ n.queue }) s

/-- Programs of a byte string, cut at sector boundaries (R471). -/
def flashProgramsAux : Nat → FlashUser → Nat → List Byte → List FlashJob
  | 0, _, _, _ => []
  | fuel + 1, user, off, bs =>
    if bs.isEmpty then []
    else
      let n := sectorSize - off % sectorSize
      flashJob user (.program off (bs.take n)) :: flashProgramsAux fuel user (off + n) (bs.drop n)

/-- Programs of a byte string, cut at sector boundaries, all for one user (R471). -/
def flashPrograms (user : FlashUser) (off : Nat) (bs : List Byte) : List FlashJob :=
  flashProgramsAux (bs.length / sectorSize + 2) user off bs

/-- Erases of `n` sectors from `first` on. -/
def flashErases (user : FlashUser) (first n : Nat) : List FlashJob :=
  (List.range n).map (fun i => flashJob user (.erase (first + i)))

/-- `n` fresh free bytes (log 10). -/
def freeBytes (n : Nat) (s : State) : List Byte × State :=
  let k := ceilDiv n 8
  (((List.range k).flatMap (fun i => bytesOfWord (Config.freeWord (s.fresh + i)))).take n, { s with fresh := s.fresh + k })

/-- Programming only clears bits (R470). -/
def programmed (old new : List Byte) : List Byte := List.zipWith (fun a b => a &&& b) old new

/-- Day number and operating seconds of the last programming of a sector (R488). -/
def noteProgram (sector : Nat) (s : State) : State :=
  modNvs (fun n => { n with
    progDays := (sector, s.rtc.count / 32768 / 86400, s.rtc.opsec) :: n.progDays.filter (fun x => x.1 != sector) }) s

/-- A group that a programming left open: any value, perhaps an uncorrectable error, and not erased at a margin read (R477, R479; log 27). -/
def openGroup (off : Nat) (s : State) : State :=
  let f := freeBytes 8 s
  let b := freshBool f.2
  let q := modNvs (fun n => { n with weak := (flashBase + off) :: n.weak }) (putBytes b.2 (flashBase + off) (programmed (flashBytes s off 8) f.1))
  if b.1 then markUe q (flashBase + off) else q

/-- What a program leaves: the bytes, or, when the read-back does not match, open groups (R470, R471; log 27). -/
def programBytes (good : Bool) (off : Nat) (bs : List Byte) (s : State) : State :=
  noteProgram (sectorOf off)
    (if good then putBytes s (flashBase + off) (programmed (flashBytes s off bs.length) bs)
    else forEach (List.range (ceilDiv bs.length 8)) (fun i q => openGroup (off + 8 * i) q) s)

/-- What a program leaves that a reset may have cut: the groups before some group read as written, that group is open, and the later ones are untouched; the group may lie past the end (R472, R477; log 10). -/
def programCut (off : Nat) (bs : List Byte) (s : State) : State :=
  let n := ceilDiv bs.length 8
  let w := freshWord s
  let k := w.1.toNat % (n + 1)
  let q := programBytes true off (bs.take (8 * k)) w.2
  if k = n then q else openGroup (off + 8 * k) q

/-! ### Groups that report an uncorrectable error (R470, R474) -/

/-- The groups of a flash range that report an uncorrectable error. -/
def flashMarks (s : State) (off n : Nat) : List Nat :=
  s.ue.filter (fun w => decide (flashBase + off ≤ w) && decide (w < flashBase + off + n))

/-- No group of a flash range reports an uncorrectable error. -/
def flashWhole (s : State) (off n : Nat) : Bool := (flashMarks s off n).isEmpty

/-- A read of a flash range: each group in error is reported (R474; log 47). -/
def reportFlash (off n : Nat) (s : State) : State := forEach (flashMarks s off n) flashUe s

/-- A byte string programmed at once, with every read-back equal, by whoever has the die to itself: the save, and recovery mode (R492, R513). -/
def programNow (off : Nat) (bs : List Byte) (s : State) : State :=
  forEach (flashPrograms .other off bs) (fun j q => match j.op with
    | .program a l => programBytes true a l q
    | .erase _ => q) s

/-- What an erase leaves: every byte 16#FF, its erase counted, and FLASH_WEAR past 80,000 (R470, R473, R516). -/
def eraseSector (n : Nat) (s : State) : State :=
  let a := flashBase + n * sectorSize
  let c := (match s.nvs.eraseCounts.find? (fun x => x.1 == n) with
    | some x => x.2
    | none => 0) + 1
  let q := clearUeRange { s with mem := s.mem.filter (fun x => x.1 < a || a + sectorSize ≤ x.1) } a sectorSize
  let q := modNvs (fun v => { v with
    eraseCounts := (n, c) :: v.eraseCounts.filter (fun x => x.1 != n)
    progDays := v.progDays.filter (fun x => x.1 != n)
    weak := v.weak.filter (fun w => !inSector n w)
    maxerase := max v.maxerase (satTo 32 c) }) q
  if c = 80001 then raise q 0x0A04 1 (field 0 n) (field 0 c) else q

/-- The sectors of an area that hold something are erased at once (R493, R513). -/
def eraseArea (base sectors : Nat) (s : State) : State :=
  forEach (List.range sectors) (fun i q => if sectorHolds q (sectorOf base + i) then eraseSector (sectorOf base + i) q else q) s

/-- The save of an area is no longer valid, and the area is not erased (R472, R493). -/
def dirtySave (area : Nat) (s : State) : State :=
  modNvs (fun v => { v with saves := vset v.saves area none, saveDirty := vset v.saveDirty area true }) s

/-- What an aborted erase leaves of the unit it worked for: a save area is no longer a save (R472). -/
def abortUser (user : FlashUser) (s : State) : State :=
  match user with
  | .saveErase area => dirtySave area s
  | _ => s

/-- The erase in progress is aborted: the sector's content is open, it counts as not erased, and the erase is asked for again (R472; log 27). -/
def abortErase (s : State) : State :=
  match s.nvs.job with
  | some j =>
    match j.op with
    | .erase n =>
      let q := modNvs (fun v => { v with job := none, eraseFrom := none }) s
      let q := wdgResume (if j.granted then purseReturn 6 6 q else purseDrop 6 0 q)
      flashKick (modNvs (fun v => { v with queue := { j with granted := false } :: v.queue }) (if j.granted then
        let f := freeBytes sectorSize q
        putBytes (abortUser j.user f.2) (flashBase + n * sectorSize) f.1
      else q))
    | .program _ _ => s
  | none => s

/-- More operations of the same user follow directly. -/
def sameFollows (user : FlashUser) (s : State) : Bool :=
  match s.nvs.queue with
  | j :: _ => j.user == user
  | [] => false

/-- The operations of a user that directly follow are given up. -/
def dropFollowing (user : FlashUser) (s : State) : State :=
  modNvs (fun n => { n with queue := n.queue.dropWhile (fun j => j.user == user) }) s

/-- An operation of a user waits or is in progress. -/
def flashUses (s : State) (p : FlashUser → Bool) : Bool := (s.nvs.job.toList ++ s.nvs.queue).any (fun j => p j.user)

/-! ### Refresh of a sector (R488, R489) -/

/-- The refresh buffer of the next refresh: buffers 0 and 1 alternate (R489 step 1). -/
def nextBuffer (s : State) : Nat :=
  bufferSector ((s.nvs.refresh + ((s.nvs.job.toList ++ s.nvs.queue).filter (fun j => match j.user with
    | .refresh _ _ => true
    | _ => false)).length) % 2)

/-- A refresh of a sector is asked for: its first operation erases the buffer (R489 step 1). -/
def askRefresh (margin : Bool) (n : Nat) (s : State) : State :=
  if !refreshable n || !sectorHolds s n || !flashWhole s (n * sectorSize) sectorSize ||
      flashUses s (fun u => u == .refresh n margin || u == .refresh n (!margin)) then s
  else flashAsk [flashJob (.refresh n margin) (.erase (nextBuffer s))] s

/-- The boot control record REFRESH of a sector (R489 step 2): RID is the sector; its payload names sector and buffer (log 28). -/
def refreshRecord (n b : Nat) : NvsRecord :=
  { rtype := 1, rid := n, del := false, seq := 0, payload := bytesOfWords [field 0 n, field 0 b], bank := 0, off := 0,
    committed := true, good := true }

/-- The buffer that a REFRESH record names for a sector (R489). -/
def bufferOf (s : State) (n : Nat) : Nat :=
  match s.nvs.boot.find? (fun r => r.rid == n) with
  | some r => (wordAt r.payload 8).toNat
  | none => bufferSector 0

/-- The steps of a refresh, each begun when the one before has ended; a failed one leaves the REFRESH record for the next start (R489). -/
def refreshStep (n : Nat) (margin : Bool) (op : FlashOp) (good : Bool) (s : State) : State :=
  let user := FlashUser.refresh n margin
  if !good then s
  else match op with
  | .erase k =>
    if k = n then flashNext (flashPrograms user (n * sectorSize) (flashBytes s (bufferOf s n * sectorSize) sectorSize)) s
    else flashNext (flashPrograms user (k * sectorSize) (flashBytes s (n * sectorSize) sectorSize)) s
  | .program off _ =>
    if sectorOf off = n then
      raise (modNvs (fun v => { v with
        boot := v.boot.filter (fun r => r.rid != n), refresh := (v.refresh + 1) % 2 ^ 64 }) s) 0x0A03 0 (field 0 n)
          (field 0 margin.toNat)
    else flashNext [flashJob user (.erase n)] (modNvs (fun v => { v with boot := v.boot ++ [refreshRecord n (sectorOf off)] }) s)

/-- Flash as it is read while a refresh is open: a sector with a REFRESH record is read from its buffer (R489). -/
def refreshedView (s : State) : State :=
  forEach s.nvs.boot (fun r q =>
    let a := flashBase + r.rid * sectorSize
    let b := (wordAt r.payload 8).toNat * sectorSize
    forEach (flashMarks s b sectorSize) (fun w q => markUe q (a + (w - (flashBase + b))))
      (clearUeRange (putBytes q a (flashBytes s b sectorSize)) a sectorSize)) s

/-- The sectors of a range hold other data now: no REFRESH record names one of them any more (R489; log 28). -/
def forgetRefresh (first n : Nat) (s : State) : State :=
  modNvs (fun v => { v with boot := v.boot.filter (fun r => r.rid < first || first + n ≤ r.rid) }) s

/-- A refresh that a power loss interrupted between its steps 2 and 4 is taken up again at step 3 (R489). -/
def resumeRefresh (s : State) : State :=
  forEach s.nvs.boot (fun r q => flashAsk [flashJob (.refresh r.rid false) (.erase r.rid)] q) s

/-- A refresh of a sector of a range is in progress (R519). -/
def refreshIn (s : State) (lo hi : Nat) : Bool :=
  flashUses s (fun u => match u with
    | .refresh n _ => decide (lo ≤ n) && decide (n ≤ hi)
    | _ => false)

/-- The age that R488 bounds: days of the RTC, or operating seconds while TVALID = 0. -/
def sectorOld (s : State) (x : Nat × Nat × Nat) : Bool :=
  if s.rtc.tvalid then decide (x.2.1 + 1826 < s.rtc.count / 32768 / 86400)
  else decide (x.2.2 + 1826 * 86400 < s.rtc.opsec)

end Sys2Proof.Machine
end

