-- ==== Sys2Proof/Machine/Services.lean ====
section
/-!
DEFINITION. The Teller's request queues: whose turn it is, where a request's block lies, and when a request counts as served (R154, R156, R580).
-/
namespace Sys2Proof.Machine

/-- The request is already being worked on: its record waits to be appended (R580). -/
def reqStarted (s : State) (r : SysReq) : Bool := (s.nvs.append.toList ++ s.nvs.waiting).any (fun a => a.who == .task r)

/-- The request at the head of a Market's queue, when it is not yet being worked on. -/
def headReq (s : State) (m : MarketId) : Option SysReq :=
  match (s.markets[m]).sysQueue with
  | r :: _ => if reqStarted s r then none else some r
  | [] => none

/-- The Market whose turn it is: the queues are served in turn (R580). -/
def sysTurnOf (s : State) : Option MarketId :=
  minBy (fun m => (m.val + 4 - s.sysTurn) % 4) (allMarkets.filter (fun m => (headReq s m).isSome))

/-- The request that a service row serves: the head of the queue whose turn it is, of that service; after Tpf none (R526, R580). -/
def reqFor (s : State) (m : MarketId) (service : Nat) : Option SysReq :=
  if s.power.loss.isSome || s.power.inReset.isSome || sysTurnOf s != some m then none
  else match headReq s m with
  | some r => if r.service.toNat = service then some r else none
  | none => none

/-- A service row's meaning: `f` runs on the request, and nothing happens when there is none. -/
def onService (m : MarketId) (service : Nat) (s : State) (f : SysReq → State → State) : Out :=
  match reqFor s m service with
  | some r => ok (f r { s with sysTurn := (m.val + 1) % 4 })
  | none => ok s

/-- The request has been served and leaves its queue (R580). -/
def served (r : SysReq) (s : State) : State :=
  modMarket (marketOf r.stall) (fun m => { m with sysQueue := dropFirst (fun x => x == r) m.sysQueue }) s

/-- System address of a Stall effective range in the Stall's own Market memory, 8-byte aligned (R29, R156). -/
def marketRange (r : SysReq) (ea n : Nat) : Option Nat :=
  if 0x0100_0000 ≤ ea ∧ ea + n ≤ 0x0140_0000 ∧ ea % 8 = 0 then
    some (marketBase (marketOf r.stall) + (ea - 0x0100_0000))
  else none

/-- The words of a request's block; none where the block is misaligned, leaves the Market, or holds a damaged word, which is reported (R431; log 29). -/
def reqBlock (r : SysReq) (n : Nat) (s : State) : Option (Nat × List Byte) × State :=
  match marketRange r r.arg.toNat n with
  | none => (none, s)
  | some a =>
    let x := loadMem a n s
    (x.1.map (fun l => (a, l)), x.2)

/-- The result words of a block, in the order the Teller writes them, where the block lies in the Market (R362, R452, R462, R487; log 29). -/
def writeResult (r : SysReq) (n : Nat) (ws : List (Nat × Word)) (s : State) : State :=
  match marketRange r r.arg.toNat n with
  | none => s
  | some a => forEach ws (fun w q => agentWrite (a + w.1) (bytesOfWord w.2) q) s

end Sys2Proof.Machine
end

