-- ==== Sys2Proof/Machine/Nvs.lean ====
section
/-!
DEFINITION. The parameter store: records and their layout, the scan at a start, appends, reads, compaction, the lock of the identity page, keys, provisioning and attestation, and their commands and services (R475 to R491, R499 to R501, R516, R519).
-/
namespace Sys2Proof.Machine

/-! ### Records (R475, R478, R482) -/

/-- MARK (R475). -/
def nvsMark : Word := 0xC3C3_5A5A_3C3C_A5A5

/-- The header group of a record (R475). -/
def recordHeader (r : NvsRecord) : Word :=
  field 0 0xA5 ||| flag 8 r.del ||| field 16 r.payload.length ||| field 32 r.rtype ||| field 48 r.rid

/-- A record's bytes before its MARK group (R475). -/
def recordBody (r : NvsRecord) : List Byte :=
  let b := bytesOfWords [recordHeader r, field 0 r.seq] ++ fitBytes (8 * ceilDiv r.payload.length 8) r.payload
  b ++ bytesOfWord (field 0 (crc32 b).toNat)

/-- A record's bytes with its MARK (R475). -/
def recordBytes (r : NvsRecord) : List Byte := recordBody r ++ bytesOfWord nvsMark

/-- The winning record of a key (R482). -/
def nvsFind (s : State) (rtype rid : Nat) : Option NvsRecord :=
  (nvsWinners s.nvs.records).find? (fun r => r.rtype == rtype && r.rid == rid && !r.del)

/-- Why the record at a flash offset is not good: 0 uncommitted, 1 CRC, 2 uncorrectable, 3 header, or none (R478, R520). -/
def recordFault (s : State) (off len : Nat) : Option Nat :=
  let p := 8 * ceilDiv len 8
  let h := readWord s (flashBase + off)
  let c := readWord s (flashBase + off + 16 + p)
  if (ueIn s (flashBase + off) (32 + p)).isSome then some 2
  else if readWord s (flashBase + off + 24 + p) != nvsMark then some 0
  else if c != field 0 (crc32 (flashBytes s off (16 + p))).toNat then some 1
  else if bits h 15 9 != 0 || bits h 31 30 != 0 || (bit h 8 && len != 0) then some 3
  else none

/-- The record that a scan finds at a flash offset, good or not (R475). -/
def recordAt (s : State) (bank off : Nat) : NvsRecord :=
  let h := readWord s (flashBase + off)
  let len := bits h 29 16
  { rtype := bits h 47 32, rid := bits h 63 48, del := bit h 8, seq := (readWord s (flashBase + off + 8)).toNat,
    payload := flashBytes s (off + 16) len, bank := bank, off := off,
    committed := readWord s (flashBase + off + 24 + 8 * ceilDiv len 8) == nvsMark,
    good := (recordFault s off len).isNone }

/-- What a scan gathers: the records in ascending order, the positions that are not good with their reason, and the append position. -/
structure Scan where
  records : List NvsRecord
  bad : List (Nat × Nat)
  pos : Nat
deriving DecidableEq, Repr

/-- The page boundary at or after a bank offset. -/
def pageUp (pos : Nat) : Nat := 256 * ceilDiv pos 256

/-- A scan of a bank from a position on (R479). -/
def scanFrom (s : State) (bank : Nat) : Nat → Nat → Scan
  | 0, pos => { records := [], bad := [], pos := pos }
  | fuel + 1, pos =>
    let off := paramBase bank + pos
    let h := readWord s (flashBase + off)
    let len := bits h 29 16
    let size := 32 + 8 * ceilDiv len 8
    if 0x20_0000 ≤ pos then { records := [], bad := [], pos := 0x20_0000 }
    else if h == BitVec.allOnes 64 && (ueIn s (flashBase + off) 8).isNone && !s.nvs.weak.contains (flashBase + off) then { records := [], bad := [], pos := pos }
    else if (ueIn s (flashBase + off) 8).isSome || bits h 7 0 != 0xA5 || decide (0x20_0000 < pos + size) then
      let r := scanFrom s bank fuel (256 * (pos / 256 + 1))
      { r with bad := (off, 3) :: r.bad }
    else
      match recordFault s off len with
      | none =>
        let r := scanFrom s bank fuel (pos + size)
        { r with records := recordAt s bank off :: r.records }
      | some f =>
        let r := scanFrom s bank fuel (pageUp (pos + size))
        { r with records := recordAt s bank off :: r.records, bad := (off, f) :: r.bad }

/-- The scan of a bank (R479). -/
def scanBank (s : State) (bank : Nat) : Scan := scanFrom s bank 65536 64

/-- The header groups 0 to 2 of a bank (R480). -/
def bankHeader (bank gen : Nat) : List Byte :=
  let b := bytesOfWords [field 0 0x4E56_5342 ||| field 32 1 ||| field 48 bank, field 0 gen]
  b ++ bytesOfWord (field 0 (crc32 b).toNat)

/-- GEN of a bank. -/
def bankGen (s : State) (bank : Nat) : Nat := (readWord s (flashBase + paramBase bank + 8)).toNat

/-- A bank is valid (R481). -/
def bankValid (s : State) (bank : Nat) : Bool :=
  let a := paramBase bank
  flashBytes s a 24 == bankHeader bank (bankGen s bank) && readWord s (flashBase + a + 24) == nvsMark &&
    readWord s (flashBase + a + 32) == BitVec.allOnes 64 && (ueIn s (flashBase + a) 40).isNone

/-- Copies that lose to a copy of the winner's SEQ (R482). -/
def duplicates (l : List NvsRecord) : Nat :=
  (l.filter (fun r => r.good && l.any (fun x =>
    x.good && x.rtype == r.rtype && x.rid == r.rid && x.seq == r.seq && (x.bank != r.bank || x.off != r.off) &&
      !nvsBetter l x))).length

/-- The bank's header and COMMIT programmed. -/
def openBank (bank gen : Nat) (s : State) : State :=
  putBytes s (flashBase + paramBase bank) (bankHeader bank gen ++ bytesOfWord nvsMark)

/-- The flash groups in error that a scan has read: those of both bank headers and of the records that it found bad (R474, R479). -/
def reportScan (bad : List (Nat × Nat)) (s : State) : State :=
  forEach bad (fun x q =>
    if x.2 = 3 then reportFlash x.1 8 q
    else reportFlash x.1 (32 + 8 * ceilDiv (bits (readWord q (flashBase + x.1)) 29 16) 8) q)
    (forEach [0, 1] (fun b q => reportFlash (paramBase b) 40 q) s)

/-- The scan of the parameter store at a start: the winning records, the next SEQ and the append position; without a valid bank the store is opened anew (R478 to R482, R516). -/
def scanStore (s : State) : State :=
  let valid := [0, 1].filter (bankValid s)
  if valid.isEmpty then
    let q := openBank 0 1 (eraseArea (paramBase 0) 64 (reportScan [] s))
    raise (modNvs (fun n => { n with
      actbank := 0, gen := 1, records := [], nextSeq := 1, appendPos := 64, badrec := n.badrec, append := none, waiting := [] }) q)
      0x0A01 1 0 (field 0 3)
  else
    let act := if valid.length = 2 then (if bankGen s 0 < bankGen s 1 then 1 else 0) else valid.headD 0
    let scans := valid.map (fun b => (b, scanBank s b))
    let all := scans.flatMap (fun x => x.2.records)
    let bad := scans.flatMap (fun x => x.2.bad)
    let pos := (scans.filter (fun x => x.1 == act)).foldl (fun _ x => x.2.pos) 64
    let q := modNvs (fun n => { n with
      actbank := act, gen := bankGen s act, records := all, append := none, waiting := [], appendPos := pos
      nextSeq := all.foldl (fun m r => max m r.seq) 0 + 1
      dupseq := satTo 16 (n.dupseq + duplicates all), badrec := satTo 16 (n.badrec + bad.length) }) s
    forEach bad (fun x q => raise q 0x0A01 1 (field 0 x.1) (field 0 x.2)) (reportScan bad q)

/-! ### Appends (R476, R483 to R485) -/

/-- Records accepted and not yet committed. -/
def nvsQueued (s : State) : List NvsRecord := (s.nvs.append.toList ++ s.nvs.waiting).map NvsAppend.record

/-- Records taken as committed, behind every stored one. -/
def asGood (l : List NvsRecord) : List NvsRecord := l.map (fun x => { x with good := true, bank := 2 })

/-- The status that refuses a record, or 0 (R484). `outside` is a host or task record. -/
def recordLimit (s : State) (outside : Bool) (r : NvsRecord) : Nat :=
  if 8192 < r.payload.length then 0x82
  else if outside && r.rtype < 0x8000 then 0x83
  else if 512 * 1024 < nvsLive (s.nvs.records ++ asGood (nvsQueued s ++ [{ r with seq := s.nvs.nextSeq }])) then 0x81
  else if 640 * 1024 < nvsHour s + ((nvsQueued s).foldl (fun n x => n + recordSize x) 0) + recordSize r then 0x84
  else 0

/-- Result status of R487 for a status of R519; NOGRANT has none, so its code is free (log 30). -/
def taskStatus (status : Nat) (s : State) : Nat × State :=
  match status with
  | 0 => (0, s)
  | 0x80 => (1, s)
  | 0x81 => (2, s)
  | 0x84 => (3, s)
  | 0x83 => (4, s)
  | 0x82 => (5, s)
  | 0x85 => (6, s)
  | 0x02 => (7, s)
  | _ => (1 + (Config.freeWord s.fresh).toNat % 8, { s with fresh := s.fresh + 1 })

/-- The result words of NVS_PUT and NVS_GET, offset 24 first and offset 16 last; the request is then served (R487, R580). -/
def nvsAnswer (r : SysReq) (code rlen seq : Nat) (s : State) : State :=
  served r (writeResult r 32 [(24, field 0 seq), (16, field 0 r.ticket.toNat ||| field 32 code ||| field 40 rlen)] s)

/-- An append has ended: its issuer is told; a key that has been stored raises KEY_LOADED (R485, R500, R520). -/
def tellWaiter (who : NvsWaiter) (r : NvsRecord) (status : Nat) (s : State) : State :=
  match who with
  | .ring c =>
    if c.opcode = 0x76 then
      if status = 0 then
        finish c 0 0 0 (raise (modNvs (fun n => { n with kslots := n.kslots ||| BitVec.ofNat 4 (2 ^ r.rid) }) s) 0x0A0E 0 (field 0 r.rid))
      else finish c status 0 0 s
    else finish c status (if status = 0 then field 0 r.seq else 0) 0 s
  | .task q =>
    let x := taskStatus status s
    nvsAnswer q x.1 0 (if status = 0 then r.seq else 0) x.2
  | .firmware => s

/-- A compaction begins: the other bank is erased first, one sector at a time (R483). -/
def startCompaction (c : Option Cmd) (s : State) : State :=
  let b := 1 - s.nvs.actbank
  flashAsk [flashJob (.compactErase (sectorOf (paramBase b))) (.erase (sectorOf (paramBase b)))]
    (modNvs (fun n => { n with compact := some { bank := b, sectors := 32, copying := false, cmd := c } }) s)

/-- A compaction copies records, and appends wait (R483 step 4). -/
def copyingNow (s : State) : Bool :=
  match s.nvs.compact with
  | some c => c.copying
  | none => false

/-- The user of a record's programs. -/
def recordUser (r : NvsRecord) : FlashUser := .record r.rtype r.rid r.seq

/-- The next waiting record is appended when it fits; else a compaction makes room (R476, R483). -/
def nvsKick (s : State) : State :=
  match s.nvs.append, s.nvs.waiting with
  | none, a :: rest =>
    if copyingNow s then s
    else if s.nvs.appendPos + recordSize a.record ≤ 0x20_0000 then
      let r := { a.record with bank := s.nvs.actbank, off := paramBase s.nvs.actbank + s.nvs.appendPos }
      flashAsk (flashPrograms (recordUser r) r.off (recordBody r))
        (modNvs (fun n => { n with append := some { a with record := r, marked := false }, waiting := rest }) s)
    else if s.nvs.compact.isNone then startCompaction none s else s
  | _, _ => s

/-- The active bank has less than 256 KB free (R483 step 1). -/
def nvsShort (s : State) : Bool := s.nvs.compact.isNone && decide (0x20_0000 - s.nvs.appendPos < 256 * 1024)

/-- A record that breaks no limit is accepted: it gets the next SEQ and waits to be appended; a refused one is answered at once (R484, R485). -/
def appendRecord (outside : Bool) (r : NvsRecord) (who : NvsWaiter) (s : State) : State :=
  let st := recordLimit s outside r
  if st ≠ 0 then tellWaiter who r st s
  else
    nvsKick (modNvs (fun n => { n with
      nextSeq := n.nextSeq + 1
      waiting := n.waiting ++ [{ record := { r with seq := n.nextSeq }, who := who, marked := false }] }) s)

/-- A record before it is placed. -/
def newRecord (rtype rid : Nat) (del : Bool) (payload : List Byte) : NvsRecord :=
  { rtype := rtype, rid := rid, del := del, seq := 0, payload := payload, bank := 0, off := 0, committed := false, good := false }

/-- The copy of every winning record into the new bank, with its new place (R483 step 4). -/
def compacted (bank : Nat) : Nat → List NvsRecord → List NvsRecord
  | _, [] => []
  | pos, r :: rest => { r with bank := bank, off := paramBase bank + pos } :: compacted bank (pos + recordSize r) rest

/-- Insertion by ascending SEQ. -/
def bySeq (r : NvsRecord) : List NvsRecord → List NvsRecord
  | [] => [r]
  | x :: l => if r.seq ≤ x.seq then r :: x :: l else x :: bySeq r l

/-- The winning records with DEL = 0 in ascending SEQ order (R483 step 4). -/
def copyList (s : State) : List NvsRecord := ((nvsWinners s.nvs.records).filter (fun r => !r.del)).foldr bySeq []

/-- Steps 3 to 6 of a compaction begin once the bank is erased and no append is in progress (R483). -/
def beginCopy (s : State) : State :=
  match s.nvs.compact with
  | some c =>
    if c.sectors ≠ 0 || c.copying || s.nvs.append.isSome then s
    else
      let l := compacted c.bank 64 (copyList s)
      let ps (off : Nat) (bs : List Byte) : List FlashJob := flashPrograms .bankHeader off bs
      flashAsk (ps (paramBase c.bank) (bankHeader c.bank (s.nvs.gen + 1)) ++
          ps (paramBase c.bank + 64) (l.flatMap recordBytes) ++ ps (paramBase c.bank + 24) (bytesOfWord nvsMark) ++
          ps (paramBase s.nvs.actbank + 32) (bytesOfWord 0))
        (modNvs (fun n => { n with compact := some { c with copying := true } }) s)
  | none => s

/-- A sector of the new bank is erased (R483 step 2). -/
def compactErased (n : Nat) (s : State) : State :=
  match s.nvs.compact with
  | some c =>
    if 1 < c.sectors then
      flashAsk [flashJob (.compactErase (n + 1)) (.erase (n + 1))]
        (modNvs (fun v => { v with compact := some { c with sectors := c.sectors - 1 } }) s)
    else beginCopy (modNvs (fun v => { v with compact := some { c with sectors := 0 } }) s)
  | none => s

/-- The last program of a compaction has ended: the new bank is active, and NVS_COMPACTED is raised; a failed read-back starts it again at step 2 (R483; log 27). -/
def compactDone (good : Bool) (s : State) : State :=
  match s.nvs.compact with
  | none => s
  | some c =>
    if !good then startCompaction c.cmd s
    else
      let l := compacted c.bank 64 (copyList s)
      let q := modNvs (fun n => { n with
        compact := none, actbank := c.bank, gen := n.gen + 1, records := l
        appendPos := 64 + l.foldl (fun k r => k + recordSize r) 0 }) s
      let q := raise q 0x0A00 0 (field 0 q.nvs.gen) (field 0 (nvsLive l))
      nvsKick (match c.cmd with
        | some x => finish x 0 (field 0 q.nvs.gen) 0 q
        | none => q)

/-- The record of the append in progress is bad where it lies, and is appended again on a fresh page with the same SEQ (R471, R479, R482). -/
def appendAgain (a : NvsAppend) (s : State) : State :=
  nvsKick (modNvs (fun n => { n with
    append := none, waiting := { a with marked := false } :: n.waiting
    records := n.records ++ [{ a.record with committed := false, good := false }]
    appendPos := pageUp (n.appendPos + recordSize a.record) }) s)

/-- A program of a record has ended: the MARK follows the read-back of the rest, and the MARK's read-back commits it (R476, R485). -/
def recordStep (good : Bool) (s : State) : State :=
  match s.nvs.append with
  | none => s
  | some a =>
    if !good then appendAgain a s
    else if !a.marked then
      flashNext (flashPrograms (recordUser a.record) (a.record.off + recordSize a.record - 8) (bytesOfWord nvsMark))
        (modNvs (fun n => { n with append := some { a with marked := true } }) s)
    else
      let r := { a.record with committed := true, good := true }
      let q := modNvs (fun n => { n with
        append := none, records := n.records ++ [r], appendPos := n.appendPos + recordSize r
        recent := (s.mono, recordSize r) :: n.recent.filter (fun x => s.mono < x.1 + 3600 * 10 ^ 9) }) s
      let q := tellWaiter a.who r 0 q
      nvsKick (beginCopy (if nvsShort q then startCompaction none q else q))

/-- Every record that waits for an append fails with NOGRANT (R428, R519). -/
def failWaiting (s : State) : State :=
  forEach s.nvs.waiting (fun a q => tellWaiter a.who a.record 0xE0 q) (modNvs (fun n => { n with waiting := [] }) s)

/-- The Purse refused a program or erase of the parameter store: the append or the compaction fails with NOGRANT, and after Tpf so does every record that waits for room (R428, R519, R526). -/
def nvsRefused (user : FlashUser) (s : State) : State :=
  match user with
  | .record _ _ _ =>
    (match s.nvs.append with
    | some a => nvsKick (beginCopy (tellWaiter a.who a.record 0xE0 (modNvs (fun n => { n with append := none }) s)))
    | none => s)
  | .compactErase _ | .bankHeader =>
    (match s.nvs.compact with
    | some c =>
      let q := modNvs (fun n => { n with compact := none }) s
      let q := if q.purse.refusing then failWaiting q else q
      nvsKick (match c.cmd with
        | some x => finish x 0xE0 0 0 q
        | none => q)
    | none => s)
  | _ => s

/-! ### The commands (R485, R487, R519) -/

/-- The record that NVS_PUT's word describes (R487). -/
def putRecord (w : Word) (data : List Byte) : NvsRecord :=
  let del := bit w 46
  newRecord (bits w 15 0) (bits w 31 16) del (if del then [] else fitBytes (bits w 45 32) data)

/-- A descriptor word of NVS_PUT holds no reserved bit and a deletion carries no payload (R475, R487). -/
def putWordClean (w : Word) : Bool := bits w 63 47 == 0 && !(bit w 46 && bits w 45 32 != 0)

/-- NVS_PUT: the record is accepted under its limits and completes when it is committed; an active forwards it (R385, R484, R485). -/
def execNvsPut (ring : Fin 16) (data : List Byte) (s : State) : Out :=
  onRing ring.val 0x60 s (fun c q =>
    let w := opnd c 2
    dataOn 6 c (reservedZero c [BitVec.allOnes 64, lowMask 47] && putWordClean w) (fun q =>
      takeOn 6 c (opnd c 1) (bits w 45 32) data (fun bs q =>
        let r := putRecord w bs
        let q := if recordLimit q true r = 0 then forwardCmd 0 c bs q else q
        appendRecord true r (.ring c) (accept c q)) q) q)

/-- NVS_GET: the winner of a key is copied to the host; a buffer that is too short completes with BAD_DESC, for which the manual names no status (R482, R485; log 30). -/
def execNvsGet (ring : Fin 16) (s : State) : Out :=
  onRing ring.val 0x61 s (fun c q =>
    let w := opnd c 2
    dataOn 6 c (reservedZero c [BitVec.allOnes 64, lowMask 46]) (fun q =>
      if bits w 15 0 < 0x8000 then finish c 0x83 0 0 q
      else match nvsFind q (bits w 15 0) (bits w 31 16) with
      | none => finish c 0x80 0 0 q
      | some r =>
        if bits w 45 32 < r.payload.length then finish c 2 0 0 q
        else giveOn 6 c (opnd c 1) r.payload (field 0 r.payload.length) (field 0 r.seq) q) q)

/-- NVS_COMPACT: a compaction begins, or the command joins the one that runs (R483). -/
def execNvsCompact (ring : Fin 16) (s : State) : Out :=
  onRing ring.val 0x62 s (fun c q =>
    if !reservedZero c [] then finish c 2 0 0 q
    else match q.nvs.compact with
    | none => startCompaction (some c) (accept c q)
    | some k =>
      if k.cmd.isSome then q
      else modNvs (fun n => { n with compact := some { k with cmd := some c } }) (accept c q))

/-- ID_READ: the identity page, 4 KB (R490, R519). -/
def execIdRead (ring : Fin 16) (s : State) : Out :=
  onRing ring.val 0x77 s (fun c q =>
    dataOn 6 c (reservedZero c [BitVec.allOnes 64] && mult (opnd c 1).toNat 4096)
      (fun q => giveOn 6 c (opnd c 1) (flashBytes q 0 4096) 0 0 q) q)

/-! ### The services (R156, R485, R487) -/

/-- Payload of a record descriptor: its system address, when it lies in the Market on a multiple of 8. -/
def payloadAt (r : SysReq) (l : List Byte) (n : Nat) : Option Nat := marketRange r (wordAt l 8).toNat n

/-- NVS_PUT_SERVICE: a task's record is accepted, and served when it is committed (R485, R487, R580). -/
def execNvsPutService (m : MarketId) (s : State) : Out :=
  onService m 4 s (fun r q =>
    let b := reqBlock r 32 q
    match b.1 with
    | none => nvsAnswer r 7 0 0 b.2
    | some (_, l) =>
      let w := wordAt l 0
      let n := bits w 45 32
      match payloadAt r l n with
      | none => nvsAnswer r 7 0 0 b.2
      | some a =>
        if !putWordClean w then nvsAnswer r 7 0 0 b.2
        else
          let x := loadMem a n b.2
          match x.1 with
          | none => nvsAnswer r 7 0 0 x.2
          | some bs =>
            let p := putRecord w bs
            let q := if recordLimit x.2 true p = 0 then
                forwardCommand 0 0x60 [0, w, 0, 0, 0] bs x.2 else x.2
            appendRecord true p (.task r) q)

/-- NVS_GET_SERVICE: the winner of a key is copied to the task's buffer (R482, R485, R487). -/
def execNvsGetService (m : MarketId) (s : State) : Out :=
  onService m 5 s (fun r q =>
    let b := reqBlock r 32 q
    match b.1 with
    | none => nvsAnswer r 7 0 0 b.2
    | some (_, l) =>
      let w := wordAt l 0
      let n := bits w 45 32
      match payloadAt r l n with
      | none => nvsAnswer r 7 0 0 b.2
      | some a =>
        if bits w 63 46 != 0 then nvsAnswer r 7 0 0 b.2
        else if bits w 15 0 < 0x8000 then nvsAnswer r 4 0 0 b.2
        else match nvsFind b.2 (bits w 15 0) (bits w 31 16) with
        | none => nvsAnswer r 1 0 0 b.2
        | some v =>
          if n < v.payload.length then nvsAnswer r 8 v.payload.length v.seq b.2
          else nvsAnswer r 0 v.payload.length v.seq (agentWrite a v.payload b.2))

/-! ### Registers and upkeep (R440, R488, R491, R516) -/

/-- The identity page's CRC matches (R490). -/
def idPageGood (s : State) : Bool :=
  bits (readWord s (flashBase + 0xFF8)) 31 0 == (crc32 (flashBytes s 0 0xFF8)).toNat

/-- A write of NVS.LOCK: KEY in [31..16], IDREF cleared by 1 (R491, R516). -/
def writeNvsLock (v : Word) (s : State) : State :=
  let k := bits v 31 16
  let q := modNvs (fun n => { n with idref := n.idref && !bit v 1, lockFirst := k == 0x1DA6 }) s
  if k = 0x6AD1 && s.nvs.lockFirst then
    (if idPageGood s then modNvs (fun n => { n with idpage := true }) q else modNvs (fun n => { n with idref := true }) q)
  else q

/-- NVS_LOCK_KEY (R491). -/
def execNvsLockKey (val : Word) (s : State) : Out := ok (writeNvsLock val s)

/-- A write of NVS.CNTCLR (R516). -/
def writeNvsCntclr (v : Word) (s : State) : State :=
  modNvs (fun n => if bit v 0 then { n with lockFirst := false, dupseq := 0, badrec := 0, flashue := 0, flashce := 0 }
    else { n with lockFirst := false }) s

/-- NVS_CNTCLR (R516). -/
def execNvsCntclr (val : Word) (s : State) : Out := ok (writeNvsCntclr val s)

/-- A write to the NVS block (R516). -/
def writeNvs (o : Nat) (v : Word) (s : State) : State :=
  match o with
  | 0x20 => writeNvsLock v s
  | 0x48 => writeNvsCntclr v s
  | _ => modNvs (fun n => { n with lockFirst := false }) s

/-- A sector is refreshed, parameter banks by a compaction (R488). -/
def refreshSector (margin : Bool) (n : Nat) (s : State) : State :=
  if paramSector n then (if s.nvs.compact.isNone then startCompaction none s else s) else askRefresh margin n s

/-- RETENTION_CHECK: sectors whose last programming is too old are refreshed (R488). -/
def execRetentionCheck (s : State) : Out :=
  ok (forEach (s.nvs.progDays.filter (sectorOld s)) (fun x q => refreshSector false x.1 q) s)

/-- MARGIN_SCAN: the sectors in which the scan finds a group that is corrected or reads differently at the tightened level are refreshed; whether such a group also counts as corrected is open (R488, R516; log 31). -/
def execMarginScan (sectors : List Nat) (s : State) : Out :=
  ok (forEach (sectors.filter (sectorHolds s)) (fun n q =>
    let b := freshBool q
    let c := satStep 32 b.2.nvs.flashce
    let q := if b.1 then counterFull 0x5030 c.2 (modNvs (fun v => { v with flashce := c.1 }) b.2) else b.2
    refreshSector true n q) s)

/-- The system record with the copy of OPSEC and PWRCYC (R440; its type and layout are a DESIGN CHOICE, log 28). -/
def opsecRecord (s : State) : NvsRecord :=
  newRecord 0x0100 0 false (bytesOfWord (field 0 s.rtc.opsec ||| field 40 s.rtc.pwrcyc))

/-- OPSEC_COPY: the copy of OPSEC and PWRCYC is rewritten (R440). -/
def execOpsecCopy (s : State) : Out := ok (appendRecord false (opsecRecord s) .firmware s)

/-! ### Keys, provisioning and attestation (R499 to R501) -/

/-- SERIAL of the identity page (R490). -/
def deviceSerial (s : State) : Word := readWord s (flashBase + 8)

/-- The hash to be burnt: the old one where it is set already. -/
def burn (old : Option (List Byte)) (set : Bool) (h : List Byte) : Option (List Byte) := if set && old.isNone then some h else old

/-- A flag would change a hash that is burnt. -/
def burnClash (old : Option (List Byte)) (set : Bool) (h : List Byte) : Bool :=
  match old with
  | some x => set && x != h
  | none => false

/-- SEC_PROVISION: fuses are burnt, or the block is refused with PROVISIONED; a block with another byte set completes with BAD_DESC (R499; log 30). -/
def execSecProvision (ring : Fin 16) (data : List Byte) (s : State) : Out :=
  onRing ring.val 0x75 s (fun c q =>
    dataOn 6 c (reservedZero c [BitVec.allOnes 64]) (fun q =>
      takeOn 6 c (opnd c 1) 128 data (fun b q =>
        let f := wordAt b 0
        let h0 := (b.drop 8).take 32
        let h1 := (b.drop 40).take 32
        let p0 := vget q.nvs.pkh 0 none
        let p1 := vget q.nvs.pkh 1 none
        if bits f 63 4 != 0 || (b.drop 72).any (· != 0) then finish c 2 0 0 q
        else if burnClash p0 (bit f 2) h0 || burnClash p1 (bit f 3) h1 then finish c 0x8F 0 0 q
        else
          let q := modNvs (fun n => { n with
            reqsign := n.reqsign || bit f 0, jtaglock := n.jtaglock || bit f 1
            pkh := #v[burn p0 (bit f 2) h0, burn p1 (bit f 3) h1] }) q
          finish c 0 0 0 (raise q 0x0A0D 0 (field 0 (bits f 3 0)))) q) q)

/-- SEC_KEYLOAD: the wrapped key is opened and stored in a system record; slot 0 is not loadable (R500; log 30). -/
def execSecKeyload (ring : Fin 16) (data : List Byte) (s : State) : Out :=
  onRing ring.val 0x76 s (fun c q =>
    dataOn 6 c (reservedZero c [BitVec.allOnes 64]) (fun q =>
      takeOn 6 c (opnd c 1) 132 data (fun b q =>
        let slot := bits (wordAt b 0) 1 0
        if slot = 0 then finish c 2 0 0 q
        else match Config.unwrapKey (deviceSerial q) ((b.drop 8).take 64) ((b.drop 72).take 12) (b.take 8) ((b.drop 100).take 32)
            ((b.drop 84).take 16) with
        | none => finish c 0x86 0 0 q
        | some k => appendRecord false (newRecord 0x0102 slot false (Config.sealKey k)) (.ring c) (accept c q)) q) q)

/-- A firmware slot, 0 A or 1 B. -/
def fwSlot (n : Nvs) (k : Nat) : FwSlot := if k = 0 then n.fwA else n.fwB

/-- The firmware header of a slot, or an empty one. -/
def fwHeader (n : Nvs) (k : Nat) : Wrapper := (fwSlot n k).hdr.getD (wrapperOf [])

/-- The attestation report before its signature (R501). -/
def attestReport (s : State) (nonce : List Byte) : List Byte :=
  let n := s.nvs
  let h := fwHeader n n.fwrun
  let chain := (curPrj n).chain
  fitBytes 192 (fitBytes 32 nonce ++
    bytesOfWords [deviceSerial s,
      field 0 h.version ||| field 32 n.secver ||| field 48 n.fwrun ||| flag 49 ((fwSlot n n.fwrun).state == 3)] ++
    fitBytes 32 h.bodyhash ++
    bytesOfWord (if s.project.loaded then s.project.id else 0) ++
    sha256 (((curPrj n).image.toList ++ chain).flatMap Wrapper.bodyhash) ++
    bytesOfWords [secStatWord n, localT s, rtcCountWord s.rtc, field 0 chain.length])

/-- ATTEST: the report over the host's nonce, signed by the device key (R501). -/
def execAttest (ring : Fin 16) (data : List Byte) (s : State) : Out :=
  onRing ring.val 0x74 s (fun c q =>
    dataOn 6 c (reservedZero c [BitVec.allOnes 64, BitVec.allOnes 64]) (fun q =>
      takeOn 6 c (opnd c 1) 32 data (fun nonce q =>
        let b := attestReport q nonce
        giveOn 6 c (opnd c 2) (b ++ fitBytes 64 (Config.ecdsaSign (sha256 b))) 0 0 q) q) q)

end Sys2Proof.Machine
end

