-- ==== Sys2Proof/Machine/Recorder.lean ====
section
/-!
DEFINITION. The event recorder and the trends: records on flash, flushes of the buffer, reads from a cursor, the services LOG_EVENT and CAL_CONVERT, trend sampling and trend reads (R452 to R468).
-/
namespace Sys2Proof.Machine

/-- The recorder changed. -/
def modRecorder (f : Recorder → Recorder) (s : State) : State := { s with recorder := f s.recorder }

/-! ### Records on flash (R454, R456, R457) -/

/-- The 128 bytes of a record (R454). -/
def eventRecordBytes (r : Record) : List Byte :=
  let b := bytesOfWords ([field 0 r.ev.code ||| field 16 r.ev.sev ||| flag 18 r.restart, field 0 r.rnum, field 0 r.ev.seq,
      r.ev.t, r.rtc, field 0 r.opsec ||| field 40 r.pwrcyc, r.ev.p0, r.ev.p1, r.ev.p2, r.ev.p3] ++
    (List.range 4).map (fun i => r.snaps.getD i 0) ++ [field 0 r.trig ||| field 4 r.snapv])
  b ++ bytesOfWord (field 0 (crc32 b).toNat)

/-- Slots of the ring: 258 sectors of 512 records (R456). -/
def recSlots : Nat := 132096

/-- Flash offset of the slot that is written next. -/
def recOffset (s : State) : Nat := recBase + s.recorder.slots % recSlots * 128

/-- The ring slots that do not read 16#FF throughout, by the cells of memory and the groups in error that lie in them. -/
def ringSlots (s : State) (off n : Nat) : List Nat :=
  (((s.mem.filter (fun c => decide (flashBase + off ≤ c.1) && decide (c.1 < flashBase + off + n))).map (fun c => c.1) ++
    flashMarks s off n).map (fun a => (a - flashBase - recBase) / 128)).eraseDups

/-- A slot holds a record whose CRC matches (R457). -/
def slotGood (s : State) (k : Nat) : Bool :=
  let b := flashBytes s (recBase + 128 * k) 128
  (ueIn s (flashBase + recBase + 128 * k) 128).isNone && wordAt b 120 == field 0 (crc32 (b.take 120)).toNat

/-- RNUM of a slot. -/
def slotRnum (s : State) (k : Nat) : Nat := (wordAt (flashBytes s (recBase + 128 * k) 16) 8).toNat

/-- The erase of a ring sector removes its records, counted in OVERWR (R456). -/
def ringErased (n : Nat) (s : State) : State :=
  let gone := ((ringSlots s (n * sectorSize) sectorSize).filter (slotGood s)).map (slotRnum s)
  modRecorder (fun r => { r with
    stored := r.stored.filter (fun x => !gone.contains x.rnum)
    overwr := (r.overwr + (r.stored.filter (fun x => gone.contains x.rnum)).length) % 2 ^ 64 }) s

/-- The scan of the ring at a start: corrupt slots are counted once and skipped, and RNUM begins 4,096 above the highest stored (R453, R457). -/
def scanRing (s : State) : State :=
  let used := ringSlots s recBase (258 * sectorSize)
  let kept := (used.filter (slotGood s)).map (slotRnum s)
  let bad := (used.filter (fun k => !slotGood s k)).length
  let top := s.recorder.stored.foldl (fun m x => max m (x.rnum + 4096)) 0
  modRecorder (fun r => { r with
    corrupt := satTo 32 (r.corrupt + bad), next := max r.next top, fresh := true
    stored := r.stored.filter (fun x => kept.contains x.rnum) }) (reportFlash recBase (258 * sectorSize) s)

/-! ### Flushes (R455 to R457) -/

/-- The recorder has an operation on the die. -/
def recBusy (s : State) : Bool :=
  flashUses s (fun u => match u with
    | .recorder _ => true
    | .recorderErase => true
    | _ => false)

/-- FLUSHPER in ns (R455, R460). -/
def flushPeriod (s : State) : Nat := bits s.recorder.ctl 5 0 * 10 ^ 9

/-- A flush is due at once: 512 records wait, one is an error, REC_FLUSH waits, or the supply is lost (R455, R457). -/
def flushNow (s : State) : Bool :=
  decide (512 ≤ s.recorder.buffer.length) || s.recorder.buffer.any (fun r => r.ev.sev == 2) ||
    s.recorder.flushRing.isSome || s.power.loss.isSome

/-- After Tpf records are programmed once the save is over, until Tpf + 24 ms (R457). -/
def flushAllowed (s : State) : Bool :=
  match s.power.loss with
  | some l => s.nvs.saving.isNone && decide (s.mono < l.at_ + 24000000)
  | none => true

/-- The operation that the next flush needs: the erase of a sector that is not erased yet, or the program of the oldest records that fit its sector (R455, R456). -/
def flushJob (s : State) : FlashJob :=
  let off := recOffset s
  if s.recorder.slots % 512 = 0 && sectorHolds s (sectorOf off) then flashJob .recorderErase (.erase (sectorOf off))
  else
    let n := min s.recorder.buffer.length (512 - s.recorder.slots % 512)
    flashJob (.recorder n) (.program off ((s.recorder.buffer.take n).flatMap eventRecordBytes))

/-- A flush begins; after Tpf it uses the tokens reserved for the save and asks the Purse for none (R427, R457). -/
def beginFlush (s : State) : State :=
  if s.power.loss.isSome then
    (if s.nvs.job.isNone then modNvs (fun n => { n with job := some (flushJob s) }) s else s)
  else flashAsk [flushJob s] s

/-- RECORDER_FLUSH: buffered records are programmed, FLUSHPER after the oldest was captured or at once when R455 asks for it. -/
def execRecorderFlush (s : State) : Out :=
  match s.recorder.buffer with
  | [] => ok s
  | r :: _ =>
    if recBusy s || s.power.inReset.isSome then ok s
    else
      let q := if flushNow s then s else untilMono (r.at_ + flushPeriod s) s
      ok (if flushAllowed q then beginFlush q else q)

/-- REC_FLUSH completes when nothing waits any more (R455, R467). -/
def flushComplete (s : State) : State :=
  match s.recorder.flushRing with
  | some n =>
    if s.recorder.buffer.isEmpty then
      finishBusy n 0 (field 0 s.recorder.next) 0 (modRecorder (fun r => { r with flushRing := none }) s)
    else s
  | none => s

/-- A program of the recorder has ended: its records are stored, and entering a sector has the sector after it erased; a failed program leaves its slots corrupt and its records in the buffer (R456, R457). -/
def recorderStep (n : Nat) (good : Bool) (s : State) : State :=
  let q := modRecorder (fun r => { r with
    slots := r.slots + n
    stored := if good then r.stored ++ r.buffer.take n else r.stored
    buffer := if good then r.buffer.drop n else r.buffer }) s
  let q := flushComplete q
  let ahead := sectorOf recBase + (q.recorder.slots / 512 + 1) % 258
  if q.recorder.slots % 512 = 0 && sectorHolds q ahead && !q.power.loss.isSome then
    flashAsk [flashJob .recorderErase (.erase ahead)] q
  else q

/-- The Purse refused a flush: its records stay, and a waiting REC_FLUSH completes with NOGRANT (R455, R519). -/
def recorderRefused (s : State) : State :=
  match s.recorder.flushRing with
  | some n => finishBusy n 0xE0 0 0 (modRecorder (fun r => { r with flushRing := none }) s)
  | none => s

/-- REC_FLUSH: the buffered records are flushed, and the command completes when they are (R455, R467). -/
def execRecFlush (ring : Fin 16) (s : State) : Out :=
  onRing ring.val 0x49 s (fun c q =>
    if !reservedZero c [] then finish c 2 0 0 q
    else if q.recorder.flushRing.isSome then q
    else flushComplete (modRecorder (fun r => { r with flushRing := some c.ring }) (accept c q)))

/-- REC_READ: whole records from a cursor on, from flash and from the buffer (R459, R467). -/
def execRecRead (ring : Fin 16) (s : State) : Out :=
  onRing ring.val 0x48 s (fun c q =>
    let cursor := (opnd c 1).toNat
    let n := bits (opnd c 3) 12 0
    dataOn 6 c (reservedZero c [BitVec.allOnes 64, BitVec.allOnes 64, lowMask 13] && mult (opnd c 2).toNat 128 &&
        decide (1 ≤ n) && decide (n ≤ 4096)) (fun q =>
      if q.recorder.next < cursor then finish c 0xC3 0 0 q
      else
        let l := ((q.recorder.stored ++ q.recorder.buffer).filter (fun r => cursor ≤ r.rnum)).take n
        let next := l.foldl (fun _ r => r.rnum + 1) cursor
        giveOn 6 c (opnd c 2) (l.flatMap eventRecordBytes)
          (field 0 l.length ||| field 32 (satTo 32 (recOldest q.recorder - cursor))) (field 0 next) q) q)

/-- A write to the REC block (R460). -/
def writeRec (o : Nat) (v : Word) (s : State) : State :=
  match o with
  | 0x00 => judged s.recorder.ctl v [{ hi := 5, lo := 0, good := fun x => decide (1 ≤ x) && decide (x ≤ 60) }]
      (fun w q => modRecorder (fun r => { r with ctl := w }) q) s
  | _ =>
    match slotOf 0x100 8 16 o with
    | some k => modRecorder (fun r => { r with trg := vset r.trg k (v &&& lowMask 33) }) s
    | none =>
      match slotOf 0x200 8 16 o with
      | some k => modRecorder (fun r => { r with tsel := vset r.tsel k v }) s
      | none => s

/-! ### The services LOG_EVENT and CAL_CONVERT (R452, R462) -/

/-- LOG_EVENT: a task's event is raised, its code in 16#F000 to 16#FFFF (R462). -/
def execLogEvent (m : MarketId) (s : State) : Out :=
  onService m 2 s (fun r q =>
    let answer (code : Nat) (q : State) : State :=
      served r (writeResult r 32 [(24, field 0 r.ticket.toNat ||| field 32 code)] q)
    let b := reqBlock r 32 q
    match b.1 with
    | none => answer 1 b.2
    | some (_, l) =>
      let w := wordAt l 0
      if bits w 15 0 < 0xF000 || bits w 17 16 = 3 then answer 1 b.2
      else answer 0 (raise b.2 (bits w 15 0) (bits w 17 16) (wordAt l 8) (wordAt l 16)
        (field 0 r.task.toNat ||| field 7 r.stall.val)))

/-- CAL_CONVERT: a task's conversion; OUT is open where it fails (R452; log 32). -/
def execCalConvert (m : MarketId) (s : State) : Out :=
  onService m 6 s (fun r q =>
    let answer (status : Nat) (out : Word) (q : State) : State :=
      served r (writeResult r 32 [(16, out), (24, field 0 r.ticket.toNat ||| field 32 status)] q)
    let failed (status : Nat) (q : State) : State := answer status (freshWord q).1 (freshWord q).2
    let b := reqBlock r 32 q
    match b.1 with
    | none => failed 2 b.2
    | some (_, l) =>
      let w := wordAt l 0
      let offs := sbits w 63 32
      if bits w 31 1 ≠ 0 then failed 2 b.2
      else match (if bit w 0 then dateToCount (wordAt l 8) offs else countToDate (bits (wordAt l 8) 47 0) offs) with
      | .ok v => answer 0 v b.2
      | .error e => failed e b.2)

/-! ### Trends (R463 to R467) -/

/-- One trend channel changed. -/
def modTrend (k : Nat) (f : Trend → Trend) (s : State) : State := { s with trends := vmod s.trends k f }

/-- A trend channel. -/
def trendAt (s : State) (k : Nat) : Trend := vget s.trends k Trend.reset

/-- The axis slot of an axis number (R197). -/
def trendAxis (s : State) (n : Nat) : Option Axis := (vget s.engines (n / 128) Engine.reset).axes[n % 128]?

/-- A trend source exists (R463, R467). -/
def trendSource (s : State) (kind src : Nat) : Bool :=
  match kind with
  | 1 => decide (src < 4)
  | 2 => (trendAxis s src).isSome
  | 3 => decide (src < 4)
  | _ => true

/-- The sample of a source, none when it has no valid value (R463, R464). -/
def trendValue (t : Trend) (s : State) : Option Int × State :=
  match t.kind with
  | 1 =>
    let a := vget s.field.analogs t.src Analog.reset
    let signed := bits a.cfg 2 0 = 0 && !bit a.cfg 3
    (if a.valid then some (if signed then signedOf 16 a.last else (a.last : Int)) else none, s)
  | 2 => ((trendAxis s t.src).map (fun a => sword a.setpt), s)
  | _ =>
    let r := loadMem (marketBase t.src + t.moff) 8 s
    (r.1.map (fun l => sword (wordOfBytes l)), r.2)

/-- A point stored; the oldest are overwritten (R466). -/
def putPoint (p : Point) (t : Trend) : Trend :=
  let l := t.stored ++ [p]
  { t with stored := l.drop (l.length - t.points), lost := t.lost + (l.length - t.points) }

/-- The line from the anchor to sample (nb, x) passes an earlier sample by more than TOL (R464). -/
def offLine (t : Trend) (na : Nat) (xa : Int) (nb : Nat) (x : Int) : Bool :=
  t.seg.any (fun p =>
    decide (t.tol < (xa + fdiv ((x - xa) * ((p.1 : Int) - (na : Int))) ((nb : Int) - (na : Int)) - p.2).natAbs))

/-- A valid sample (R464). -/
def trendTake (x : Int) (t : Trend) : Trend :=
  let nb := t.next
  match t.anchor with
  | none => { putPoint { num := nb, gap := false, value := x } t with anchor := some (nb, x), seg := [], next := nb + 1, gapped := false }
  | some (na, xa) =>
    if offLine t na xa nb x || decide (t.maxseg < nb - na) then
      match t.seg.getLast? with
      | some (m, y) => { putPoint { num := m, gap := false, value := y } t with anchor := some (m, y), seg := [(nb, x)], next := nb + 1 }
      | none => { t with seg := [(nb, x)], next := nb + 1 }
    else { t with seg := t.seg ++ [(nb, x)], next := nb + 1 }

/-- A sample with no valid value: the previous sample and a gap point are stored, once, with an open value (R464, R466; log 32). -/
def trendGap (s : State) (t : Trend) : Trend :=
  if t.gapped then { t with next := t.next + 1 }
  else
    let t' := match t.seg.getLast? with
      | some (m, y) => putPoint { num := m, gap := false, value := y } t
      | none => t
    { putPoint { num := t.next, gap := true, value := sword (freshWord s).1 } t' with
      anchor := none, seg := [], next := t.next + 1, gapped := true }

/-- TREND_SAMPLE: a channel samples its source at a base tick boundary of its period, once (R463, R464). -/
def execTrendSample (ch : Fin 32) (s : State) : Out :=
  let t := trendAt s ch.val
  let n := s.clock.ticknum
  if t.kind = 0 || !s.clock.set || s.clock.firstBoundary.isSome || n % (t.perM1 + 1) != 0 || t.lastTick = some n then ok s
  else
    let q := modTrend ch.val (fun t => { t with lastTick := some n }) s
    let v := trendValue t q
    ok (match v.1 with
      | some x => modTrend ch.val (trendTake x) v.2
      | none => if t.gapped then modTrend ch.val (trendGap v.2) v.2
                else { modTrend ch.val (trendGap v.2) v.2 with fresh := v.2.fresh + 1 })

/-- TREND_CONFIG: the channel restarts with a source, or TREND_INVALID; a boundary that has passed is not sampled (R463, R467). -/
def execTrendConfig (ring : Fin 16) (s : State) : Out :=
  onRing ring.val 0x50 s (fun c q =>
    let w := opnd c 1
    let v := opnd c 2
    let ch := bits w 4 0
    let kind := bits w 6 5
    let maxseg := bits v 34 22
    let points := bits v 49 35
    let others := (enumFrom 0 q.trends.toList).foldl (fun n x => if x.1 = ch then n else n + x.2.points) 0
    if !reservedZero c [lowMask 37, lowMask 50, BitVec.allOnes 64] then finish c 2 0 0 q
    else if kind = 0 then finish c 0 0 0 (modTrend ch (fun _ => Trend.reset) q)
    else if maxseg < 2 || 4096 < maxseg || points < 16 || 16384 < points || !mult (bits v 21 0) 8 then finish c 2 0 0 q
    else if !trendSource q kind (bits w 16 7) || 65536 < others + points then finish c 0xC4 0 0 q
    else finish c 0 0 0 (modTrend ch (fun _ => { Trend.reset with
      kind := kind, src := bits w 16 7, perM1 := bits w 36 17, moff := bits v 21 0, maxseg := maxseg, points := points
      tol := (opnd c 3).toNat
      lastTick := if q.clock.set && q.clock.firstBoundary.isNone then some q.clock.ticknum else none }) q))

/-- The 16 bytes of a point (R466). -/
def pointBytes (p : Point) (prov : Bool) : List Byte :=
  bytesOfWords [field 0 p.num ||| flag 62 prov ||| flag 63 p.gap, wordOfInt p.value]

/-- The latest sample of a channel as a point: in a gap its value is open (R466; log 32). -/
def latestPoint (s : State) (t : Trend) : Option Point :=
  if t.next = 0 then none
  else if t.gapped then some { num := t.next - 1, gap := true, value := sword (freshWord s).1 }
  else match t.seg.getLast? with
    | some (m, y) => some { num := m, gap := false, value := y }
    | none => t.anchor.map (fun a => { num := a.1, gap := false, value := a.2 })

/-- TREND_READ: stored points from a sample number on, and the latest sample as a provisional point (R466, R467; how the counts divide is a DESIGN CHOICE, log 32). -/
def execTrendRead (ring : Fin 16) (s : State) : Out :=
  onRing ring.val 0x51 s (fun c q =>
    let n := bits (opnd c 3) 31 0
    let start := (opnd c 4).toNat
    dataOn 6 c (reservedZero c [lowMask 5, BitVec.allOnes 64, lowMask 32, BitVec.allOnes 64]) (fun q =>
      let t := trendAt q (bits (opnd c 1) 4 0)
      let prov := if n = 0 then none else latestPoint q t
      let l := (t.stored.filter (fun p => start ≤ p.num)).take (n - prov.toList.length)
      let next := l.foldl (fun _ p => p.num + 1) start
      let q := if t.gapped then { q with fresh := q.fresh + 1 } else q
      giveOn 6 c (opnd c 2) (l.flatMap (fun p => pointBytes p false) ++ prov.toList.flatMap (fun p => pointBytes p true))
        (field 0 (l.length + prov.toList.length) ||| field 32 (satTo 32 t.lost)) (field 0 next) q) q)

end Sys2Proof.Machine
end

