-- ==== Sys2Proof/Machine/Reset.lean ====
section
/-!
DEFINITION. The entry of a device reset: the cause it records, what every unit keeps, and a software or update reset that first waits for a stop and a save (R418, R423, R529 to R535, R540).
-/
namespace Sys2Proof.Machine

/-- The cause that a reset records: POWERON when the always-on supply was lost, BROWNOUT after a power loss, FATAL after a fatal error, else the cause that enters it (R529, R530; log 42). -/
def resetCause (cause : ResetCause) (s : State) : ResetCause :=
  if s.power.aonLost then .poweron else if s.power.loss.isSome then .brownout
  else if s.errs.fatalAt.isSome && cause != .poweron && cause != .brownout then .fatal else cause

/-- A flash program in progress runs to its end, or is cut at an open group; an erase in progress is aborted (R472, R532; log 10). -/
def settleFlash (s : State) : State :=
  match s.nvs.job with
  | some j =>
    (match j.op with
    | .program off bs =>
      if j.granted || s.power.loss.isSome then programCut off bs s else s
    | .erase _ => abortErase s)
  | none => s

/-- The watchdog through a reset: COUNT is held at 0 until the release (R423). -/
def wdgReset (pon : Bool) (now : Nat) (w : Watchdog) : Watchdog :=
  if pon then Watchdog.reset
  else { w with
    en := w.lock && w.en, base := 0, since := now, susp := some now, key1 := false, expired := false, foreign := false,
    stray := false, cfgen := false, cfgbad := false, chk := 0, dup := 0, dupRaised := 0, svccnt := 0, keyFirst := none,
    liveSvct := 0, hard := none }

/-- The error registers through a reset: SYS.FATAL stays but for a power-on reset (R435). -/
def errsReset (pon : Bool) (e : Errors) : Errors :=
  if pon then Errors.reset else { Errors.reset with fatalCause := e.fatalCause, fatalValid := e.fatalValid }

/-- The backup domain through a reset: SYNC becomes 0, and a power-on reset counts PWRCYC (R448, R535). -/
def rtcReset (pon : Bool) (r : Rtc) : Rtc :=
  { r with
    sync := false, writeRing := none, syncSum := 0, syncSecs := 0
    pwrcyc := if pon then (satStep 24 r.pwrcyc).1 else r.pwrcyc }

/-- The recorder through a reset: its registers but LOST and CORRUPT stay, and the buffer is lost with the SRAM (R460, R535). -/
def recorderReset (r : Recorder) : Recorder :=
  { r with lost := 0, corrupt := 0, lostSince := 0, fresh := true, buffer := [], flushRing := none }

/-- Flash, fuses and slots through a reset: what was under way ends, and the counters of R516 but REFRESH become 0 (R516, R535). -/
def nvsReset (n : Nvs) : Nvs :=
  { n with
    job := none, queue := [], eraseFrom := none, append := none, waiting := [], compact := none,
    recent := [], dupseq := 0, badrec := 0, flashue := 0, flashce := 0, idref := false, lockFirst := false, saving := none,
    half := 0, live := none, recovery := { Recovery.reset with byPort := n.recovery.byPort, slot := n.recovery.slot, used := n.recovery.used } }

/-- The always-on domain at the entry of a reset (R529, R532, R540). -/
def powerReset (c : ResetCause) (now : Nat) (p : Power) : Power :=
  let pon := c == .poweron
  let n := satStep 32 p.resets
  { p with
    aonLost := false, loss := none, inReset := some { cause := c, entered := now }, wanted := none, pinLatched := false,
    rstoutLow := true, cause := c, pfseen := !pon && p.loss.isSome
    saveok := !pon && (match p.loss with
      | some l => l.saveOk
      | none => false)
    pinlate := !pon && p.pinLatched
    tpfSeen := (match p.loss with
      | some l => l.tpf
      | none => 0)
    rstKey := false, fail := 0, done := false, resets := if pon then 0 else n.1, resetsSat := !pon && n.2, ready := false
    pllUnlocked := false }

/-- A device reset enters (R532, R535): every island but the always-on and backup domains is reset, with its memory zeroed. -/
def deviceReset (cause : ResetCause) (s : State) : State :=
  let c := resetCause cause s
  let pon := c == .poweron
  let q := settleFlash s
  let p := powerReset c s.mono q.power
  { State.reset with
    pending := q.pending, mono := q.mono, fresh := q.fresh
    mem := q.mem.filter (fun x => flashBase ≤ x.1), ue := q.ue.filter (fun w => flashBase ≤ w)
    host := { HostIf.reset with posted := q.host.posted, lastGood := q.mono }
    dma := { Dma.reset with levelAt := q.mono }
    net := { State.reset.net with wire := q.net.wire }
    red := { Red.reset with sent := q.red.sent }
    wdg := wdgReset pon q.mono q.wdg, errs := errsReset pon q.errs, rtc := rtcReset pon q.rtc
    recorder := recorderReset q.recorder, nvs := nvsReset q.nvs
    purse := { Purse.reset with tokens := q.purse.strap, strap := q.purse.strap }
    power := { p with pwrcycSat := pon && (satStep 24 q.rtc.pwrcyc).2 } }

/-- The modes in which a wanted reset waits for its stop (R533). -/
def restartWaits (s : State) : Bool := s.ctl.mode == .run || s.ctl.mode == .hold

/-- A reset with cause SOFTWARE or UPDATE is requested: in RUN or HOLD it waits for the stop at Te and the save, else it enters at once; one already wanted, or a power loss, keeps its course (R530, R533). -/
def wantRestart (cause : ResetCause) (s : State) : State :=
  if s.power.loss.isSome || s.power.inReset.isSome then s
  else match s.power.wanted with
  | some w => if cause == .software then { s with power := { s.power with wanted := some (.software, w.2) } } else s
  | none =>
  if restartWaits s then
    { s with
      power := { s.power with wanted := some (cause, none) }
      ctl := { s.ctl with waits := s.ctl.waits ++ [{ ring := 16, action := .restart cause, wakes := [], ready := some (localT s + 2000) }] } }
  else deviceReset cause s

/-- The stop at Te of a wanted reset: the save follows, and without regions to save the reset enters at once (R533). -/
def restartNow (cause : ResetCause) (s : State) : State :=
  let q := enterStop false 1 0 s
  let cause := match q.power.wanted with
    | some w => w.1
    | none => cause
  if saveWanted q then
    { q with
      nvs := { q.nvs with saving := some (0, (localT q).toNat) }
      power := { q.power with wanted := some (cause, some (q.mono + 25000000)) } }
  else deviceReset cause q

/-- A write of SYS.RSTCTL: 16#B007 then 16#700B with no other SYS write between requests a reset with cause SOFTWARE (R540). -/
def rstctlWrite (v : Word) (s : State) : State :=
  let k := bits v 15 0
  if k = 0x700B && s.power.rstKey then wantRestart .software (dropRstKey s)
  else { s with power := { s.power with rstKey := k == 0xB007 } }

/-- SYS_RSTCTL (R540). -/
def execSysRstctl (val : Word) (s : State) : Out := ok (rstctlWrite val s)

end Sys2Proof.Machine
end

