-- ==== Sys2Proof/Machine/Control.lean ====
section
/-!
DEFINITION. The operating mode's commands, their effect at a base tick boundary, the waking of Stalls, the start of a RUN, freezing and breakpoints (R20, R62 to R74, R82, R115, R419, R493, R494).
-/
namespace Sys2Proof.Machine

/-- The control changed. -/
def modCtl (f : Control → Control) (s : State) : State := { s with ctl := f s.ctl }

/-! ### Waiting mode commands (R20, R64) -/

/-- Stalls with a task pinned that still sleep, in order (R20). -/
def sleepers (s : State) : List StallId := allStalls.filter (fun k => hasTask s k && !s.stalls[k].awake)

/-- The boundary of a waiting command whose instant is known: the first one at least at `t` that has not fired (R64). -/
def effectBoundary (s : State) (t : Word) : Nat := max (ceilDiv t.toNat 31250) (nextBoundary s.clock)

/-- Opcode and operand of a mode action, as the active forwards it (R388). -/
def actionCode (a : ModeAction) : Nat × Nat :=
  match a with
  | .arm => (0x08, 0)
  | .disarm => (0x09, 0)
  | .run .cold => (0x0A, 0)
  | .run .warm => (0x0A, 1)
  | .run .resume => (0x0A, 2)
  | .stop => (0x0B, 0)
  | .restart _ => (0, 0)

/-- A mode command whose instant is now known is forwarded with its boundary (R388). -/
def forwardMode (a : ModeAction) (t : Word) (s : State) : State :=
  forwardCommand (field 0 (effectBoundary s t)) (actionCode a).1 [field 0 (actionCode a).2, 0, 0, 0, 0] [] s

/-- 2 us from now, the least instant of an effect (R64). -/
def readyFrom (s : State) : Word := localT s + 2000

/-- A mode command without wakes waits for its boundary (R64). -/
def waitMode (ring : Nat) (a : ModeAction) (s : State) : State :=
  forwardMode a (readyFrom s)
    (modCtl (fun c => { c with waits := c.waits ++ [{ ring := ring, action := a, wakes := [], ready := some (readyFrom s) }] }) s)

/-- The next Stall is woken: its 4 tokens are asked for (R20, R427). -/
def askWake (k : StallId) (s : State) : State := purseAsk 2 4 k.val s

/-- A RUN waits until every Stall with a task is awake (R20, R64). -/
def waitRun (ring : Nat) (kind : StartKind) (s : State) : State :=
  match sleepers s with
  | [] => waitMode ring (.run kind) s
  | k :: rest =>
    askWake k (modCtl (fun c => { c with
      waits := c.waits ++ [{ ring := ring, action := .run kind, wakes := k :: rest, ready := none }] }) s)

/-- The first waiting command that wakes Stall `k` changed. -/
def modWake (k : StallId) (f : ModeWait → ModeWait) (s : State) : State :=
  modCtl (fun c => { c with waits := mapFirst (fun x => x.wakes.head? == some k) f c.waits }) s

/-- A waiting RUN whose Stall `k` has woken: the next Stall, or the instant of the effect (R20, R64). -/
def wakeStep (k : StallId) (s : State) : State :=
  match s.ctl.waits.find? (fun w => w.wakes.head? == some k) with
  | none => s
  | some w =>
    match w.wakes.drop 1 with
    | [] => forwardMode w.action (readyFrom s) (modWake k (fun x => { x with wakes := [], ready := some (readyFrom s) }) s)
    | n :: rest => askWake n (modWake k (fun x => { x with wakes := n :: rest }) s)

/-- STALL_AWAKE: a Stall is awake 10 us after its grant, and its tokens are returned (R20, R427). -/
def execStallAwake (stall : StallId) (s : State) : Out :=
  match s.stalls[stall].wakeGrant with
  | none => ok s
  | some g =>
    let q := untilMono (g + 10000) s
    ok (wakeStep stall (purseReturn 2 4 (modStall stall (fun x => { x with awake := true, wakeGrant := none }) q)))

/-- A wake that the Purse refused: RUN completes with NOGRANT and the Exchange stays in STOP (R20, R427). -/
def wakeRefused (k : StallId) (s : State) : State :=
  match s.ctl.waits.find? (fun w => w.wakes.head? == some k) with
  | none => s
  | some w =>
    let q := modCtl (fun c => { c with waits := dropFirst (fun x => x.wakes.head? == some k) c.waits }) s
    forEach allStalls sleepIfHeld (finishBusy w.ring 0xE0 0 0 q)

/-! ### The start of a RUN (R82, R83, R115, R323, R493, R494) -/

/-- A save is valid, of the loaded project, and not consumed (R81, R494). -/
def saveFits (s : State) (v : Save) : Bool :=
  v.ended && v.project == s.project.id && !v.consumed

/-- The newest valid, matching save (R494). -/
def bestSave (s : State) : Option Save :=
  let l := (s.nvs.saves.toList.filterMap id).filter (saveFits s)
  l.find? (fun v => l.all (fun x => x.seq ≤ v.seq))

/-- The save that a WARM start would use, if it is accepted (R419, R494). -/
def warmSave (s : State) : Option Save :=
  match bestSave s with
  | some v =>
    if (s.power.cause == .watchdog || s.power.cause == .fatal) && !(v.cause == 1 && v.tpf == s.wdg.expt) then none else some v
  | none => none

/-- Why a RUN is refused, or 0 (R63, R82). -/
def runRefusal (s : State) (kind : StartKind) : Nat :=
  if s.ctl.mode != .stop then 6
  else if !s.ctl.armed then 0x11
  else match kind with
  | .cold => 0
  | .warm => if !s.ctl.ranSinceReset && (warmSave s).isNone then 0x12 else 0
  | .resume => if s.ctl.resumeOk then 0 else 0x13

/-- A Market-memory byte lies in a retentive region. -/
def retentiveByte (s : State) (m off : Nat) : Bool :=
  s.project.regions.any (fun r => r.market.val == m && decide (r.offset ≤ off) && decide (off < r.offset + r.length))

/-- Market memory set to zero but for what is kept (R82). -/
def zeroMarket (keep : Bool) (m : Nat) (s : State) : State :=
  let a := marketBase m
  let kept (x : Nat) : Bool := decide (a ≤ x) && decide (x < a + 0x40_0000) && keep && retentiveByte s m (x - a)
  { s with
    mem := s.mem.filter (fun c => c.1 < a || a + 0x40_0000 ≤ c.1 || kept c.1)
    ue := s.ue.filter (fun w => w < a || a + 0x40_0000 ≤ w || kept w) }

/-- Initial values written, retentive bytes left alone where they are kept (R82, R168). -/
def applyInits (keep : Bool) (s : State) : State :=
  forEach s.project.inits (fun g q =>
    forEach (initsOf g.body) (fun p q =>
      forEach (enumFrom p.1 p.2) (fun b q =>
        if keep && retentiveByte q g.market.val b.1 then q else putBytes q (marketBase g.market.val + b.1) [b.2]) q) q) s

/-- The data of a save put back into its regions (R81, R82, R492). -/
def restoreSave (v : Save) (s : State) : State :=
  (v.regions.foldl (fun x r =>
    (x.1.drop r.length, clearUeRange (putBytes x.2 (marketBase r.market.val + r.offset) (x.1.take r.length))
      (marketBase r.market.val + r.offset) r.length)) (v.data, s)).2

/-- The output halves set to zero, with the forced bits of the force table (R82, R191). -/
def zeroOutputs (s : State) : State :=
  let q := forEach (List.range 4) (fun m q => zeroRange q (outBase m) 0x4_0000) s
  forEach q.forces (fun f q => if f.output then finishForce f.market.val (f.bitoff / 64 * 8) q else q) q

/-- Memory at a COLD or WARM start, forced bits written again (R82, R191; log 18). -/
def startMemory (kind : StartKind) (s : State) : State :=
  match kind with
  | .resume => s
  | .cold => zeroOutputs (applyInits false (forEach (List.range 4) (zeroMarket false) s))
  | .warm =>
    let q := zeroOutputs (applyInits true (forEach (List.range 4) (zeroMarket true) s))
    if s.ctl.ranSinceReset then q
    else match warmSave s with
      | some v => restoreSave v q
      | none => q

/-- CONSUMED of every valid save programmed to 0 at the first COLD or WARM RUN after a reset (R493). -/
def consumeSaves (s : State) : State :=
  let q := flashAsk ((List.range 3).flatMap (fun i => match vget s.nvs.saves i none with
    | some v => if v.ended then flashPrograms .other (saveBase i + 48) (bytesOfWord 0) else []
    | none => [])) s
  modNvs (fun n => { n with saves := n.saves.map (fun v => v.map (fun x => { x with consumed := x.consumed || x.ended })) }) q

/-- The tasks at a RUN: none stopped, none frozen, no release counted as the task's last (R71, R76, R83). -/
def startTasks (s : State) : State :=
  { s with tasks := s.tasks.map (fun t => { t with
      stopped := false, hadRelease := false, lastCommitted := false, noSpec := none, evSeq := 0, evDropped := 0
      freezeNext := none, run := 0 }) }

/-- What a WARM start has taken from a save goes to the standby, which has no such save (R385, R388; log 44). -/
def forwardRestored (kind : StartKind) (s : State) : State :=
  if kind == .warm && !s.ctl.ranSinceReset && (warmSave s).isSome then
    forEach s.project.regions (fun r q =>
      let a := marketBase r.market.val + r.offset
      forwardWrite a (readBytes q a r.length) q) s
  else s

/-- RUN at Te (R65, R82, R115, R204, R231, R323, R493). -/
def startRun (kind : StartKind) (s : State) : State :=
  let q := forwardRestored kind (startMemory kind s)
  let q := if kind != .resume && !s.ctl.ranSinceReset then consumeSaves q else q
  let q := motionRun (fieldRun (startTasks q))
  let q := if q.project.raenok then { q with spctl := q.spctl ||| 1 } else q
  setMode .run 1 0 (modCtl (fun c => { c with ranSinceReset := true, scopeAll := false }) q)

/-- DISARM at Te: STOP, and every output is off (R63, R67, R232). -/
def disarmNow (reason : Nat) (s : State) : State :=
  let q := motionDisarm (fieldDisarm (if s.ctl.mode == .run || s.ctl.mode == .hold then enterStop false reason 0 s else s))
  if s.ctl.armed then setMode q.ctl.mode reason 0 q else q

/-- What a mode command does at Te, and the status it completes with; a standby follows its active (R63, R82, R388). -/
def modeEffect (a : ModeAction) (s : State) : Nat × State :=
  match a with
  | .arm =>
    if s.ctl.mode == .held then (6, s)
    else if s.ctl.mode != .stop then (0, s)
    else if !s.project.loaded then (0x10, s)
    else if s.ctl.armed then (0, s) else (0, setMode .stop 1 0 (fieldArm s))
  | .disarm => if s.ctl.mode == .held then (6, s) else (0, disarmNow 1 s)
  | .stop => if s.ctl.mode == .held then (6, s) else (0, enterStop false 1 0 s)
  | .run kind => if s.red.role != .standby && runRefusal s kind ≠ 0 then (runRefusal s kind, s) else (0, startRun kind s)
  | .restart cause => (0, restartNow cause s)

/-- The waiting command whose instant comes first. -/
def nextEffect (s : State) : Option ModeWait :=
  minBy (fun w => (w.ready.getD 0).toNat) (s.ctl.waits.filter (fun w => w.ready.isSome))

/-- MODE_EFFECT: the waiting mode command takes effect at its boundary, before anything else of that boundary; not while SET = 0 or after a power loss (R64, R80). -/
def execModeEffect (s : State) : Out :=
  match nextEffect s with
  | none => ok s
  | some w =>
    let n := nextBoundary s.clock
    if !s.clock.set || s.power.loss.isSome || s.power.inReset.isSome || effectBoundary s (w.ready.getD 0) != n then ok s
    else
      let q := modCtl (fun c => { c with waits := dropFirst (fun x => x == w) c.waits }) (untilT (n * 31250) s)
      let r := modeEffect w.action q
      ok (forEach allStalls sleepIfHeld (finishBusy w.ring r.1 0 0 r.2))

/-! ### The mode commands (R63, R351, R388) -/

/-- A mode command: BAD_DESC, then BAD_STATE on a standby or in HELD (R63, R349, R388). -/
def modeCommand (c : Cmd) (clean : Bool) (f : State → State) (s : State) : State :=
  if !clean then finish c 2 0 0 s
  else notOnStandby c (fun q => if q.ctl.mode == .held then finish c 6 0 0 q else f q) s

/-- ARM: OK at once in RUN and HOLD, NO_PROJECT without a project, else at Te (R63, R64). -/
def execArm (ring : Fin 16) (s : State) : Out :=
  onRing ring.val 0x08 s (fun c q => modeCommand c (reservedZero c []) (fun q =>
    if q.ctl.mode != .stop then finish c 0 0 0 q
    else if !q.project.loaded then finish c 0x10 0 0 q
    else waitMode c.ring .arm (accept c q)) q)

/-- DISARM (R63, R64). -/
def execDisarm (ring : Fin 16) (s : State) : Out :=
  onRing ring.val 0x09 s (fun c q => modeCommand c (reservedZero c []) (fun q => waitMode c.ring .disarm (accept c q)) q)

/-- The start kind of RUN's operand (R82, R351). -/
def startKind (v : Nat) : Option StartKind :=
  match v with
  | 0 => some .cold
  | 1 => some .warm
  | 2 => some .resume
  | _ => none

/-- RUN: refused under R63 and R82, else every Stall with a task is woken and Te follows (R20, R64). -/
def execRunCommand (ring : Fin 16) (s : State) : Out :=
  onRing ring.val 0x0A s (fun c q =>
    match startKind (bits (opnd c 1) 1 0) with
    | none => finish c 2 0 0 q
    | some kind => modeCommand c (reservedZero c [lowMask 2]) (fun q =>
        if runRefusal q kind ≠ 0 then finish c (runRefusal q kind) 0 0 q
        else waitRun c.ring kind (accept c q)) q)

/-- STOP: OK at once in STOP, else at Te (R63, R64). -/
def execStopCommand (ring : Fin 16) (s : State) : Out :=
  onRing ring.val 0x0B s (fun c q => modeCommand c (reservedZero c []) (fun q =>
    if q.ctl.mode == .stop then finish c 0 0 0 q else waitMode c.ring .stop (accept c q)) q)

/-! ### Freezing (R68 to R71, R166) -/

/-- The Till of a task's frozen release. -/
def frozenTill (s : State) (id : TaskId) : Option TillId :=
  allTills.find? (fun t => isLive (tillAt s t) && (tillAt s t).rel.task == id && (tillAt s t).frozen.isSome)

/-- The pending release of a task under an OVERRUN fault with reaction HOLD is removed (R71). -/
def dropFrozenPending (id : TaskId) (s : State) : State :=
  modTask id (fun x => { x with freezeNext := none })
    (forEach allStalls (fun k q => modStall k (fun x => { x with pend := x.pend.filter (fun r => r.task != id) }) q) s)

/-- A frozen release resumes; one frozen by a fault is abandoned (R70, R71). -/
def continueRelease (id : TaskId) (s : State) : State :=
  match frozenTill s id with
  | some t =>
    (match (tillAt s t).frozen with
    | some f =>
      if f.fault then resumeIfThawed (abandon t s)
      else
        let q := modTill t (fun k => { k with frozen := none, stepping := false, passBreak := true }) s
        let q := if (tillAt q t).waiting then requestPosted t.stall id q else q
        resumeIfThawed q
    | none => s)
  | none => resumeIfThawed (dropFrozenPending id s)

/-- A frozen release executes one instruction (R70, R166). -/
def stepRelease (id : TaskId) (s : State) : State :=
  match frozenTill s id with
  | some t => modTill t (fun k => { k with stepping := true, passBreak := true }) s
  | none => s

/-- The task is frozen by a fault: STEP is refused (R71). -/
def frozenByFault (s : State) (id : TaskId) : Bool :=
  match frozenTill s id with
  | some t => (match (tillAt s t).frozen with
    | some f => f.fault
    | none => false)
  | none => true

/-- A command that names a task: BAD_DESC, BAD_TASK (R349, R353). -/
def taskCommand (c : Cmd) (clean : Bool) (f : TaskId → State → State) (s : State) : State :=
  let id : TaskId := BitVec.ofNat 7 (bits (opnd c 1) 6 0)
  if !clean then finish c 2 0 0 s
  else if (taskOf s id).isNone then finish c 7 0 0 s
  else f id s

/-- CONTINUE (R63, R70, R388). -/
def execContinueTask (ring : Fin 16) (s : State) : Out :=
  onRing ring.val 0x0C s (fun c q => modeCommand c (reservedZero c [lowMask 7]) (taskCommand c true (fun id q =>
    if !taskFrozen q id then finish c 0x16 0 0 q
    else finish c 0 0 0 (continueRelease id (forwardCmd 0 c [] q)))) q)

/-- STEP (R63, R70, R71, R388). -/
def execStepTask (ring : Fin 16) (s : State) : Out :=
  onRing ring.val 0x0D s (fun c q => modeCommand c (reservedZero c [lowMask 7]) (taskCommand c true (fun id q =>
    if !taskFrozen q id then finish c 0x16 0 0 q
    else if frozenByFault q id then finish c 0x15 0 0 q
    else finish c 0 0 0 (stepRelease id (forwardCmd 0 c [] q)))) q)

/-- An address is a multiple of 4 in a program-store range of the Stall that the project has loaded (R68). -/
def codeAddress (s : State) (k : StallId) (a : Nat) : Bool :=
  mult a 4 && s.project.code.any (fun g =>
    g.stall == k && decide ((codeRange g).1 ≤ a) && decide (a < (codeRange g).1 + (codeRange g).2))

/-- The slot of a breakpoint: the one that already names task and address, else the first empty one (R68). -/
def breakSlot (s : State) (k : StallId) (id : TaskId) (a : BitVec 20) : Option Nat :=
  match indexWhere (fun b => match b with
    | some x => x.task == id && x.addr == a
    | none => false) s.stalls[k].bps.toList with
  | some i => some i
  | none => indexWhere Option.isNone s.stalls[k].bps.toList

/-- A breakpoint set in a slot (R68). -/
def setBreak (k : StallId) (i : Nat) (id : TaskId) (a : BitVec 20) (all : Bool) (s : State) : State :=
  modStall k (fun x => { x with bps := vset x.bps i (some { task := id, addr := a, scopeAll := all }) }) s

/-- BREAK_SET (R68, R353, R388; log 45). -/
def execBreakSet (ring : Fin 16) (s : State) : Out :=
  onRing ring.val 0x0E s (fun c q =>
    if !reservedZero c [lowMask 28] then finish c 2 0 0 q
    else notOnStandby c (taskCommand c true (fun id q =>
      let a := bits (opnd c 1) 27 8
      let k := (entryOf q id).stall
      if !codeAddress q k a then finish c 3 0 0 q
      else match breakSlot q k id (BitVec.ofNat 20 a) with
      | none => finish c 0x17 0 0 q
      | some i => finish c 0 (field 0 i) 0 (setBreak k i id (BitVec.ofNat 20 a) (bit (opnd c 1) 7) (forwardCmd 0 c [] q)))) q)

/-- The breakpoints of a task at an address removed; the number says whether one was (R351). -/
def clearBreak (id : TaskId) (a : BitVec 20) (s : State) : Nat × State :=
  let k := (entryOf s id).stall
  let hit (b : Option Breakpoint) : Bool := match b with
    | some x => x.task == id && x.addr == a
    | none => false
  ((s.stalls[k].bps.toList.any hit).toNat,
    modStall k (fun x => { x with bps := x.bps.map (fun b => if hit b then none else b) }) s)

/-- BREAK_CLEAR (R68, R351, R388). -/
def execBreakClear (ring : Fin 16) (s : State) : Out :=
  onRing ring.val 0x0F s (fun c q =>
    if !reservedZero c [lowMask 28 &&& ~~~(0x80 : Word)] then finish c 2 0 0 q
    else notOnStandby c (taskCommand c true (fun id q =>
      let r := clearBreak id (BitVec.ofNat 20 (bits (opnd c 1) 27 8)) (forwardCmd 0 c [] q)
      finish c 0 (field 0 r.1) 0 r.2)) q)

/-! ### Task status (R73, R74, R354) -/

/-- STATE of R73. -/
def taskState (s : State) (x : Task) : Nat :=
  if x.stopped then 4
  else if taskFrozen s x.e.id then 3
  else if (liveTillOf s x.e.id).isSome then 2
  else if s.stalls[x.e.stall].pend.any (fun r => r.task == x.e.id) then 1 else 0

/-- The 64-byte record of TASK_STATUS (R73). -/
def taskRecord (s : State) (x : Task) : List Byte :=
  bytesOfWords [
    field 0 x.e.id.toNat ||| field 7 (taskState s x) ||| flag 10 (x.run != 0) ||| field 32 x.ovrcnt,
    field 0 x.relcnt, field 0 x.commitcnt, field 0 x.hskip ||| field 32 x.faultcnt, field 0 x.lastexec ||| field 32 x.maxexec,
    x.lastcommit, field 0 x.lastdisp ||| field 32 x.maxdisp, 0]

/-- TASK_STATUS (R73, R351). -/
def execTaskStatus (ring : Fin 16) (s : State) : Out :=
  onRing ring.val 0x10 s (fun c q =>
    dataCommand c (reservedZero c [lowMask 7, BitVec.allOnes 64] && mult (opnd c 2).toNat 64) (fun q =>
      match taskOf q (BitVec.ofNat 7 (bits (opnd c 1) 6 0)) with
      | none => finish c 7 0 0 q
      | some x => giveBytes c (opnd c 2) (taskRecord q x) 0 0 q) q)

/-- TASK_CLEAR: OVRCNT, HSKIP, FAULTCNT, MAXEXEC and MAXDISP become 0 (R74). -/
def execTaskClear (ring : Fin 16) (s : State) : Out :=
  onRing ring.val 0x11 s (fun c q => taskCommand c (reservedZero c [lowMask 7]) (fun id q =>
    finish c 0 0 0 (modTask id (fun x => { x with ovrcnt := 0, hskip := 0, faultcnt := 0, maxexec := 0, maxdisp := 0 }) q)) q)

/-- The DBG_STATE record of a frozen task; one that is to freeze at its next release shows its ENTRY (R71, R354; log 45). -/
def debugRecord (s : State) (x : Task) : List Byte :=
  let k := x.e.stall
  let v : Nat × Nat × Option Nat × Vector Word 32 := match frozenTill s x.e.id with
    | some t =>
      let u := tillAt s t
      let cause := match u.frozen with
        | some f => if f.fault then f.cause else 0
        | none => 0
      (u.pc.toNat, cause, u.resv, u.regs)
    | none => (x.e.entry, 16, none, startRegs x.e)
  fitBytes 320 (bytesOfWords ([
    field 0 v.1 ||| field 24 v.2.1 ||| field 32 (natOfBytes (readBytes s (progBase k.val + v.1) 4)),
    field 0 x.e.id.toNat ||| field 7 (taskState s x) ||| field 10 k.val,
    field 0 (v.2.2.1.getD 0), flag 0 v.2.2.1.isSome, 0, 0, 0, 0] ++ v.2.2.2.toList))

/-- DBG_STATE: NOT_FROZEN for a task that is not frozen (R351, R353, R354). -/
def execDbgState (ring : Fin 16) (s : State) : Out :=
  onRing ring.val 0x12 s (fun c q =>
    dataCommand c (reservedZero c [lowMask 7, BitVec.allOnes 64] && mult (opnd c 2).toNat 64) (fun q =>
      match taskOf q (BitVec.ofNat 7 (bits (opnd c 1) 6 0)) with
      | none => finish c 7 0 0 q
      | some x => if !taskFrozen q x.e.id then finish c 0x16 0 0 q else giveBytes c (opnd c 2) (debugRecord q x) 0 0 q) q)

end Sys2Proof.Machine
end

