-- ==== Sys2Proof/Machine/Rings.lean ====
section
/-!
DEFINITION. The ring engine: polls of the doorbell page, descriptor fetches, the begin of commands, their completion, ring halts, the event backlog, interrupt moderation, and resets of the host interface (R337 to R363).
-/
namespace Sys2Proof.Machine

/-! ### Halts (R350, R361) -/

/-- A command ring halts: unbegun descriptors are discarded (R350). -/
def ringHalt (n cause : Nat) (s : State) : State :=
  if (cmdRing s n).halt then s
  else
    let q := modRing n (fun r => { r with halt := true, hcause := cause, fetched := [], fetching := none, notOwned := none }) s
    errorVector (raise q 0x0600 2 (field 0 n) (field 0 cause))

/-- A completion ring or the event ring halts with INDEX_RANGE (R341, R361). -/
def outHalt (n : Nat) (s : State) : State :=
  if (outRing s n).halt then s
  else errorVector (raise (modOut n (fun r => { r with halt := true }) s) 0x0600 2 (field 0 (16 + n)) (field 0 1))

/-- A command ring is enabled and not halted (R350, R359). -/
def ringLive (s : State) (n : Nat) : Bool := bit (cmdRing s n).cfg 0 && !(cmdRing s n).halt

/-! ### Fetching (R343, R344, R347) -/

/-- The poll timer is restarted and a poll read leaves (R343, R344). -/
def issuePoll (s : State) : State :=
  let q := post [.read ((s.host.dbbase.toNat / 4096) * 4096) 512] s
  { q with host := { q.host with pollOut := true, nudged := false, lastPoll := some s.mono } }

/-- Polling runs: RNG.CTL.EN = 1 and requests may be issued (R337, R344). -/
def polls (s : State) : Bool := bit s.host.ctl 0 && canReq s

/-- A fetch of the next descriptors of a ring leaves: at most 8, and none past the end of the ring (R347). `again` also fetches a descriptor that was not owned. -/
def fetchMore (again : Bool) (n : Nat) (s : State) : State :=
  let r := cmdRing s n
  let start := (r.cons + r.fetched.length) % 65536
  let have_ := ringUsed r.prod start
  let size := ringSize r.cfg
  let count := min (min 8 have_) (size - start % size)
  if !polls s || !ringLive s n || r.fetching.isSome || 8 ≤ r.fetched.length || count = 0 || (r.notOwned.isSome && !again) then s
  else
    modRing n (fun r => { r with fetching := some (start, count) })
      (post [.read (entryAddr r.base r.cfg start) (64 * count)] s)

/-- DOORBELL_POLL: the poll timer issues a read of the doorbell page (R344). -/
def execDoorbellPoll (s : State) : Out :=
  if !polls s || s.host.pollOut then ok s
  else
    let due := match s.host.lastPoll with
      | some t => t + s.host.dbper * 1000
      | none => s.mono
    ok (issuePoll (untilMono due s))

/-- A poll at once, or one further poll when the outstanding one returns (R344). -/
def nudge (s : State) : State :=
  if !polls s then s
  else if s.host.pollOut then { s with host := { s.host with nudged := true } }
  else issuePoll s

/-- RNG_NUDGE: any write forces a poll (R344, R358). -/
def execRngNudge (_val : Word) (s : State) : Out := ok (nudge s)

/-- The producer index of a command ring from a poll (R341, R343). -/
def takeProd (n : Nat) (p : Nat) (s : State) : State :=
  let r := cmdRing s n
  if !ringLive s n then s
  else if ringSize r.cfg < ringUsed p r.cons then ringHalt n 1 s
  else modRing n (fun r => { r with prod := p }) s

/-- The consumer index of a completion ring or the event ring from a poll (R341, R343). -/
def takeCons (n : Nat) (c : Nat) (s : State) : State :=
  let r := outRing s n
  if !bit r.cfg 0 || r.halt then s
  else if ringSize r.cfg < ringUsed r.prod c then outHalt n s
  else modOut n (fun r => { r with cons := c }) s

/-! ### Begin (R346, R347, R349, R350) -/

/-- Opcodes that the N9 defines (R351, R405, R437, R467, R519). -/
def opcodeDefined (op : Nat) : Bool :=
  [0x00, 0x01, 0x02, 0x03, 0x08, 0x09, 0x0A, 0x0B, 0x0C, 0x0D, 0x0E, 0x0F, 0x10, 0x11, 0x12, 0x18, 0x19, 0x1A, 0x1B, 0x1C,
   0x20, 0x21, 0x22, 0x28, 0x30, 0x31, 0x38, 0x39].contains op ||
  [0x40, 0x41, 0x42, 0x43, 0x44, 0x45, 0x46, 0x48, 0x49, 0x50, 0x51, 0x60, 0x61, 0x62, 0x68, 0x69, 0x6A, 0x70, 0x74, 0x75,
   0x76, 0x77, 0x80, 0x90, 0x91, 0x92, 0x93].contains op

/-- DMA_COPY and DMA_WRITE (R347, R364). -/
def isDma (op : Nat) : Bool := op == 2 || op == 3

/-- A handed-off command (R347). -/
def isHanded (op : Nat) : Bool := isDma op || op == 0x38

/-- The channel of a DMA descriptor (R351, R364). -/
def descChan (s : State) (d : Desc) : Nat :=
  let w3 := d.w[3]
  let c := if bits d.w[0] 7 0 = 2 then bits w3 39 36 else bits w3 9 6
  if c = 15 then freestChan s else c

/-- A finished command of the ring whose completion has not been handed over. -/
def undelivered (s : State) (n : Nat) (p : Nat → Bool) : Bool :=
  s.host.finished.any (fun d => d.cmd.ring == n && p d.cmd.opcode)

/-- The completion ring of a command ring (R359). -/
def cqOf (r : CmdRing) : Nat := bits r.cfg 8 5

/-- The ring's order lets the descriptor begin now (R347 rules 2 to 4, R364). -/
def orderAllows (s : State) (n : Nat) (d : Desc) : Bool :=
  let r := cmdRing s n
  let op := bits d.w[0] 7 0
  r.cur.isNone && !undelivered s n (fun o => o == 1) &&
    (if isHanded op then !isDma op || decide ((chanAt s (descChan s d)).queue.length < 64)
     else op == 1 || (r.busy.isNone && !undelivered s n (fun o => !isHanded o)))

/-- The completion ring of a command that wants an entry: 0 it is disabled, 1 it has no free slot or is halted, 2 a slot is free (R347 rule 6, R350, R361). -/
def slotState (s : State) (n : Nat) (d : Desc) : Nat :=
  if bit d.w[0] 8 then 2
  else
    let q := outRing s (cqOf (cmdRing s n))
    if !bit q.cfg 0 then 0
    else if q.halt || ringSize q.cfg ≤ ringUsed q.prod q.cons + q.reserved then 1 else 2

/-- The ring may take a turn: its next descriptor may begin, or halts the ring (R347, R350). -/
def mayTurn (s : State) (n : Nat) : Bool :=
  ringLive s n && (match (cmdRing s n).fetched with
    | d :: _ => orderAllows s n d && slotState s n d != 1
    | [] => false)

/-- The command of a descriptor (R346). -/
def cmdOf (n : Nat) (d : Desc) : Cmd :=
  { ring := n, idx := d.idx, opcode := bits d.w[0] 7 0, nocq := bit d.w[0] 8, tag := bits d.w[0] 63 32,
    w := #v[d.w[1], d.w[2], d.w[3], d.w[4], d.w[5]] }

/-- The header and the OWN word hold no reserved bit (R346, R349). -/
def headerClean (d : Desc) : Bool := bits d.w[0] 31 9 == 0 && bits d.w[7] 62 0 == 0

/-- A ring's turn: its next command is begun, or the ring halts with CQ_DISABLED (R346 to R350). -/
def takeTurn (n : Nat) (s : State) : State :=
  match (cmdRing s n).fetched with
  | [] => s
  | d :: rest =>
    if slotState s n d = 0 then ringHalt n 4 s
    else
      let c := cmdOf n d
      let q := { s with host := { s.host with turn := (n + 1) % 16 } }
      let q := modRing n (fun r => { r with fetched := rest, cons := (r.cons + 1) % 65536, cur := some c }) q
      let q := if c.nocq then q else modOut (cqOf (cmdRing s n)) (fun r => { r with reserved := r.reserved + 1 }) q
      if !opcodeDefined c.opcode then finish c 1 0 0 q
      else if !headerClean d then finish c 2 0 0 q
      else q

/-- The ring whose turn it is: lowest PRIO, then in turn (R347 rule 5). -/
def nextRing (s : State) : Option Nat :=
  minBy (fun n => bits (cmdRing s n).cfg 10 9 * 16 + (n + 16 - s.host.turn) % 16) ((List.range 16).filter (mayTurn s))

/-- Commands are begun until none may be; from Tpf on none is begun (R347, R526). -/
def beginLoop : Nat → State → State
  | 0, s => s
  | fuel + 1, s =>
    if !bit s.host.ctl 0 || s.power.loss.isSome then s
    else match nextRing s with
    | some n => beginLoop fuel (takeTurn n s)
    | none => s

/-- Commands are begun, and further descriptors are fetched (R347). -/
def serveRings (s : State) : State := forEach (List.range 16) (fun n q => fetchMore false n q) (beginLoop 256 s)

/-- POLL_DATA_ARRIVAL: indices are taken, and descriptors of new producer ranges are fetched; a failed poll is repeated at the next one (R341, R343, R344, R347, R350, R370). -/
def execPollDataArrival (ok_ : Bool) (data : List Byte) (s : State) : Out :=
  if !s.host.pollOut then ok s
  else
    let q := { s with host := { s.host with pollOut := false } }
    let q := if !ok_ then q else
      let idx (o : Nat) : Nat := bits (wordAt data o) 15 0
      let q := ringMoved 512 q
      let q := { q with host := { q.host with polls := (q.host.polls + 1) % 2 ^ 64, lastGood := q.mono, hostLost := false } }
      let q := forEach (List.range 16) (fun n q => takeProd n (idx (8 * n)) q) q
      let q := forEach (List.range 16) (fun n q => takeCons n (idx (128 + 8 * n)) q) q
      let q := takeCons 16 (idx 256) q
      serveRings (forEach (List.range 16) (fun n q => fetchMore true n q) q)
    let again := q.host.nudged || (match q.host.lastPoll with
      | some t => decide (t + q.host.dbper * 1000 ≤ q.mono)
      | none => false)
    ok (if again && polls q then issuePoll q else q)

/-- The descriptors of a fetch (R346). -/
def descsOf (start count : Nat) (data : List Byte) : List Desc :=
  (List.range count).map (fun i =>
    { idx := (start + i) % 65536, w := Vector.ofFn (fun (k : Fin 8) => wordAt data (64 * i + 8 * k.val)) })

/-- DESCRIPTOR_ARRIVAL: owned descriptors join the ring's list and are begun in order; the first not owned is fetched again at the following polls (R346, R347, R349, R350). -/
def execDescriptorArrival (ring : Fin 16) (ok_ : Bool) (data : List Byte) (s : State) : Out :=
  let n := ring.val
  match (cmdRing s n).fetching with
  | none => ok s
  | some (start, count) =>
    if !ok_ then ok (ringHalt n 3 s)
    else
      let ds := descsOf start count data
      let own := ds.takeWhile (fun d => bit d.w[7] 63)
      let q := modRing n (fun r => { r with
        fetching := none, fetched := r.fetched ++ own
        notOwned := if own.length = count then none
                    else if own.isEmpty then (match r.notOwned with
                      | some t => some t
                      | none => some s.mono)
                    else some s.mono }) (ringMoved (64 * count) s)
      ok (serveRings q)

/-- OWN_TIMEOUT: a descriptor still owned by the host 1 ms after its first fetch halts the ring (R350). -/
def execOwnTimeout (ring : Fin 16) (s : State) : Out :=
  match (cmdRing s ring.val).notOwned with
  | some t => ok (ringHalt ring.val 2 (untilMono (t + 1000000) s))
  | none => ok s

/-! ### Completion (R348, R354) -/

/-- The first finished command of a ring. -/
def firstDone (s : State) (n : Nat) : Option Done := s.host.finished.find? (fun d => d.cmd.ring == n)

/-- COMMAND_COMPLETION: write-back of status and result, then OWN = 0, then the completion entry and its message; a failing write halts the ring (R348, R350, R354, R357). -/
def execCommandCompletion (ring : Fin 16) (fail : Bool) (s : State) : Out :=
  let n := ring.val
  match firstDone s n with
  | none => ok s
  | some d =>
    if !canReq s then ok s
    else
      let r := cmdRing s n
      let cq := cqOf r
      let q := { s with host := { s.host with finished := dropFirst (fun x => x.cmd.ring == n) s.host.finished } }
      let q := if d.cmd.nocq then q else modOut cq (fun x => { x with reserved := x.reserved - 1 }) q
      if fail then ok (serveRings (ringHalt n 3 q))
      else
        let a := entryAddr r.base r.cfg d.cmd.idx
        let q := post [.write (a + 48) (bytesOfWord (field 0 d.status ||| field 16 (d.result0.toNat % 2 ^ 32))),
                       .write (a + 56) (bytesOfWord 0)] (ringMoved 16 q)
        let q := if d.cmd.nocq || !bit (outRing q cq).cfg 0 || (outRing q cq).halt then q
          else writeEntry cq [field 0 d.cmd.opcode ||| field 8 n ||| field 16 d.cmd.idx ||| field 32 d.cmd.tag,
                 field 0 d.status, d.result0, d.result1, localT q, 0, 0] q
        ok (serveRings q)

/-! ### The event ring (R356, R357) -/

/-- EVENT_BACKLOG_WRITE: the oldest backlogged event is written when a slot is free; after the last one, dropped events are reported (R356). -/
def execEventBacklogWrite (s : State) : Out :=
  match s.host.backlog with
  | [] => ok s
  | e :: rest =>
    if !outReady s 16 then ok s
    else
      let q := writeEntry 16 (eventWords e) { s with host := { s.host with backlog := rest } }
      if rest.isEmpty && 0 < q.host.droppedSince then
        ok (raise { q with host := { q.host with droppedSince := 0 } } 0x0002 1 (field 0 q.host.droppedSince)
          (field 0 q.host.firstDropped))
      else ok q

/-- INTERRUPT_MODERATION: IMOD us after the last message one message announces the waiting entries (R357). -/
def execInterruptModeration (ring : Fin 17) (s : State) : Out :=
  let n := ring.val
  let r := outRing s n
  match r.announce, r.lastMsg with
  | true, some t =>
    let q := untilMono (t + bits r.cfg 20 11 * 1000) s
    ok (sendMsix (bits r.cfg 10 5) (modOut n (fun x => { x with announce := false, lastMsg := some q.mono }) q))
  | _, _ => ok s

/-- HOST_LOST: HOSTTMO ms without a successful poll (R358, R461). -/
def execHostLost (s : State) : Out :=
  let tmo := bits s.host.ctl 22 7
  if tmo = 0 || s.host.hostLost then ok s
  else
    let q := untilMono (s.host.lastGood + tmo * 1000000) s
    ok (raise { q with host := { q.host with hostLost := true } } 0x0004 1 (field 0 tmo))

/-! ### Resets of the host side (R335, R337, R339) -/

/-- HOST_RESET: configuration space, RNG and DMA registers at reset, begun commands lose their completions, armed buffers are discarded, and events wait in the backlog (R339, R363). -/
def execHostReset (s : State) : Out :=
  let h := s.host
  let q := if s.dma.burstOn then purseReturn 7 5 s else s
  let q := purseDrop 7 0 q
  ok { q with
    ctl := { q.ctl with waits := q.ctl.waits.map (fun w => { w with ring := 16 }) }
    rtc := { q.rtc with writeRing := none }
    recorder := { q.recorder with flushRing := none }
    change := q.change.map (fun c => { c with ring := 16 })
    red := { q.red with forming := q.red.forming.map (fun f => (16, f.2)) }
    nvs := { q.nvs with live := q.nvs.live.map (fun l => { l with ring := 16 }) }
    host := { HostIf.reset with
      evSeq := h.evSeq, backlog := h.backlog, droppedSince := h.droppedSince, firstDropped := h.firstDropped
      posted := h.posted, lastGood := q.mono }
    dma := { Dma.reset with levelAt := q.mono }
    markets := q.markets.map (fun k => { k with queue := k.queue.filter (fun x => match x.kind with
      | .dma _ => false
      | _ => true) }) }

/-- The host address of a channel's next request, or 0 where it has none. -/
def nextHostAddr (s : State) (n : Nat) : Nat × Bool :=
  match (match (chanAt s n).active with
    | some c => some c
    | none => (chanAt s n).queue.head?) with
  | some c =>
    if !c.srcSys && c.val.isNone then (c.src + burstOff c, false)
    else if !c.dstSys then (c.dst + burstOff c, true) else (0, false)
  | none => (0, false)

/-- BUS_MASTER_DISABLE: Bus Master Enable cleared, or D3hot: no request leaves, polling stops, every channel halts with BME_OFF, and a ring with a fetch outstanding halts (R337, R370). -/
def execBusMasterDisable (d3 : Bool) (s : State) : Out :=
  let h := s.host
  let q := { s with host := { h with
    bme := if d3 then h.bme else false, d3 := h.d3 || d3, pollOut := false, nudged := false } }
  let q := forEach (List.range 7) (fun n q =>
    if (chanAt q n).halted then q
    else
      let a := nextHostAddr q n
      chanHalt n 7 a.2 false a.1 q) q
  ok (forEach (List.range 16) (fun n q => if (cmdRing q n).fetching.isSome then ringHalt n 3 q else q) q)

/-- BUS_MASTER_ENABLE: the host sets Bus Master Enable again, or returns the function to D0 (R337). -/
def execBusMasterEnable (d0 : Bool) (s : State) : Out :=
  let h := s.host
  let q := { s with host := { h with bme := h.bme || !d0, d3 := if d0 then false else h.d3 } }
  ok (serveRings q)

/-- BAR0_INVALID_ACCESS: a read is completed with Unsupported Request and a write discarded, both reported (R335, R435). -/
def execBar0InvalidAccess (write : Bool) (off : BitVec 18) (s : State) : Out := ok (accessError true 0 write off.toNat s)

/-! ### The DMA engine's rows (R365, R370) -/

/-- DMA_BURST: the engine moves one burst of the ready channel it picks (R365 to R369). `data` is what host memory holds at the source. -/
def execDmaBurst (data : List Byte) (s : State) : Out :=
  if !s.dma.en then ok s
  else match pickChan s with
  | some n => ok (serveRings (burstStart n data s))
  | none => ok s

/-- A request for the data of another command fails: its channel halts, and the command that began its transfer on the lowest-numbered ring completes with BUS_ERROR (R364, R370; log 19). -/
def dataFailure (n cause : Nat) (dest : Bool) (s : State) : State :=
  let hit := (List.range 16).filterMap (fun k => match (cmdRing s k).cur with
    | some c => (dataOperand n c.opcode dest).map (fun i => (c, i))
    | none => none)
  match hit with
  | (c, i) :: _ => finish c 4 0 0 (chanHalt n cause dest false (opnd c i).toNat s)
  | [] => s

/-- DMA_REQUEST_FAILURE: a failing request halts its channel; for channel 7 it halts the ring concerned, and a failed poll is repeated at the next poll (R350, R370). -/
def execDmaRequestFailure (chan : Fin 8) (cause : BitVec 3) (dest : Bool) (s : State) : Out :=
  let n := chan.val
  if n = 7 then
    match (List.range 16).find? (fun k => (cmdRing s k).fetching.isSome) with
    | some k => ok (ringHalt k 3 s)
    | none => ok { s with host := { s.host with pollOut := false } }
  else if cause = 0 || cause = 5 || cause = 6 || cause = 7 then ok s
  else
    match chanNext s n with
    | none => ok (if chanTaken s n || dmaOff s || !canReq s then s else dataFailure n cause.toNat dest s)
    | some c =>
      let host := if dest then !c.dstSys else !c.srcSys && c.val.isNone
      if !host then ok s
      else
        let q := modChan n (fun x => if x.active.isNone then { x with active := some c, queue := x.queue.drop 1 } else x) s
        ok (serveRings (chanHalt n cause.toNat dest false (if dest then c.dst + burstOff c else c.src + burstOff c) q))

end Sys2Proof.Machine
end

