-- ==== Sys2Proof/Machine/Commands.lean ====
section
/-!
DEFINITION. Ring commands that need nothing but the rings and the DMA engine: NOP, FENCE, DMA_COPY, DMA_WRITE, the mailboxes with the service SEND_BLOCK, and the service WDG_CHECKIN (R36, R39, R351, R362 to R371, R412).
-/
namespace Sys2Proof.Machine

/-- NOP of a ring (R351). -/
def execNopCommand (ring : Fin 16) (s : State) : Out :=
  onRing ring.val 0x00 s (fun c q => if !reservedZero c [] then finish c 2 0 0 q else finish c 0 0 0 q)

/-! ### FENCE (R36, R39) -/

/-- Ordering classes that a system range belongs to: image banks bit 0, Market memory bit 1, motion memory bit 2 (R36). -/
def classOf (a : Nat) : Nat :=
  match locate a with
  | some (.image _, _) => 1
  | some (.market _, _) => 2
  | some (.motion _, _) => 4
  | _ => 0

/-- Classes that a DMA command accesses (R36). -/
def dmaClasses (c : DmaCmd) : Nat :=
  (if c.val.isSome then 0 else if c.srcSys then classOf c.src else 16) ||| (if c.dstSys then classOf c.dst else 16)

/-- A DMA command of the ring that touches a class of the mask is still in progress. -/
def dmaPending (s : State) (ring mask : Nat) : Bool :=
  s.dma.chans.toList.any (fun ch => (ch.active.toList ++ ch.queue).any (fun x => x.cmd.ring == ring && dmaClasses x &&& mask != 0))

/-- What a FENCE descriptor still waits for: the ring's commands placed before it (R39). -/
def ringFenceWaits (s : State) (ring mask : Nat) : Bool :=
  (mask != 0 && (cmdRing s ring).busy.isSome) || dmaPending s ring mask

/-- FENCE of a ring: it completes once every earlier command of the ring has performed its accesses in the named classes (R39, R351). -/
def execFenceDescriptor (ring : Fin 16) (s : State) : Out :=
  onRing ring.val 0x01 s (fun c q =>
    let mask := bits (opnd c 1) 5 0
    if !reservedZero c [lowMask 6] then finish c 2 0 0 q
    else if ringFenceWaits q ring.val mask then q
    else finish c 0 0 0 q)

/-! ### DMA commands (R351, R364 to R366, R371, R388) -/

/-- A system address in an operand has bits [63..40] zero (R351). -/
def sysAddrClean (sys : Bool) (a : Word) : Bool := !sys || bits a 63 40 == 0

/-- One range of a DMA command passes the check at its begin (R366). -/
def rangeOk (s : State) (sys : Bool) (a : Word) (n : Nat) (write : Bool) : Bool :=
  if sys then sysRangeOk s a.toNat n write else hostRangeOk a n

/-- A checked DMA command joins its channel and is handed off (R347, R364, R366). -/
def queueDma (c : Cmd) (chan : Nat) (d : DmaCmd) (s : State) : State :=
  let n := if chan = 15 then freestChan s else chan
  let srcOk := d.val.isSome || rangeOk s d.srcSys (field 0 d.src) d.len false
  if !srcOk || !rangeOk s d.dstSys (field 0 d.dst) d.len true then finish c 3 0 0 s
  else serveRings (handOff c (modChan n (fun x => { x with queue := x.queue ++ [d] }) s))

/-- The checks before a DMA command is queued: BAD_DESC, ABORTED while EN = 0, BAD_STATE on a standby with a system destination (R349, R371, R388). -/
def dmaCommand (c : Cmd) (clean : Bool) (chan : Nat) (d : DmaCmd) (s : State) : State :=
  if !clean then finish c 2 0 0 s
  else if dmaOff s then finish c 5 0 0 s
  else if d.dstSys then notOnStandby c (queueDma c chan d) s
  else queueDma c chan d s

/-- A CHAN value (R351). -/
def chanGood (n : Nat) : Bool := decide (n ≤ 5) || n == 15

/-- DMA_COPY (R351, R364 to R367). -/
def execDmaCopy (ring : Fin 16) (s : State) : Out :=
  onRing ring.val 0x02 s (fun c q =>
    let w := opnd c 3
    let len := bits w 31 0
    let srcSys := bits w 33 32 == 1
    let dstSys := bits w 35 34 == 1
    dmaCommand c
      (reservedZero c [BitVec.allOnes 64, BitVec.allOnes 64, lowMask 40] && decide (1 ≤ len) && decide (len ≤ 16777216) &&
        decide (bits w 33 32 ≤ 1) && decide (bits w 35 34 ≤ 1) && chanGood (bits w 39 36) &&
        sysAddrClean srcSys (opnd c 1) && sysAddrClean dstSys (opnd c 2))
      (bits w 39 36)
      { cmd := c, src := (opnd c 1).toNat, dst := (opnd c 2).toNat, len := len, srcSys := srcSys, dstSys := dstSys,
        val := none, done := 0 } q)

/-- DMA_WRITE: 1, 2, 4 or 8 bytes at an aligned destination (R351, R364). -/
def execDmaWrite (ring : Fin 16) (s : State) : Out :=
  onRing ring.val 0x03 s (fun c q =>
    let w := opnd c 3
    let n := bits w 3 0
    let dstSys := bits w 5 4 == 1
    dmaCommand c
      (reservedZero c [BitVec.allOnes 64, BitVec.allOnes 64, lowMask 10] && (n == 1 || n == 2 || n == 4 || n == 8) &&
        decide (bits w 5 4 ≤ 1) && chanGood (bits w 9 6) && sysAddrClean dstSys (opnd c 1) && mult (opnd c 1).toNat n)
      (bits w 9 6)
      { cmd := c, src := 0, dst := (opnd c 1).toNat, len := n, srcSys := false, dstSys := dstSys,
        val := some (bytesOfNat n (opnd c 2).toNat), done := 0 } q)

/-! ### Mailboxes (R362, R363) -/

/-- One mailbox changed. -/
def modMailbox (n : Nat) (f : List Armed → List Armed) (s : State) : State :=
  { s with host := { s.host with mailboxes := vmod s.host.mailboxes n f } }

/-- BLOCK_ARM: a buffer is armed, the command is handed off; MAILBOX_FULL at the seventeenth (R347, R351, R353, R363). -/
def execBlockArm (ring : Fin 16) (s : State) : Out :=
  onRing ring.val 0x38 s (fun c q =>
    let len := bits (opnd c 2) 31 0
    let k := bits (opnd c 2) 37 32
    if !reservedZero c [BitVec.allOnes 64, lowMask 38] then finish c 2 0 0 q
    else if !hostRangeOk (opnd c 1) len then finish c 3 0 0 q
    else if 16 ≤ (vget q.host.mailboxes k []).length then finish c 8 0 0 q
    else serveRings (handOff c (modMailbox k (fun l => l ++ [{ cmd := c, addr := opnd c 1, len := len }]) q)))

/-- BLOCK_CANCEL: every armed buffer of the mailbox completes with ABORTED (R351, R363). -/
def execBlockCancel (ring : Fin 16) (s : State) : Out :=
  onRing ring.val 0x39 s (fun c q =>
    let k := bits (opnd c 1) 5 0
    if !reservedZero c [lowMask 6] then finish c 2 0 0 q
    else
      let l := vget q.host.mailboxes k []
      let q := forEach l (fun a q => finish a.cmd 5 0 0 q) (modMailbox k (fun _ => []) q)
      finish c 0 (field 0 l.length) 0 q)

/-- A service transfer may run on channel 6 (R364, R370, R371). -/
def serviceChan (s : State) : Bool := s.dma.en && !(chanAt s 6).halted

/-- SEND_BLOCK: a task's block goes to the oldest armed buffer of its mailbox, and the result is written last (R362, R363). -/
def execSendBlock (m : MarketId) (s : State) : Out :=
  if !serviceChan s then ok s
  else
    onService m 1 s (fun r q =>
      let answer (code : Nat) (q : State) : State :=
        served r (writeResult r 24 [(16, field 0 r.ticket.toNat ||| field 32 code)] q)
      let b := reqBlock r 24 q
      match b.1 with
      | none => answer 3 b.2
      | some (_, l) =>
        let w := wordAt l 8
        let len := bits w 16 0
        let k := bits w 22 17
        if bits w 63 23 != 0 || len < 8 || 65536 < len || !mult len 8 then answer 3 b.2
        else match marketRange r (wordAt l 0).toNat len with
        | none => answer 3 b.2
        | some a =>
          let x := loadMem a len b.2
          match x.1 with
          | none => answer 3 x.2
          | some bs =>
            let q := x.2
            match vget q.host.mailboxes k [] with
            | [] => answer 1 q
            | buf :: rest =>
              if buf.len < len then answer 2 (finish buf.cmd 2 0 0 (modMailbox k (fun _ => rest) q))
              else if !canReq q then chanHalt 6 7 true false buf.addr.toNat q
              else
                let q := chanBytes 6 len (hostWrite buf.addr.toNat bs (modMailbox k (fun _ => rest) q))
                answer 0 (finish buf.cmd 0 (field 0 len)
                  (field 0 r.ticket.toNat ||| field 32 r.task.toNat ||| field 39 r.stall.val) q))

/-- WDG_CHECKIN_SERVICE: a task's check-in at the watchdog (R412, R580). -/
def execWdgCheckinService (m : MarketId) (s : State) : Out :=
  onService m 3 s (fun r q => served r (checkIn (bits r.arg 4 0) r.task.toNat q))

end Sys2Proof.Machine
end

