-- ==== Sys2Proof/Machine/RegWrite.lean ====
section
/-!
DEFINITION. Writes to BAR0 registers: the blocks DMA, RNG with its rings and the MSI-X table, RED, MKTn, STL and SYS, and the route from an offset to its block (R115, R118, R175, R335, R341, R357 to R361, R368 to R372, R381, R406, R408, R540 to R551).
-/
namespace Sys2Proof.Machine

/-! ### The DMA block (R368, R370 to R372) -/

/-- A write of DMA.CTL: EN = 0 stops the channels, BURST asks for or returns its tokens (R368, R371). -/
def writeDmaCtl (v : Word) (s : State) : State :=
  let q := if s.dma.en && !bit v 0 then dmaStop s else s
  let q := { q with dma := { q.dma with en := bit v 0, burst := bit v 1 } }
  if bit v 1 then
    (if s.dma.burstOn || s.purse.waiting.any (fun r => r.src == 7) then q else purseAsk 7 5 0 q)
  else
    let q := purseDrop 7 0 (if q.dma.burstOn then purseReturn 7 5 q else q)
    { q with dma := { q.dma with burstOn := false } }

/-- RESUME of a halted channel: its queued commands run (R370). -/
def chanResume (n : Nat) (s : State) : State := modChan n (fun c => { c with halted := false }) s

/-- Ring commands that wait for a halted channel complete with ABORTED (R364, R370). -/
def flushBegun (n : Nat) (s : State) : State :=
  forEach (List.range 16) (fun k q => match (cmdRing q k).cur with
    | some c => if usesChan n c.opcode then finish c 5 0 0 q else q
    | none => q) s

/-- FLUSH of a halted channel: its queued commands complete with ABORTED (R370). -/
def chanFlush (n : Nat) (s : State) : State :=
  if !(chanAt s n).halted then s
  else
    let q := forEach (chanAt s n).queue (fun x q => finish x.cmd 5 0 0 q) s
    flushBegun n (modChan n (fun c => { c with halted := false, queue := [] }) q)

/-- A write of DMA.CHCTLn (R370, R372). -/
def writeChctl (n : Nat) (v : Word) (s : State) : State :=
  let q := if bit v 1 then chanFlush n s else s
  serveRings (if bit v 0 then chanResume n q else q)

/-- A write to the DMA block (R372). -/
def writeDma (o : Nat) (v : Word) (s : State) : State :=
  match o with
  | 0x00 => writeDmaCtl v s
  | 0x08 => { s with dma := { s.dma with burstFail := s.dma.burstFail && !bit v 1 } }
  | 0x10 => judged (field 0 s.dma.rate ||| field 16 s.dma.bucket) v
      [{ hi := 15, lo := 0, good := fun x => decide (x ≤ 12800) }, { hi := 27, lo := 16, good := fun x => decide (4 ≤ x) }]
      (fun w q => { q with dma := { q.dma with
        level := min (bucketLevel q) (bits w 27 16 * 1024), levelAt := q.mono, rate := bits w 15 0, bucket := bits w 27 16 } }) s
  | _ =>
    match slotOf 0x100 8 7 o with
    | some k => modChan k (fun c => { c with prio := bits v 1 0 }) s
    | none =>
      match slotOf 0x180 8 7 o with
      | some k => writeChctl k v s
      | none => s

/-- DMA_CTL_EN_WRITE (R371). -/
def execDmaCtlEnWrite (val : Word) (s : State) : Out := ok (serveRings (writeDmaCtl val s))

/-- DMA_BURST_REQUEST (R368). -/
def execDmaBurstRequest (val : Word) (s : State) : Out := ok (writeDmaCtl val s)

/-- DMA_RESUME (R370). -/
def execDmaResume (chan : Fin 7) (val : Word) (s : State) : Out :=
  ok (if bit val 0 then serveRings (chanResume chan.val s) else s)

/-- DMA_FLUSH (R370). -/
def execDmaFlush (chan : Fin 7) (val : Word) (s : State) : Out :=
  ok (if bit val 1 then serveRings (chanFlush chan.val s) else s)

/-! ### The RNG block (R357 to R361) -/

/-- The host address of a ring or page: bits [63..12] (R358, R359). -/
def pageAddr (v : Word) : Word := field 12 (bits v 63 12)

/-- Fields of a command ring's configuration other than EN (R359). -/
def ringFields : List FieldMap := [{ hi := 4, lo := 1, good := fun x => decide (4 ≤ x) }, anyField 8 5, anyField 10 9]

/-- Fields of an output ring's configuration other than EN (R360). -/
def outFields : List FieldMap :=
  [{ hi := 4, lo := 1, good := fun x => decide (4 ≤ x) }, anyField 10 5, { hi := 20, lo := 11, good := fun x => decide (x ≤ 1023) }]

/-- A configuration after a write: only EN while EN = 1, else every field (R361). -/
def ringJudge (old v : Word) (fs : List FieldMap) (put : Word → State → State) (s : State) : State :=
  if bit old 0 then put (putBits old 0 0 (bits v 0 0)) s else judged old v (fs ++ [anyField 0 0]) put s

/-- A command ring's configuration stored: enabling sets its index to 0 and ends a halt, disabling discards what is not begun (R350, R361). -/
def putRingCfg (n : Nat) (w : Word) (s : State) : State :=
  modRing n (fun r =>
    let r' := { r with cfg := w }
    if !bit r.cfg 0 && bit w 0 then
      { r' with cons := 0, prod := 0, halt := false, hcause := 0, fetched := [], fetching := none, notOwned := none }
    else if bit r.cfg 0 && !bit w 0 then { r' with fetched := [], fetching := none, notOwned := none }
    else r') s

/-- An output ring's configuration stored: enabling sets its index to 0 and ends a halt (R361). -/
def putOutCfg (n : Nat) (w : Word) (s : State) : State :=
  modOut n (fun r =>
    let r' := { r with cfg := w }
    if !bit r.cfg 0 && bit w 0 then { r' with prod := 0, cons := 0, halt := false, lastMsg := none, announce := false } else r') s

/-- A write of a base or configuration register of a ring; none where the offset holds no such register (R359 to R361). -/
def writeRingReg (o : Nat) (v : Word) (s : State) : Option State :=
  let crBase (n : Nat) : State := if bit (cmdRing s n).cfg 0 then s else modRing n (fun r => { r with base := pageAddr v }) s
  let outBase_ (n : Nat) : State := if bit (outRing s n).cfg 0 then s else modOut n (fun r => { r with base := pageAddr v }) s
  let outCfg (n : Nat) : State := ringJudge (outRing s n).cfg v outFields (putOutCfg n) s
  match o with
  | 0x30 => some (outBase_ 16)
  | 0x38 => some (outCfg 16)
  | _ =>
    match slotOf 0x100 8 96 o with
    | none => none
    | some i =>
      let n := i % 16
      match i / 16 with
      | 0 => some (crBase n)
      | 1 => some (ringJudge (cmdRing s n).cfg v ringFields (putRingCfg n) s)
      | 3 => some (outBase_ n)
      | 4 => some (outCfg n)
      | _ => none

/-- Pending messages of vectors that a write has unmasked leave (R357). -/
def sendPending (s : State) : State :=
  forEach (List.range 64) (fun n q =>
    if bit q.host.pba n && q.host.msixEn && !q.host.msixMask && !(vget q.host.msix n MsixEntry.reset).ctrl.getLsbD 0 &&
        canReq q then
      post [.msix n] { q with host := { q.host with pba := q.host.pba &&& ~~~(flag n true) } }
    else q) s

/-- A write of one word of the MSI-X table (R357). -/
def writeMsix (i : Nat) (v : Word) (s : State) : State :=
  sendPending { s with host := { s.host with msix := vmod s.host.msix (i / 2) (fun e =>
    if i % 2 = 0 then { e with addr := v } else { e with data := v.setWidth 32, ctrl := BitVec.ofNat 32 (bits v 63 32) }) } }

/-- A write of RNG.CTL (R344, R358): HOSTTMO begins anew when it is switched on (log 26). -/
def writeRngCtl (v : Word) (s : State) : State :=
  let fresh := bits s.host.ctl 22 7 = 0
  let q := { s with host := { s.host with ctl := field 0 (bits v 22 0) } }
  let q := if fresh then { q with host := { q.host with lastGood := q.mono, hostLost := false } } else q
  serveRings q

/-- A write to the RNG block (R357 to R361). -/
def writeRng (o : Nat) (v : Word) (s : State) : State :=
  match o with
  | 0x00 => writeRngCtl v s
  | 0x08 => { s with host := { s.host with dbbase := pageAddr v } }
  | 0x10 => judged (field 0 s.host.dbper) v [{ hi := 9, lo := 0, good := fun x => decide (1 ≤ x) && decide (x ≤ 1000) }]
      (fun w q => { q with host := { q.host with dbper := bits w 9 0 } }) s
  | 0x18 => nudge s
  | _ =>
    match writeRingReg o v s with
    | some q => serveRings q
    | none => (match slotOf 0x800 8 128 o with
      | some i => writeMsix i v s
      | none => s)

/-- RING_CONFIG_WRITE: a ring's base or configuration; `off` counts from the RNG block (R361). -/
def execRingConfigWrite (off : BitVec 12) (val : Word) (s : State) : Out :=
  ok (match writeRingReg off.toNat val s with
    | some q => serveRings q
    | none => s)

/-! ### The RED block (R381 to R383, R406 to R408) -/

/-- The first epoch of the block after the last reserved one: the blocks follow one another from 0 on (R383; log 28). -/
def nextEpochBlock (s : State) : Nat :=
  match nvsFind s 0x0101 0 with
  | some r => (wordAt r.payload 0).toNat + 256
  | none => 0

/-- A block of 256 epochs is reserved in the parameter store (R383). -/
def reserveEpochs (first : Nat) (s : State) : State :=
  appendRecord false (newRecord 0x0101 0 false (bytesOfWord (field 0 first))) .firmware
    (modRed (fun r => { r with blockEnd := first + 256 }) s)

/-- The block of a start: the next one, and its first value becomes the epoch (R383). -/
def startEpochs (s : State) : State :=
  let n := nextEpochBlock s
  modRed (fun r => { r with epoch := satTo 32 n }) (reserveEpochs n s)

/-- The unit takes the mandate: the epoch of its block at the first time, one more at every later one; below 128 values the next block is reserved (R383). -/
def acquire (s : State) : State :=
  let r := s.red
  let q := modRed (fun r => { r with mandate := true, acquired := true, epoch := if r.acquired then satTo 32 (r.epoch + 1) else r.epoch }) s
  let q := if q.red.blockEnd < q.red.epoch + 128 then reserveEpochs q.red.blockEnd q else q
  if r.acquired && r.epoch == 2 ^ 32 - 1 then raise q 0x0709 2 else q

/-- The lanes are powered: 3 tokens are asked for each (R376, R427). -/
def lanesOn (s : State) : State := purseAsk 4 3 5 (purseAsk 4 3 4 s)

/-- The lanes stop: their tokens are returned (R376, R427). -/
def lanesOff (s : State) : State :=
  let n := (s.red.lanes.toList.filter Lane.granted).length
  modRed (fun r => { r with lanes := Vector.replicate 2 Lane.reset }) (purseDrop 4 4 (purseDrop 4 5 (purseReturn 4 (3 * n) s)))

/-- RED.CTL.EN changes: CANDIDATE with the lanes on, or SOLO with the mandate after READY (R381, R406). -/
def pairEnable (on : Bool) (s : State) : State :=
  if on then
    updateField (lanesOn (modRed (fun r => { r with role := .candidate, mandate := false, reason := 0, peer := Peer.none }) s))
  else
    let q := lanesOff (modRed (fun r => { r with role := .solo, pstate := .none, cmpOff := false, autorsFrom := none }) (endForming 2 s))
    updateField (if q.power.ready && !q.red.mandate then acquire q else q)

/-- Fields of RED.CTL other than EN (R406). -/
def redFields : List FieldMap :=
  [anyField 1 1, anyField 2 2, { hi := 10, lo := 3, good := fun x => decide (2 ≤ x) && decide (x ≤ 30) },
   { hi := 18, lo := 11, good := fun x => decide (1 ≤ x) }, { hi := 26, lo := 19, good := fun x => decide (1 ≤ x) },
   { hi := 36, lo := 27, good := fun x => decide (1 ≤ x) && decide (x ≤ 1000) }, { hi := 52, lo := 37, good := fun x => decide (1 ≤ x) }]

/-- A write of RED.CTL: fields other than EN while PSTATE = NONE, EN while the role is SOLO or CANDIDATE (R406). -/
def writeRedCtl (v : Word) (s : State) : State :=
  let free := s.red.pstate == .none
  let role := s.red.role == .solo || s.red.role == .candidate
  let q := judged s.red.ctl v ((if free then redFields else []) ++ (if role then [anyField 0 0] else []))
    (fun w q => modRed (fun r => { r with ctl := w }) q) s
  if role && bit v 0 != bit s.red.ctl 0 then pairEnable (bit v 0) q else q

/-- The counters of R408 set to 0. -/
def clearRed (s : State) : State :=
  modRed (fun r => { r with
    cmpok := 0, cmpbad := 0, unsettled := 0, takeovers := 0, detach := 0
    lanes := r.lanes.map (fun l => { l with errs := 0 }) }) s

/-- RED_CNTCLR (R408). -/
def execRedCntclr (val : Word) (s : State) : Out := ok (if bit val 0 then clearRed s else s)

/-- A write to the RED block (R406, R408). -/
def writeRed (o : Nat) (v : Word) (s : State) : State :=
  let free := s.red.pstate == .none
  match o with
  | 0x00 => writeRedCtl v s
  | 0x08 => if free then modRed (fun r => { r with pwatch := field 0 (bits v 15 0) }) s else s
  | 0x10 => if free then updateField (modRed (fun r => { r with fhold := v.setWidth 32 }) s) else s
  | 0x78 => if bit v 0 then clearRed s else s
  | _ => s

/-! ### The MKTn and STL blocks (R19, R115, R118, R175, R551) -/

/-- Every Stall of a Market is held (R19, R20). -/
def marketHeld (s : State) (m : MarketId) : Bool := allStalls.all (fun k => marketOf k != m || stallHeld s k)

/-- A write of MKTn.CLK: discarded whole while a Stall of the Market is not held (R19, R551). -/
def writeClk (m : MarketId) (v : Word) (s : State) : State :=
  if marketHeld s m then modMarket m (fun k => { k with clk := field 0 (bits v 1 0) }) s else s

/-- MKT_CLK_WRITE (R19, R551). -/
def execMktClkWrite (m : MarketId) (val : Word) (s : State) : Out := ok (writeClk m val s)

/-- A write to a MKTn block (R175, R551). -/
def writeMkt (m : MarketId) (o : Nat) (v : Word) (s : State) : State :=
  match o with
  | 0x00 => writeClk m v s
  | 0x08 => judged s.markets[m].xwin v
      [{ hi := 7, lo := 0, good := fun x => decide (1 ≤ x) && decide (x ≤ 250) }, { hi := 15, lo := 8, good := fun x => decide (1 ≤ x) }]
      (fun w q => modMarket m (fun k => { k with xwin := w }) q) s
  | _ => s

/-- A write of STL.SPCTL: RAEN = 0 squashes every speculative release (R115). -/
def writeSpctl (v : Word) (s : State) : State :=
  let q := { s with spctl := field 0 (bits v 1 0) }
  if bit v 0 then q else squashWhere (fun _ _ => true) q

/-- SPCTL_WRITE (R115). -/
def execSpctlWrite (val : Word) (s : State) : Out := ok (writeSpctl val s)

/-- The counters of R117 of the Stalls named in bits [15..0] set to 0 (R118). -/
def clearStalls (v : Word) (s : State) : State :=
  forEach allStalls (fun k q => if bit v k.val then
    modStall k (fun x => { x with
      sprun := 0, sphit := 0, sprb := 0, spsq := 0, spsave := 0, rply := 0, rplate := 0, rpfail := 0, spflt := 0 }) q else q) s

/-- STL_CNTCLR (R118). -/
def execStlCntclr (val : Word) (s : State) : Out := ok (clearStalls val s)

/-- A write to the STL block (R115, R118). -/
def writeStl (o : Nat) (v : Word) (s : State) : State :=
  match o with
  | 0x00 => writeSpctl v s
  | 0x08 => clearStalls v s
  | _ => s

/-! ### The SYS block and the route to a block (R435, R436, R540 to R547) -/

/-- A write to the SYS block; any but SYS.RSTCTL breaks its key sequence (R435, R436, R540). -/
def writeSys (o : Nat) (v : Word) (s : State) : State :=
  match o with
  | 0x10 => writeErrs v (dropRstKey s)
  | 0x38 =>
    let q := dropRstKey s
    { q with errs := { q.errs with fatalValid := q.errs.fatalValid && !bit v 4 } }
  | 0x40 => if bit v 0 then clearErrorCounts (dropRstKey s) else dropRstKey s
  | 0x50 => rstctlWrite v s
  | _ => dropRstKey s

/-- A register write routed to the block of its offset; the read-only blocks ignore it (R542, R545). -/
def writeReg (off : Nat) (v : Word) (teller : Bool) (s : State) : State :=
  let o := off % 0x1000
  match off / 0x1000 with
  | 0x00 => writeSys o v s
  | 0x01 => writePrs o v s
  | 0x02 => writeWdg o v teller s
  | 0x03 => writeRec o v s
  | 0x04 => writeRtc o v s
  | 0x05 => writeNvs o v s
  | 0x08 => writeDma o v s
  | 0x09 => writeRng o v s
  | 0x0A => writeNet 0 o v s
  | 0x0B => writeNet 1 o v s
  | 0x0C => writeNet 2 o v s
  | 0x0D => writeNet 3 o v s
  | 0x0E => writeTsy o v (if teller then 0 else 4) s
  | 0x0F => writeTcmp o v s
  | 0x10 => writeMot o v s
  | 0x11 => writeFio o v s
  | 0x12 => writeFio (o + 0x1000) v s
  | 0x13 => writeAna o v s
  | 0x14 => writeRed o v s
  | 0x15 => writeMkt 0 o v s
  | 0x16 => writeMkt 1 o v s
  | 0x17 => writeMkt 2 o v s
  | 0x18 => writeMkt 3 o v s
  | 0x19 => writeStl o v s
  | _ => s

/-- REGISTER_WRITE: the register at a BAR0 offset is written; an offset without one is an access error (R543, R547). -/
def execRegisterWrite (off : BitVec 18) (val : Word) (teller : Bool) (s : State) : Out :=
  if (readReg s off.toNat).isNone then ok (accessError true teller.toNat true off.toNat s)
  else ok (writeReg off.toNat val teller s)

end Sys2Proof.Machine
end

