-- ==== Sys2Proof/Machine/Project.lean ====
section
/-!
DEFINITION. The project: image writes to flash, the load of a code image into the machine, and the commands PROJECT_LOAD, CAM_LOAD, FORCE_SET, FORCE_CLEAR and FORCE_LIST, and the scrubber (R26, R113, R188 to R196, R219 to R222, R433, R498, R509 to R512, R579).
-/
namespace Sys2Proof.Machine

/-! ### Images in flash (R469, R495, R510) -/

/-- Bytes that an image of a given length takes in flash: it begins and ends at a group (R470; log 33). -/
def padded (n : Nat) : Nat := 8 * ceilDiv n 8

/-- An image filled up with erased bytes to whole groups. -/
def padImage (bs : List Byte) : List Byte := bs ++ List.replicate (padded bs.length - bs.length) 0xFF

/-- Length of an image with its wrapper (R495). -/
def wrappedLen (h : Wrapper) : Nat := 256 + h.bodylen

/-- Sectors of a firmware slot (R469). -/
def fwSectors : Nat := 128

/-- Sectors of a project slot (R469). -/
def prjSectors : Nat := 640

/-- Sectors of the package staging (R469). -/
def stagingSectors : Nat := 25

/-- An image written into a flash region: every sector that holds something is erased, then the image is programmed (R470, R504, R511). -/
def writeImage (c : Cmd) (base sectors : Nat) (bs : List Byte) (s : State) : State :=
  let erases := (flashErases (.image c) (sectorOf base) sectors).filter (fun j => match j.op with
    | .erase n => sectorHolds s n
    | .program _ _ => true)
  flashAsk (erases ++ flashPrograms (.image c) base (padImage bs)) s

/-- The slot that is not current (R510). -/
def otherPrj (n : Nvs) : Nat := 1 - n.prjcur

/-- A project slot's headers changed. -/
def setPrj (slot : Nat) (p : PrjSlot) (s : State) : State :=
  modNvs (fun n => if slot = 0 then { n with prjA := p } else { n with prjB := p }) s

/-- Offsets in a project slot of its image and of the packages of its chain: one after another, each from a group on (R510; log 33). -/
def partOffsets (p : PrjSlot) : List (Nat × Nat) :=
  ((p.image.toList ++ p.chain).foldl (fun (acc : List (Nat × Nat) × Nat) h =>
    (acc.1 ++ [(acc.2, wrappedLen h)], acc.2 + padded (wrappedLen h))) ([], 0)).1

/-- Bytes of a project slot in use. -/
def prjUsed (p : PrjSlot) : Nat := (p.image.toList ++ p.chain).foldl (fun n h => n + padded (wrappedLen h)) 0

/-- The image of a project slot and the packages of its chain, each with its wrapper, as flash holds them. -/
def prjParts (s : State) (slot : Nat) (p : PrjSlot) : List (List Byte) :=
  (partOffsets p).map (fun x => flashBytes s (prjBase slot + x.1) x.2)

/-- An image write into a project slot is in progress (R519; log 33). -/
def prjBusy (s : State) : Bool :=
  s.change.isSome || flashUses s (fun u => match u with
    | .image c => c.opcode == 0x18 || c.opcode == 0x70
    | _ => false)

/-! ### The load of a code image (R498, R509, R511) -/

/-- A task of a table that has not run (R73, R83). -/
def Task.fresh (e : TaskEntry) : Task :=
  { e := e, ovrcnt := 0, relcnt := 0, commitcnt := 0, hskip := 0, faultcnt := 0, lastexec := 0, maxexec := 0, lastcommit := 0,
    lastdisp := 0, maxdisp := 0, run := 0, stopped := false, hadRelease := false, lastCommitted := false,
    firstAfterChange := false, noSpec := none, evSeq := 0, evDropped := 0, freezeNext := none, afterCommit := .none }

/-- The project that a code image describes (R498). -/
def projectOf (body : List Byte) (l : List Segment) : Project :=
  let w1 := wordAt body 8
  { id := wordAt body 0, loaded := true, raenok := bit w1 16, pair := bit w1 17, wdgen := bit w1 18, wdglock := bit w1 19,
    mirrorLoad := bits (wordAt body 16) 31 0, routes := routeTable (bodyOf l 5)
    regions := (segsOf l 6).flatMap (fun g => regionList g.body)
    layouts := Vector.ofFn (fun m => layoutOf ((bodyFor l 3 m).getD []))
    code := segsOf l 1, inits := segsOf l 4, regs := regList (bodyOf l 11)
    fieldcfg := (slices 16 (bodyOf l 10)).map fieldEntry, camLoaded := []
    raw := l.filter (fun g => g.stype == 7 || g.stype == 8 || g.stype == 9) }

/-- Bank transactions that a load leaves waiting: those of the DMA engine and of FORCE_SET. -/
def keepTx (x : BankTx) : Bool :=
  match x.kind with
  | .dma _ => true
  | .forceWrite _ _ => true
  | _ => false

/-- An append that a task waited for goes on without it. -/
def orphanAppend (a : NvsAppend) : NvsAppend :=
  { a with who := match a.who with
    | .task _ => .firmware
    | w => w }

/-- Everything of the project before is gone: Tills, pending releases, requests and waiting transactions (R511; log 34). -/
def dropWork (s : State) : State :=
  { s with
    stalls := s.stalls.map (fun k => { k with
      tills := Vector.replicate 2 Till.idle, running := none, pend := [], posted := [], fence := none, bps := Vector.replicate 4 none })
    markets := s.markets.map (fun m => { m with
      queue := m.queue.filter keepTx, active := m.active.filter keepTx, sysQueue := [], winReq := none, winOpen := none, phase := 0 })
    signals := [], trigs := [], directs := [], routeJobs := [], package := none, change := none
    nvs := { s.nvs with append := s.nvs.append.map orphanAppend, waiting := s.nvs.waiting.map orphanAppend }
    red := { s.red with mirrors := [], motions := [], ownHashes := [], peerHashes := [], motHashes := [], settledTasks := [],
                        unsettledRun := [], adjudication := none, switches := [], mirroredTo := [] }
    ctl := { s.ctl with resumeOk := false } }

/-- The bytes of a CODE segment written to its program store (R168). -/
def writeCode (g : Segment) (s : State) : State :=
  let a := progBase g.stall.val + (codeRange g).1
  clearUeRange (putBytes s a (g.body.drop 8)) a (codeRange g).2

/-- The program stores loaded: the CODE segments, and zero elsewhere (R509; log 34). -/
def loadCode (s : State) : State :=
  forEach s.project.code writeCode (forEach (List.range 16) (fun k q => zeroRange q (progBase k) 0x10_0000) s)

/-- Market memory loaded: the initial values, and zero elsewhere (R509; log 34). -/
def loadMarkets (s : State) : State := applyInits false (forEach (List.range 4) (zeroMarket false) s)

/-- An engine with the axis records of its AXES segment, every axis as one that has received nothing (R205, R509). -/
def loadAxes (l : List Segment) (e : Nat) (s : State) : State :=
  let body := match (segsOf l 7).find? (fun g => g.stall.val == e) with
    | some g => g.body
    | none => []
  modEngine e (fun g => { g with
    axes := List.replicate (body.length / 128) Axis.standby, due := none, cycle := none, codes := [], codesFor := none,
    missed := [], refreshPos := 0, stale := true }) (putBytes (zeroRange s (motBase e) 0x6_0000) (motBase e) body)

/-- Axis records and cam store loaded (R205, R219, R509). -/
def loadMotion (l : List Segment) (s : State) : State :=
  putBytes (zeroRange (forEach (List.range 8) (loadAxes l) s) camBase 0x20_0000) camBase (bodyOf l 8)

/-- The frame schedule and the administrative gate control lists loaded (R256, R287, R577). -/
def loadSched (b : List Byte) (s : State) : State :=
  let lists := if b.isEmpty then [] else gateLists b
  { s with net := { s.net with
      sched := if b.isEmpty then [] else schedTable b
      ports := Vector.ofFn (fun (n : Fin 4) => { s.net.ports[n] with
        oper := none, admin := (lists.find? (fun g => g.1 == n.val)).map Prod.snd }) } }

/-- Registers that a field configuration list may carry (R298). -/
def fieldRegs : List Nat :=
  [0, 8, 0x10] ++ (List.range 8).map (fun j => 0x80 + 16 * j) ++ (List.range 64).map (fun i => 0x100 + 8 * i) ++
    (List.range 32).map (fun c => 0x400 + 48 * c) ++ (List.range 32).map (fun k => 0xA00 + 48 * k) ++
    (List.range 4).map (fun a => 4096 + 0x40 * a)

/-- The field configuration of a project: every register at its reset value, then the entries in order (R298; log 34). -/
def loadFields (s : State) : State :=
  loadFieldConfig (fieldRegs.map (fun r => (r, fieldValueIn [] r)) ++ s.project.fieldcfg) s

/-- The registers that a project carries: TSY.CTL first, RED.CTL.EN from PAIR, the rest in order (R245, R275, R406, R498, R579). -/
def loadRegs (s : State) : State :=
  let first := s.project.regs.filter (fun r => r.1 == 0xE000)
  let rest := s.project.regs.filter (fun r => r.1 != 0xE000 && r.1 != 0x14000)
  let red := (s.project.regs.find? (fun r => r.1 == 0x14000)).map Prod.snd
  let q := forEach (first ++ rest) (fun r q => writeReg r.1 r.2 true q) s
  writeRedCtl (putBits (red.getD q.red.ctl) 0 0 s.project.pair.toNat) q

/-- A code image that has passed its checks becomes the project (R509, R511). -/
def loadProject (body : List Byte) (l : List Segment) (s : State) : State :=
  let q := dropWork s
  let q := { q with project := projectOf body l, tasks := (taskTable (bodyOf l 2)).map Task.fresh }
  let q := loadMotion l (loadMarkets (loadCode q))
  let q := loadRegs (loadFields (loadSched (bodyOf l 9) q))
  forEach allStalls sleepIfHeld q

/-- The control sequences that a project header asks for: Enable, then Lock (R579). -/
def wdgFromProject (s : State) : State :=
  let run (a b : Nat) (q : State) : State := (wdgSequence a b q).getD q
  let q := if s.project.wdgen then run 0xE1A7 0x7A1E s else s
  if s.project.wdglock then run 0x10C4 0xC401 q else q

/-- The segments of a code image with its wrapper, or the status and index that refuse it (R496, R498, R511). -/
def judgeImage (raw : List Byte) (s : State) : Except (Nat × Nat) (List Byte × List Segment) :=
  match acceptImage s.nvs 2 raw with
  | .error st => .error (st, 0)
  | .ok body =>
    match imageSegs (wrapperOf raw).id body with
    | none => .error (0x87, 0)
    | some l =>
      match checkImage s l with
      | some e => .error e
      | none => .ok (body, l)

/-! ### PROJECT_LOAD (R511) -/

/-- The force table emptied, reported with its entries (R196). -/
def clearForces (s : State) : State :=
  let n := s.forces.length
  if n = 0 then s else raise { s with forces := [] } 0x010B 0 (field 0 n)

/-- An image of a length that the region cannot hold, or that has no wrapper, is refused; another one is written (R495, R511). -/
def beginImage (c : Cmd) (base sectors : Nat) (bs : List Byte) (s : State) : State :=
  if bs.length < 256 || sectors * sectorSize < bs.length then finish c 0x87 0 0 s else writeImage c base sectors bs s

/-- Commands that change the project or outputs answer BAD_STATE in HELD after a failed self-test (R538). -/
def testFailed (s : State) : Bool := s.ctl.mode == .held && s.power.fail != 0

/-- PROJECT_LOAD: refused in RUN and HOLD; its image is written into the other slot (R511). -/
def execProjectLoad (ring : Fin 16) (data : List Byte) (s : State) : Out :=
  onRing ring.val 0x18 s (fun c q =>
    dataCommand c (reservedZero c [BitVec.allOnes 64, lowMask 32]) (notOnStandby c (fun q =>
      if q.ctl.mode == .run || q.ctl.mode == .hold || testFailed q then finish c 6 0 0 q
      else if prjBusy q then q
      else takeBytes c (opnd c 1) (bits (opnd c 2) 31 0) data (fun bs q =>
        beginImage c (prjBase (otherPrj q.nvs)) prjSectors bs (forwardCmd 0 c bs (accept c q))) q)) q)

/-- The image of a PROJECT_LOAD stands in flash: it is verified and checked, and becomes the project (R511 steps 2 to 5). -/
def projectWritten (c : Cmd) (s : State) : State :=
  let slot := otherPrj s.nvs
  let raw := flashBytes s (prjBase slot) (bits (opnd c 2) 31 0)
  match judgeImage raw s with
  | .error e => finish c e.1 (field 0 e.2) 0 s
  | .ok (body, l) =>
    let q := disarmNow 1 s
    let q := modNvs (fun n => { n with prjcur := slot }) (setPrj slot { image := some (wrapperOf raw), chain := [] } q)
    let q := clearForces (loadProject body l q)
    finish c 0 0 0 (wdgFromProject (raise q 0x0A09 0 q.project.id (field 0 slot)))

/-! ### CAM_LOAD (R219, R222) -/

/-- An axis uses a CAMID, or has it pending (R222). -/
def camUsed (s : State) (camid : Nat) : Bool :=
  s.engines.toList.any (fun g => g.axes.any (fun a =>
    (a.mode == .cam && a.camRef.camid == camid) || (match a.camNext with
      | some r => r.camid == camid
      | none => false)))

/-- The tables in the cam store but one: offset and segments (R219). -/
def camTables (s : State) (camid : Nat) : List (Nat × Nat) :=
  (List.range 256).filterMap (fun i =>
    let off := bits (readWord s (camBase + 8 * i)) 20 0
    if i = camid || off = 0 then none else some (off, bits (readWord s (camBase + off)) 13 0))

/-- The lowest place where a table of `n` segments meets no other one; tables are never moved (R219; log 35). -/
def camPlace (s : State) (camid n : Nat) : Option Nat :=
  let l := camTables s camid
  let need_ := 64 + 64 * n
  let free_ (off : Nat) : Bool := decide (off + need_ ≤ 0x20_0000) && l.all (fun t => apart t.1 (64 + 64 * t.2) off need_)
  if 32704 < l.foldl (fun k t => k + t.2) n then none
  else minBy id ((4096 :: l.map (fun t => t.1 + 64 + 64 * t.2)).filter free_)

/-- The directory entry of a CAMID, and the mark that CAM_LOAD wrote it. -/
def setCam (camid off : Nat) (s : State) : State :=
  let q := writeWord s (camBase + 8 * camid) (field 0 off)
  { q with project := { q.project with camLoaded := camid :: q.project.camLoaded.filter (fun i => i != camid) } }

/-- A cam table stored, or the status and segment that refuse it; no bytes empty the CAMID (R219, R222). -/
def storeCam (camid : Nat) (t : List Byte) (s : State) : (Nat × Nat) × State :=
  if camUsed s camid then ((0x40, 0), s)
  else if t.isEmpty then ((0, 0), setCam camid 0 s)
  else if t.length ≠ 64 + 64 * bits (wordAt t 0) 13 0 || !camForm t then ((0x41, 0), s)
  else match camBreak t with
  | some i => ((0x42, i), s)
  | none =>
    match camPlace s camid (bits (wordAt t 0) 13 0) with
    | none => ((0x43, 0), s)
    | some off => ((0, 0), setCam camid off (clearUeRange (putBytes s (camBase + off) t) (camBase + off) t.length))

/-- CAM_LOAD (R222, R351, R388). -/
def execCamLoad (ring : Fin 16) (data : List Byte) (s : State) : Out :=
  onRing ring.val 0x28 s (fun c q =>
    dataCommand c (reservedZero c [BitVec.allOnes 64, lowMask 40]) (notOnStandby c (fun q =>
      takeBytes c (opnd c 1) (bits (opnd c 2) 31 0) data (fun t q =>
        let r := storeCam (bits (opnd c 2) 39 32) t q
        finish c r.1.1 (field 0 r.1.2) 0 (if r.1.1 = 0 then forwardCmd 0 c t r.2 else r.2)) q)) q)

/-! ### Forces (R188 to R196) -/

/-- A force table command: refused on a standby, and after a failed self-test (R388, R538). -/
def forceCommand (c : Cmd) (clean : Bool) (f : State → State) (s : State) : State :=
  if !clean then finish c 2 0 0 s
  else notOnStandby c (fun q => if testFailed q then finish c 6 0 0 q else f q) s

/-- FORCE_SET: an input force takes effect at once, an output force with its force-write transaction (R189 to R193; log 18). -/
def execForceSet (ring : Fin 16) (s : State) : Out :=
  onRing ring.val 0x20 s (fun c q =>
    forceCommand c (reservedZero c [BitVec.allOnes 64, BitVec.allOnes 64]) (fun q =>
      match forceCheck q (opnd c 1) (opnd c 2) with
      | .error st => finish c st 0 0 q
      | .ok f =>
        if f.output then bankAsk f.market (.forceWrite c (f.bitoff / 64 * 8)) 8 (accept c q)
        else finish c 0 0 0 (takeForce f (forwardCmd 0 c [] q))) q)

/-- An entry removed; the bank keeps the forced value of an output (R194). -/
def dropForce (skey : Word) (s : State) : State := { s with forces := s.forces.filter (fun g => g.skey != skey) }

/-- FORCE_CLEAR: RESULT0 says whether an entry was removed (R194, R351). -/
def execForceClear (ring : Fin 16) (s : State) : Out :=
  onRing ring.val 0x21 s (fun c q =>
    forceCommand c (reservedZero c [BitVec.allOnes 64]) (fun q =>
      let had := q.forces.any (fun g => g.skey == opnd c 1)
      finish c 0 (field 0 had.toNat) 0 (dropForce (opnd c 1) (forwardCmd 0 c [] q))) q)

/-- A record of FORCE_LIST (R188). -/
def forceRecord (f : Force) : List Byte :=
  bytesOfWords [f.skey, f.value,
    field 0 f.bitoff ||| field 22 f.width ||| flag 25 f.output ||| field 26 f.market.val, f.settime]

/-- FORCE_LIST: whole records only (R188, R351). -/
def execForceList (ring : Fin 16) (s : State) : Out :=
  onRing ring.val 0x22 s (fun c q =>
    dataCommand c (reservedZero c [BitVec.allOnes 64, lowMask 32]) (fun q =>
      let n := min q.forces.length (bits (opnd c 2) 31 0 / 32)
      giveBytes c (opnd c 1) ((q.forces.take n).flatMap forceRecord) (field 0 q.forces.length) (field 0 n) q) q)

/-! ### Firmware bodies (R497) -/

/-- The segments of a firmware body: type and bytes, or none where an encoding is reserved, a segment too long or its SHA wrong (R497). -/
def firmwareSegs (body : List Byte) : Option (List (Nat × List Byte)) :=
  let n := (wordAt body 0).toNat
  if body.length / 48 < n then none
  else
    let es := (List.range n).map (fun i => (body.drop (8 + 48 * i)).take 48)
    let seg (e : List Byte) : Nat × List Byte := (bits (wordAt e 0) 7 0, (body.drop (bits (wordAt e 0) 63 32)).take (bits (wordAt e 8) 31 0))
    let good (e : List Byte) : Bool :=
      let ty := bits (wordAt e 0) 7 0
      let len := bits (wordAt e 8) 31 0
      let most := match ty with
        | 1 => 0x10_0000
        | 2 => 0x1_0000
        | 3 => 0x1_0000
        | 4 => 0x8000
        | _ => 0
      decide (1 ≤ ty) && decide (ty ≤ 4) && decide (len ≤ most) && decide (bits (wordAt e 0) 63 32 + len ≤ body.length) &&
        sha256 (seg e).2 == (e.drop 16).take 32
    if es.all good then some (es.map seg) else none

/-- The bytes of a firmware slot's image in flash, read past an interrupted refresh (R489). -/
def fwRaw (s : State) (slot : Nat) : List Byte :=
  match (fwSlot s.nvs slot).hdr with
  | some h => flashBytes (refreshedView s) (fwBase slot) (wrappedLen h)
  | none => []

/-- The plain body of a firmware slot's image, when no group of it is in error and it is accepted (R474, R496). -/
def fwBody (s : State) (slot : Nat) : Option (List Byte) :=
  let raw := fwRaw s slot
  if flashWhole (refreshedView s) (fwBase slot) raw.length then (acceptImage s.nvs 1 raw).toOption else none

/-- The code of an engine class in the running firmware: STYPE 2 motion, 3 network (R497, R509). -/
def engineCode (s : State) (ty : Nat) : List Byte :=
  match (fwBody s s.nvs.fwrun).bind firmwareSegs with
  | some l => (match l.find? (fun g => g.1 == ty) with
    | some g => g.2
    | none => [])
  | none => []

/-! ### The scrubber (R26, R113, R433) -/

/-- The on-chip memories in the order of R23: base, bytes. -/
def sramRows : List (Nat × Nat) :=
  (List.range 16).map (fun k => (progBase k, 0x10_0000)) ++ (List.range 16).map (fun k => (localBase k, 0x4_0000)) ++
    (List.range 4).map (fun m => (marketBase m, 0x40_0000)) ++ (List.range 4).map (fun m => (imageBase m, 0x8_0000)) ++
    (List.range 8).map (fun e => (motBase e, 0x8_0000)) ++ [(camBase, 0x20_0000)] ++
    (List.range 2).map (fun k => (netBase k, 0x10_0000)) ++ [(0, 0x40_0000)] ++ (List.range 16).map (fun k => (dayBase k, 0x2_0000))

/-- The address of a byte of a list of memories laid end to end. -/
def rowAddr : List (Nat × Nat) → Nat → Nat
  | [], _ => 0
  | (a, n) :: r, i => if i < n then a + i else rowAddr r (i - n)

/-- Words of on-chip memory: 52 MB (R23). -/
def sramWords : Nat := 52 * 2 ^ 20 / 8

/-- A release of the Stall is using its memories: it is live or speculative (R113). -/
def stallInUse (s : State) (k : StallId) : Bool := (liveTill s k).isSome || (specTill s k).isSome

/-- A word rewritten from flash, reported (R113, R433). -/
def scrubRepair (a : Nat) (s : State) : State := raise s 0x0106 0 (field 0 (ownerOf a)) (field 0 a)

/-- The bytes of a segment in flash that belong at an offset of its memory. -/
def rawWord (body : List Byte) (off : Nat) : List Byte := fitBytes 8 (body.drop off)

/-- An uncorrectable word of motion, cam or network memory: engine code and project data are rewritten from flash; where schedules and lists lie in network memory is open (R433; log 36). -/
def scrubEngine (a : Nat) (s : State) : State :=
  let again (bs : List Byte) : State := scrubRepair a (countUe a (clearUe (putBytes s a bs) a))
  match locate a with
  | some (.motion e, _) =>
    let off := a - motBase e
    if 0x6_0000 ≤ off then again (rawWord (engineCode s 2) (off % 0x1_0000))
    else (match (segsOf s.project.raw 7).find? (fun g => g.stall.val == e) with
    | some g => if off < g.body.length then again (rawWord g.body off) else memUe a s
    | none => memUe a s)
  | some (.cam, _) =>
    let off := a - camBase
    let id := if off < 2048 then some (off / 8) else (if camidAt s a = 0 then none else some (camidAt s a - 1))
    (match id with
    | some i =>
      if s.project.camLoaded.contains i || decide ((bodyOf s.project.raw 8).length ≤ off) then memUe a s
      else again (rawWord (bodyOf s.project.raw 8) off)
    | none => memUe a s)
  | some (.netMem k, _) =>
    if 0xE_0000 ≤ a - netBase k then again (rawWord (engineCode s 3) ((a - netBase k) % 0x1_0000))
    else
      let b := freshBool s
      if b.1 then scrubRepair a (countUe a (clearUe b.2 a)) else memUe a b.2
  | _ => memUe a s

/-- An uncorrectable word that the scrubber finds (R113, R431 to R434). -/
def scrubFound (a : Nat) (s : State) : State :=
  match locate a with
  | some (.prog k, _) =>
    if stallInUse s (Fin.ofNat 16 k) then countUe a s
    else scrubRepair a (repairWord (Fin.ofNat 16 k) .programStore a (countUe a s))
  | some (.local_ k, _) =>
    if stallInUse s (Fin.ofNat 16 k) then countUe a s
    else scrubRepair a (repairWord (Fin.ofNat 16 k) .localData a (countUe a s))
  | some (.motion _, _) => scrubEngine a s
  | some (.cam, _) => scrubEngine a s
  | some (.netMem _, _) => scrubEngine a s
  | some (.teller, _) => fatalNow 2 (countUe a s)
  | _ => memUe a s

/-- The Till area, and its word, that an address of a Daybook lies in (R100). -/
def tillWordAt (a : Nat) : Option (TillId × Nat) :=
  match locate a with
  | some (.daybook k, _) =>
    let off := a - dayBase k
    if off < 0x1_8000 then none
    else some ({ stall := Fin.ofNat 16 k, till := Fin.ofNat 2 ((off - 0x1_8000) / 0x4000) }, off % 0x4000 / 8)
  | _ => none

/-- A word of a Till area that its records use (R101, R102). -/
def wordUsed (k : Till) (j : Nat) : Bool := k.area != .empty && decide (j < 64 + 2 * k.journal.length)

/-- A word is damaged: one of a Till area only where the area's records use it (R24, R431; log 48). -/
def damageWord (a : Nat) (s : State) : State :=
  match tillWordAt a with
  | some (t, j) => if wordUsed (tillAt s t) j then modTill t (fun k => { k with damaged := j :: k.damaged.filter (· != j) }) s else s
  | none => markUe s a

/-- A word that the scrubber reads holds an uncorrectable error (R26). -/
def wordBad (s : State) (a : Nat) : Bool :=
  s.ue.contains a || (match tillWordAt a with
    | some (t, j) => wordUsed (tillAt s t) j && (tillAt s t).damaged.contains j
    | none => false)

/-- SCRUB: the next word is read; `upset` says what has happened to it: nothing, one bit, or two bits (R24, R26). -/
def execScrub (upset : Fin 3) (s : State) : Out :=
  let a := rowAddr sramRows (8 * (s.scrubPos % sramWords))
  let q := { s with scrubPos := (s.scrubPos + 1) % sramWords }
  if upset = 2 then ok (scrubFound a (damageWord a q))
  else if wordBad q a then ok (scrubFound a q)
  else ok (if upset = 1 then countCe a q else q)

end Sys2Proof.Machine
end

