-- ==== Sys2Proof/Machine/Copy.lean ====
section
/-!
DEFINITION. The state copy and the mirrored epochs as the active of a pair sends them: pages of memory, state that lies in no memory, and retentive data (R377, R385, R398, R401).
-/
namespace Sys2Proof.Machine

/-! ### Pages (R401) -/

/-- Pages of 4 KB of a state copy: Market memories, output halves, motion private memories without their code, and cam store (R27, R401). -/
def pageCount : Nat := 5632

/-- The system address of a page of the state copy (R27, R401). -/
def copyAddr (i : Nat) : Nat :=
  if i < 4096 then marketBase 0 + 4096 * i
  else if i < 4352 then outBase ((i - 4096) / 64) + 4096 * ((i - 4096) % 64)
  else if i < 5120 then motBase ((i - 4352) / 96) + 4096 * ((i - 4352) % 96)
  else camBase + 4096 * (i - 5120)

/-- An address lies in a page of the state copy. -/
def copiedAddr (a : Nat) : Bool :=
  match locate a with
  | some (.market _, _) => true
  | some (.image m, _) => decide (outBase m ≤ a)
  | some (.motion e, _) => decide (a < motBase e + 0x6_0000)
  | some (.cam, _) => true
  | _ => false

/-- The cells of a page. -/
def pageCells (m : List Host.Cell) (a : Nat) : List Host.Cell := m.filter (fun c => a ≤ c.1 && c.1 < a + 4096)

/-- The pages that differ from what the standby was last sent (R401). -/
def dirtyPages (s : State) : List Nat :=
  let l := ((s.mem ++ s.red.copyShadow).filter (fun c => copiedAddr c.1)).map (fun c => 4096 * (c.1 / 4096))
  l.eraseDups.filter (fun a => pageCells s.mem a != pageCells s.red.copyShadow a)

/-- The dirty pages of a Market: its memory and the output half of its bank. -/
def dirtyIn (s : State) (m : MarketId) : List Nat :=
  (dirtyPages s).filter (fun a => match locate a with
    | some (.market k, _) => k == m.val
    | some (.image k, _) => k == m.val
    | _ => false)

/-- The dirty pages of motion private memory and cam store. -/
def dirtyMotion (s : State) : List Nat :=
  (dirtyPages s).filter (fun a => match locate a with
    | some (.motion _, _) => true
    | some (.cam, _) => true
    | _ => false)

/-- A page sent in STATE messages (R377, R401). -/
def sendPage (a : Nat) (s : State) : State :=
  let bs := readBytes s a 4096
  let q := forEach (pieces 4080 bs) (fun p q => linkSend 9 0 (bytesOfWord (field 0 (a + p.1)) ++ p.2) q) s
  modRed (fun r => { r with copyShadow := memSplice r.copyShadow a bs }) q

/-! ### State that lies in no memory (R235, R401; the layout is a DESIGN CHOICE, log 44) -/

/-- State that lies in no memory sent in a STATE message whose address has bit 63 set, its kind in [62..56] and an index below. -/
def sendState (kind index : Nat) (l : List Word) (s : State) : State :=
  linkSend 9 0 (bytesOfWords ((flag 63 true ||| field 56 kind ||| field 0 index) :: l)) s

/-- A signed number, or 0 for none. -/
def optInt (o : Option Int) : Word := wordOfInt (o.getD 0)

/-- The code of what drives an axis. -/
def AxisMode.code : AxisMode → Nat
  | .none => 0
  | .move => 1
  | .jog => 2
  | .gear => 3
  | .cam => 4
  | .direct => 5
  | .vmaster => 6
  | .xmaster => 7

/-- The code of how an axis comes to rest. -/
def StopHow.code : StopHow → Nat
  | .follow => 0
  | .ramp => 1
  | .hold => 2

/-- An axis with its coder as words (R210, R235, R401). -/
def axisWords (a : Axis) : List Word :=
  let next := a.camNext.getD { camid := 0, moff := 0, soff := 0 }
  let ramp := a.ramp.getD { c := 0, base := 0, start := 0 }
  let corr := a.pendCorr.getD (0, 0)
  [field 0 a.state.code ||| field 3 a.mode.code ||| field 7 a.stopHow.code ||| flag 9 a.inpos ||| flag 10 a.clutched |||
     flag 11 a.camdone ||| flag 12 a.markSeen ||| flag 13 a.accepted ||| flag 14 a.missing ||| flag 15 a.jump |||
     flag 16 a.camNext.isSome ||| flag 17 a.lastq.isSome ||| flag 18 a.pendCorr.isSome ||| flag 19 a.ramp.isSome |||
     field 24 a.result ||| field 32 a.cause ||| field 40 a.camRef.camid ||| field 48 next.camid ||| field 56 a.refresh,
   a.setpt, a.svel, a.acc, field 0 a.ackseq, a.ferr, a.regerr, field 0 a.regcnt ||| field 32 a.regmiss, a.regofs, a.p1,
   a.vlim, a.alim, a.jlim, wordOfInt a.gnum, field 0 a.gden, a.gcl, a.soff, a.dec, a.camRef.moff, a.camRef.soff, next.moff,
   next.soff, optInt a.lastq, field 0 a.markCount, wordOfInt corr.1, wordOfInt corr.2, wordOfInt ramp.c, ramp.base,
   ramp.start, a.r, a.v, a.fbPrev, field 0 a.history.length] ++ a.history ++ a.masters.flatMap (fun x => [x.1, x.2])

/-- A generator set as words (R321). -/
def genSetWords (g : GenSet) : List Word := [field 0 g.mode, field 0 g.cnt, field 0 g.per, field 0 g.wid, field 0 g.dly]

/-- The generator of a channel, its armed set and its enables as words; instants as ns from now (R321 to R323, R401). -/
def channelWords (now : Nat) (c : Channel) : List Word :=
  let p := c.pend.getD { seq := 0, set := { mode := 0, cnt := 0, per := 0, wid := 0, dly := 0 }, image := false, at_ := now }
  [flag 0 c.gen.out ||| flag 1 c.gen.active ||| flag 2 c.pend.isSome ||| flag 3 p.image ||| flag 4 c.imageOn |||
     flag 5 c.eventOn ||| flag 6 c.busy ||| flag 7 c.rej ||| field 16 p.seq ||| field 32 c.appliedSeq ||| field 48 c.appliedN,
   wordOfInt ((c.gen.h : Int) - (now : Int)), field 0 c.gen.begun, wordOfInt ((p.at_ : Int) - (now : Int))] ++
    genSetWords c.gen.set ++ genSetWords p.set

/-- The state of a task as words (R71, R73, R76, R83, R401). -/
def taskWords (x : Task) : List Word :=
  let f := x.freezeNext.getD { cause := 0, fault := false, scopeAll := false }
  [flag 0 x.stopped ||| flag 1 x.hadRelease ||| flag 2 x.firstAfterChange ||| flag 3 x.freezeNext.isSome |||
     flag 4 f.fault ||| flag 5 f.scopeAll ||| field 8 f.cause,
   field 0 x.run, field 0 x.commitcnt, field 0 x.evSeq, field 0 x.evDropped]

/-- The code of an operating mode (R62). -/
def modeNumber (m : Mode) : Nat :=
  match m with
  | .held => 0
  | .stop => 1
  | .run => 2
  | .hold => 3

/-- Signals of a task that are on their way to its Market. -/
def inFlight (s : State) (id : TaskId) : Nat := (s.signals.filter (fun g => g.task == id)).length

/-- The operating mode, the boundary, the release count of every task, and the cams that CAM_LOAD wrote, as words. -/
def controlWords (s : State) : List Word :=
  [field 0 (modeNumber s.ctl.mode) ||| flag 3 s.ctl.armed ||| field 8 s.ctl.reason ||| field 16 s.ctl.ftask.toNat |||
     flag 24 s.ctl.scopeAll ||| flag 25 s.ctl.resumeOk ||| flag 26 s.ctl.ranSinceReset,
   field 0 s.clock.ticknum, field 0 s.tasks.length] ++
    s.tasks.flatMap (fun x => [field 0 x.e.id.toNat, field 0 (x.relcnt + inFlight s x.e.id)]) ++
    s.project.camLoaded.map (field 0)

/-- A force table entry as words (R188). -/
def forceWords (f : Force) : List Word :=
  [f.skey, f.value, field 0 f.bitoff ||| field 22 f.width ||| flag 25 f.output ||| field 26 f.market.val, f.settime]

/-- The breakpoints of a Stall as words (R68). -/
def breakWords (k : Stall) : List Word :=
  k.bps.toList.map (fun b => match b with
    | some x => flag 63 true ||| field 0 x.task.toNat ||| field 8 x.addr.toNat ||| flag 32 x.scopeAll
    | none => 0)

/-! ### The last steps of a copy (R401) -/

/-- Every engine stands between a hand-off and the next read phase (R200, R401). -/
def motionIdle (s : State) : Bool := s.engines.toList.all (fun g => g.cycle.isNone)

/-- The motion state copied between a hand-off and a read phase: the dirty pages, the engines and their axes; from here on the standby's engines follow (R401 item 1). -/
def copyMotion (s : State) : State :=
  let q := forEach (dirtyMotion s) sendPage s
  let q := forEach (List.range 8) (fun e q =>
    let g := engineAt q e
    forEach (enumFrom 0 g.axes) (fun x q => sendState 1 (128 * e + x.1) (axisWords x.2) q)
      (sendState 2 e [field 0 g.state ||| flag 8 g.stale, field 0 g.ecyc, field 0 g.refreshPos] q)) q
  modRed (fun r => { r with motionCopied := true }) q

/-- The copy is complete: generator sets, forces, breakpoints and operating mode go over, and CONFIRMING begins (R401). -/
def finishCopy (s : State) : State :=
  let q := forEach (List.range 32) (fun c q => sendState 3 c (channelWords q.mono (channelAt q c)) q) s
  let q := forEach s.forces (fun f q => sendState 5 0 (forceWords f) q) (sendState 7 0 [] q)
  let q := forEach allStalls (fun k q => sendState 6 k.val (breakWords q.stalls[k]) q) q
  let q := sendState 4 0 (controlWords q) q
  modRed (fun r => { r with pstate := .confirming, confirmFrom := some q.mono, copyShadow := [] }) q

/-- A Market copied in its window: its dirty pages and its tasks; its retained releases count as settled, and from here on the standby follows its tasks (R401 item 2). -/
def copyMarket (m : MarketId) (s : State) : State :=
  if !copying s || s.red.marketCopied[m] then s
  else
    let q := forEach (dirtyIn s m) sendPage s
    let q := forEach (q.tasks.filter (fun x => x.e.market == m)) (fun x q => sendState 0 x.e.id.toNat (taskWords x) q) q
    let q := forEach allTills (fun t q =>
      if marketOf t.stall == m && (tillAt q t).area == .retained then markSettled (tillAt q t).rel.task (tillAt q t).rel.relnum q
      else q) q
    let q := modRed (fun r => { r with marketCopied := r.marketCopied.set m true }) q
    if q.red.marketCopied.toList.all id then finishCopy q else q

/-! ### Mirrored epochs (R398) -/

/-- The closing piece of a mirrored epoch: ARMED, the project identity, and the CRC-32 of the data (R377, R398). -/
def closeEpoch (s : State) : State :=
  let b := s.red.epochBuild
  modRed (fun r => { r with epochBuild := (b.1, []) })
    (linkSend 10 b.1 (bytesOfWords [flag 0 true, flag 0 s.ctl.armed, s.project.id, field 0 (crc32 b.2).toNat]) s)

/-- The next part of a mirrored epoch read in a window of its Market and sent; after the last part the epoch is closed (R398). -/
def copyEpoch (m : MarketId) (s : State) : State :=
  match s.red.epochPlan with
  | [] => s
  | (k, a, n) :: rest =>
    if k ≠ m.val then s
    else
      let bs := readZeroed s a n
      let b := s.red.epochBuild
      let q := forEach (pieces 4080 bs) (fun p q => linkSend 10 b.1 (bytesOfWord 0 ++ p.2) q) s
      let q := modRed (fun r => { r with epochPlan := rest, epochBuild := (b.1, b.2 ++ bs) }) q
      if rest.isEmpty then closeEpoch q else q

end Sys2Proof.Machine
end

