-- ==== Sys2Proof/Machine/Change.lean ====
section
/-!
DEFINITION. Online change: the checks of a change package, exchange windows, the prepare steps and the switch of a Market with its migration, and the commands CHANGE_LOAD, CHANGE_APPLY, CHANGE_ABORT and XWRITE (R168 to R187, R195, R388, R509, R510).
-/
namespace Sys2Proof.Machine

/-! ### What a package changes (R168, R169, R179, R182) -/

/-- The task table that a package leaves: its TASKTAB segment, else the one in force. -/
def newTable (s : State) (p : Package) : List TaskEntry :=
  if (segsOf p.segs 2).isEmpty then s.tasks.map Task.e else taskTable (bodyOf p.segs 2)

/-- The route table that a package leaves: its ROUTES segment, else the one in force. -/
def newRoutes (s : State) (p : Package) : List Route :=
  if (segsOf p.segs 5).isEmpty then s.project.routes else routeTable (bodyOf p.segs 5)

/-- The layout map that a package leaves in a Market: its LAYOUT segment, else the one in force. -/
def newLayout (s : State) (p : Package) (m : MarketId) : Layout :=
  match bodyFor p.segs 3 m with
  | some b => layoutOf b
  | none => s.project.layouts[m]

/-- The CODE bytes of a Market in a package, each segment with the system address it is written to (R168). -/
def codeOf (p : Package) (m : MarketId) : List Segment := (segsOf p.segs 1).filter (fun g => g.market == m)

/-- The old entry that retains a new one: same key and kind in the same Market (R182). -/
def matchOf (old : Layout) (i : Inst) : Option Inst := old.insts.find? (fun o => o.ikey == i.ikey && o.kind == i.kind)

/-- Members of an instance (R169). -/
def membersOf (l : Layout) (i : Inst) : List Member := (l.members.drop i.midx).take i.nmemb

/-- What a switch does with a new Market-memory entry: the ranges it copies, as old offset, new offset and length, and whether it takes its INIT value first (R182). -/
def migration (old new : Layout) (i : Inst) : Bool × List (Nat × Nat × Nat) :=
  match matchOf old i with
  | none => (true, [])
  | some o =>
    if i.kind = 3 then (if o.length = i.length then (false, [(o.offset, i.offset, i.length)]) else (true, []))
    else if o.tkey = i.tkey then (false, [(o.offset, i.offset, i.length)])
    else
      (true, (membersOf new i).filterMap (fun x =>
        ((membersOf old o).find? (fun y => y.mkey == x.mkey && y.width == x.width)).map (fun y =>
          (o.offset + y.offset, i.offset + x.offset, x.width))))

/-- Entries of a map that lie in Market memory. -/
def memoryEntries (l : Layout) : List Inst := l.insts.filter (fun i => i.kind != 4)

/-- Entries of a map that are symbols of the output half. -/
def outputSymbols (l : Layout) : List Inst := l.insts.filter (fun i => i.kind == 4 && i.output)

/-- A retained output symbol of the same width: its old and new bit offsets and its width in bits (R182). -/
def symbolMove (old : Layout) (i : Inst) : Option (Nat × Nat × Nat) :=
  (matchOf old i).bind (fun o => if o.output && o.length == i.length then some (o.offset, i.offset, widthBits i.length) else none)

/-- Bytes that the switch of a Market writes: table and route entries, regions, migrated instances, INIT values and moved output symbols (R174, R179; which of them count is a DESIGN CHOICE, log 37). -/
def switchBytes (s : State) (p : Package) (m : MarketId) : Nat :=
  let old := s.project.layouts[m]
  let new := newLayout s p m
  let tasks := if (segsOf p.segs 2).isEmpty then 0 else 64 * ((newTable s p).filter (fun e => e.market == m)).length
  let routes := if (segsOf p.segs 5).isEmpty then 0
    else 16 * ((newRoutes s p).filter (fun r => match entryIn (newTable s p) r.srcTask with
      | some e => e.market == m
      | none => false)).length
  let mem := if (bodyFor p.segs 3 m).isNone then 0
    else (memoryEntries new).foldl (fun n i =>
      let g := migration old new i
      n + (if g.1 then i.length else g.2.foldl (fun k x => k + x.2.2) 0)) 0
  let syms := if (bodyFor p.segs 3 m).isNone then 0 else 8 * ((outputSymbols new).filterMap (symbolMove old)).length
  tasks + routes + ((bodyFor p.segs 6 m).getD []).length + mem + syms

/-- ns of a window that writes `n` bytes: 0.5 us and 0.078125 ns per byte (R174). -/
def windowNs (n : Nat) : Nat := 500 + ceilDiv (n * 5) 64

/-- Bytes that a window of at most `us` microseconds carries (R174). -/
def windowBytes (us : Nat) : Nat := (us * 1000 - 500) * 64 / 5

/-! ### The checks of a package (R170) -/

/-- A route as its entry (R575). -/
def routeBytes (r : Route) : List Byte :=
  bytesOfWords [field 0 r.srcTask.toNat ||| field 8 r.dstMkt.val ||| field 16 r.len, field 0 r.srcOff ||| field 18 r.dstOff]

/-- The routes of a table whose Markets differ, as what may not change (R170). -/
def crossRoutes (tasks : List TaskEntry) (l : List Route) : List (TaskId × MarketId × Nat × Nat) :=
  l.filterMap (fun r => match entryIn tasks r.srcTask with
    | some e => if e.market == r.dstMkt then none else some (r.srcTask, r.dstMkt, r.len, r.dstOff)
    | none => none)

/-- Two lists hold the same elements the same number of times. -/
def sameElements {α : Type} [BEq α] (a b : List α) : Bool :=
  a.length == b.length && a.all (fun x => a.count x == b.count x)

/-- Ranges of image halves that frames and the field die use: half, Market, offset, length (R170, R287, R305, R306). -/
def ioRanges (s : State) : List (Bool × Nat × Nat × Nat) :=
  (schedRanges s.net.sched ++ sampleRanges s.project.fieldcfg).map (fun r => (false, r.1, r.2.1, r.2.2)) ++
    (s.net.sched.filter SchedEntry.freshen).map (fun e => (false, e.freshMkt, e.freshBit / 8, 1)) ++
    (s.net.sched.filter (fun e => !e.rx)).flatMap (fun e => e.content.filterMap (fun c => match c with
      | .image m len off => some (true, m, off, len)
      | .axis _ _ _ => none)) ++
    (if s.project.fieldcfg.isEmpty then []
     else
      let v := fieldValueIn s.project.fieldcfg 8
      [(true, bits v 23 22, bits v 41 24, 16 + 16 * bits v 45 42)])

/-- A symbol lies in one of those ranges. -/
def symbolMapped (l : List (Bool × Nat × Nat × Nat)) (m : MarketId) (i : Inst) : Bool :=
  l.any (fun r => r.1 == i.output && r.2.1 == m.val && meets i.offset (widthBits i.length) (8 * r.2.2.1) (8 * r.2.2.2))

/-- A change moves a symbol into or out of frame data or field channels (R170; log 38). -/
def iomapChanged (s : State) (p : Package) : Bool :=
  let io := ioRanges s
  allMarkets.any (fun m =>
    (bodyFor p.segs 3 m).isSome && (newLayout s p m).insts.any (fun i => i.kind == 4 && (match matchOf s.project.layouts[m] i with
      | some o => !(o.offset == i.offset && o.length == i.length && o.output == i.output) && (symbolMapped io m o || symbolMapped io m i)
      | none => false)))

/-- A CODE segment of a package writes a range that the project's code takes (R170; log 38). -/
def codeOverlaps (s : State) (p : Package) : Bool :=
  (segsOf p.segs 1).any (fun g => s.project.code.any (fun h =>
    g.stall == h.stall && !apart (codeRange g).1 (codeRange g).2 (codeRange h).1 (codeRange h).2))

/-- WLENMAX of every Market (R175). -/
def windowLimits (s : State) : Vector Nat 4 := s.markets.map (fun m => bits m.xwin 7 0)

/-- The switch of every Market fits one window of its WLENMAX (R170, R174). -/
def switchesFit (s : State) (p : Package) : Bool :=
  allMarkets.all (fun m => decide (switchBytes s p m ≤ windowBytes (windowLimits s)[m]))

/-- Longest package: 1,536 KB (R168). -/
def packageMax : Nat := 1536 * 1024

/-- A package from its plain body, without the checks against the machine. -/
def readPackage (raw body : List Byte) : Option Package :=
  (packageForm body).map (fun l => { baseId := wordAt body 8, newId := wordAt body 16, segs := l, bytes := raw })

/-- The checks of a package against the running project, in the order of R170. -/
def packageChecks (s : State) (p : Package) : Bad :=
  let tasks := newTable s p
  let routes := newRoutes s p
  let written := schedRanges s.net.sched ++ sampleRanges s.project.fieldcfg
  firstBad [
    need (s.project.loaded && p.baseId == s.project.id) 0x2A,
    if (segsOf p.segs 2).isEmpty then none else checkTasks (bodyOf p.segs 2),
    checkRoutes tasks written (if (segsOf p.segs 5).isEmpty then routes.flatMap routeBytes else bodyOf p.segs 5),
    need (sameElements (crossRoutes (s.tasks.map Task.e) s.project.routes) (crossRoutes tasks routes)) 0x2B,
    need (!iomapChanged s p) 0x2C,
    need (!codeOverlaps s p) 0x2D,
    need (switchesFit s p) 0x2E]

/-- A package with its wrapper judged: the package, or the status and index that refuse it (R170, R496, R510). -/
def judgePackage (raw : List Byte) (s : State) : Except (Nat × Nat) Package :=
  match acceptImage s.nvs 3 raw with
  | .error st => .error (st, 0)
  | .ok body =>
    if packageMax < bits (wordAt body 24) 31 0 then .error (0x27, 0)
    else match readPackage raw body with
    | none => .error (0x28, 0)
    | some p =>
      if !packageDigest body then .error (0x29, 0)
      else match packageChecks s p with
      | some e => .error e
      | none => .ok p

/-! ### Exchange windows (R172 to R174) -/

/-- The change phase of a Market (R176). -/
def setPhase (m : MarketId) (n : Nat) (s : State) : State := modMarket m (fun k => { k with phase := n }) s

/-- The change phase of every Market. -/
def setPhases (n : Nat) (s : State) : State := forEach allMarkets (fun m q => setPhase m n q) s

/-- A Market has no window requested or open. -/
def windowFree (s : State) (m : MarketId) : Bool := s.markets[m].winReq.isNone && s.markets[m].winOpen.isNone

/-- The Teller requests a window of a length (R172). -/
def askWindow (m : MarketId) (use : WinUse) (len : Nat) (s : State) : State :=
  modMarket m (fun k => { k with winReq := some { use := use, len := len, at_ := s.mono } }) s

/-- A change's next window is requested when its Market has none (R179); a standby switches with its active instead (R388). -/
def changeKick (s : State) : State :=
  if isStandby s then s
  else match s.change, s.package with
  | some c, some p =>
    (match c.step with
    | .preparing m (n :: _) => if windowFree s (Fin.ofNat 4 m) then askWindow (Fin.ofNat 4 m) .prepare (windowNs n) s else s
    | .switching m =>
      if windowFree s (Fin.ofNat 4 m) then askWindow (Fin.ofNat 4 m) .switch (windowNs (switchBytes s p (Fin.ofNat 4 m))) s else s
    | _ => s)
  | _, _ => s

/-- The next release instant of a task that is still to come, in RUN and HOLD (R44, R172). -/
def instantWithin (s : State) (m : MarketId) (ns : Nat) : Bool :=
  (s.ctl.mode == .run || s.ctl.mode == .hold) && s.clock.set && s.tasks.any (fun x =>
    x.e.market == m && !x.e.event && decide (nextInstant s x.e * 31250 ≤ nowT s + ns))

/-- The conditions of R172 hold in a Market for a window of a length. -/
def windowMay (s : State) (m : MarketId) (len : Nat) : Bool :=
  allStalls.all (fun k => marketOf k != m || ((liveTill s k).isNone && s.stalls[k].pend.isEmpty && !latchHeld s k)) &&
    !s.signals.any (fun g => (entryOf s g.task).market == m) && !instantWithin s m (len + 1000)

/-- WINDOW_OPEN: a requested window opens when R172 allows it; every speculative release of the Market is squashed. -/
def execWindowOpen (m : MarketId) (s : State) : Out :=
  match s.markets[m].winReq, s.markets[m].winOpen with
  | some w, none =>
    if windowMay s m w.len then
      let q := squashWhere (fun _ t => marketOf t.stall == m) s
      ok (modMarket m (fun k => { k with
        winReq := none, winOpen := some { w with at_ := q.mono }, xcnt := (k.xcnt + 1) % 2 ^ 64 }) q)
    else ok s
  | _, _ => ok s

/-! ### The switch of a Market (R179, R182, R183, R187, R195) -/

/-- The task table after the switch of Market `m`: switched Markets run the new entries, the others the old ones (R179, R180). -/
def switchTasks (p : Package) (m : MarketId) (s : State) : State :=
  let keep := s.tasks.filter (fun x => decide (m.val < x.e.market.val))
  let fresh_ := (newTable s p).filter (fun e => decide (e.market.val ≤ m.val) && !keep.any (fun x => x.e.id == e.id))
  let install (e : TaskEntry) : Task :=
    match s.tasks.find? (fun x => x.e.id == e.id && x.e.market == e.market) with
    | some x => { x with e := e, firstAfterChange := x.firstAfterChange || e.market == m }
    | none => { Task.fresh e with firstAfterChange := true }
  { s with tasks := fresh_.map install ++ keep }

/-- A bank transaction of a route follows its route to its new place in the table. -/
def followRoute (place : Nat → Option Nat) (x : BankTx) : Option BankTx :=
  match x.kind with
  | .gather (.route t i) rs => (place i).map (fun j => { x with kind := .gather (.route t j) rs })
  | _ => some x

/-- The route table after the switch of Market `m`; what is due for a route that stays is still done (R179). -/
def switchRoutes (p : Package) (m : MarketId) (s : State) : State :=
  let src (l : List TaskEntry) (r : Route) : Nat := match entryIn l r.srcTask with
    | some e => e.market.val
    | none => 4
  let old := s.project.routes
  let new := (newRoutes s p).filter (fun r => decide (src (newTable s p) r ≤ m.val)) ++
    old.filter (fun r => decide (m.val < src (s.tasks.map Task.e) r))
  let place (i : Nat) : Option Nat := match old[i]? with
    | some r => indexWhere (fun x => decide (x = r)) new
    | none => none
  { s with
    project := { s.project with routes := new }
    routeJobs := s.routeJobs.filterMap place
    markets := s.markets.map (fun k => { k with queue := k.queue.filterMap (followRoute place), active := k.active.bind (followRoute place) }) }

/-- A Market-memory range at its initial value: zero, then what the package's INIT pairs give for its bytes (R168, R182). -/
def initRange (p : Package) (m : MarketId) (off n : Nat) (s : State) : State :=
  let a := marketBase m.val
  let q := zeroRange s (a + off) n
  forEach (initsOf ((bodyFor p.segs 4 m).getD [])) (fun x q =>
    forEach (enumFrom x.1 x.2) (fun b q =>
      if off ≤ b.1 && b.1 < off + n then putBytes q (a + b.1) [b.2] else q) q) q

/-- A copied range at its new place; damaged words stay damaged and are reported (R183; log 39). -/
def copyRange (m : MarketId) (old : State) (x : Nat × Nat × Nat) (s : State) : State :=
  let a := marketBase m.val
  let bad := ueAll old (a + x.1) x.2.2
  let q := clearUeRange (putBytes s (a + x.2.1) (readBytes old (a + x.1) x.2.2)) (a + x.2.1) x.2.2
  forEach bad (fun w q => memUe w (markUe q (a + x.2.1 + (w - (a + x.1))))) q

/-- Instances, members and variables of a Market migrated: initial values first, then every copy from the old content (R182, R183). -/
def migrate (p : Package) (m : MarketId) (s : State) : State :=
  let old := s.project.layouts[m]
  let new := newLayout s p m
  let l := (memoryEntries new).map (fun i => (i, migration old new i))
  let q := forEach l (fun x q => if x.2.1 then initRange p m x.1.offset x.1.length q else q) s
  forEach l (fun x q => forEach x.2.2 (fun c q => copyRange m s c q) q) q

/-- Bits of an image half as a number. -/
def imageBits (s : State) (m off n : Nat) : Nat := (natOfBytes (readBytes s (outBase m + off / 8) (ceilDiv (off % 8 + n) 8)) >>> (off % 8)) % 2 ^ n

/-- Bits of an output half written, others of the word kept. -/
def putImageBits (m off n v : Nat) (s : State) : State :=
  let a := outBase m + off / 64 * 8
  putBytes s a (bytesOfWord (putBits (readWord s a) (off % 64 + n - 1) (off % 64) v))

/-- Retained output symbols moved, and every output word outside the sections of the Market's tasks set to zero (R179, R182, R183). -/
def moveSymbols (p : Package) (m : MarketId) (s : State) : State :=
  let moves := (outputSymbols (newLayout s p m)).filterMap (symbolMove s.project.layouts[m])
  let q := forEach moves (fun x q => putImageBits m.val x.2.1 x.2.2 (imageBits s m.val x.1 x.2.2) q) s
  let inSection (off : Nat) : Bool := (newTable s p).any (fun e =>
    e.market == m && decide (e.outOff ≤ off) && decide (off < e.outOff + e.outLen))
  let a := outBase m.val
  let stays (x : Nat) : Bool := decide (x < a) || decide (a + 0x4_0000 ≤ x) || inSection (x - a)
  { q with mem := q.mem.filter (fun c => stays c.1), ue := q.ue.filter stays }

/-- The force table of a Market against its new map: moved with its symbol, or dropped (R195). -/
def switchForces (p : Package) (m : MarketId) (s : State) : State :=
  let new := newLayout s p m
  let place (f : Force) : Option Inst :=
    new.insts.find? (fun i => i.ikey == f.skey && i.kind == 4 && i.length == f.width)
  let kept := s.forces.filterMap (fun f =>
    if f.market != m then some f else (place f).map (fun i => { f with bitoff := i.offset, output := i.output }))
  let gone := s.forces.filter (fun f => f.market == m && (place f).isNone)
  let q := { s with forces := kept }
  let q := forEach gone (fun f q => raise q 0x010A 1 f.skey f.value) q
  forEach kept (fun f q =>
    if f.market == m && f.output then putImageBits m.val f.bitoff (widthBits f.width) f.value.toNat q else q) q

/-- Retained, new and discarded instances of a switch: map entries of KIND 0 to 2 (R179 step 4, R182; log 37). -/
def instanceCounts (old new : Layout) : Nat × Nat × Nat :=
  let a := old.insts.filter (fun i => decide (i.kind ≤ 2))
  let b := new.insts.filter (fun i => decide (i.kind ≤ 2))
  let kept := (b.filter (fun i => (matchOf old i).isSome)).length
  (kept, b.length - kept, (a.filter (fun o => !(b.any (fun i => i.ikey == o.ikey && i.kind == o.kind)))).length)

/-- Everything that the switch of a Market does in its window (R179 step 3). -/
def switchMarket (p : Package) (m : MarketId) (s : State) : State :=
  let new := newLayout s p m
  let mapped := (bodyFor p.segs 3 m).isSome
  let q := switchTasks p m (switchRoutes p m s)
  let q := if mapped then migrate p m q else q
  let q := moveSymbols p m q
  let q := if mapped then switchForces p m q else q
  let q := { q with project := { q.project with
      layouts := q.project.layouts.set m new, code := q.project.code ++ codeOf p m
      regions := (match bodyFor p.segs 6 m with
        | some b => q.project.regions.filter (fun r => r.market != m) ++ regionList b
        | none => q.project.regions) } }
  forEach allTills (fun t q =>
    if marketOf t.stall == m && (tillAt q t).area == .retained then modTill t (fun _ => Till.idle) q else q) q

/-- A whole package applied with nothing running, as at a start (R509 step 3). -/
def applyPackage (p : Package) (s : State) : State :=
  let q := forEach allMarkets (fun m q => switchMarket p m (forEach (codeOf p m) writeCode q)) s
  { q with project := { q.project with id := p.newId }, tasks := q.tasks.map (fun x => { x with firstAfterChange := false }) }

/-! ### The course of a change (R174, R179, R181) -/

/-- Sizes of the windows that write `n` bytes of code with at most `cap` in each (R174, R179 step 2). -/
def splitWindows : Nat → Nat → Nat → List Nat
  | 0, _, _ => []
  | fuel + 1, cap, n => if n = 0 then [] else min cap n :: splitWindows fuel cap (n - cap)

/-- The prepare windows of a Market. -/
def prepareSizes (c : Change) (p : Package) (m : Nat) : List Nat :=
  let n := (codeOf p (Fin.ofNat 4 m)).foldl (fun k g => k + (codeRange g).2) 0
  splitWindows n (max 8 (windowBytes (vget c.wlenmax m 1))) n

/-- The change reaches its next step: the prepare windows of the Markets in order, then their switches in order (R179). -/
def changeStep : Nat → Nat → Package → State → State
  | 0, _, _, s => setPhases 3 (match s.change with
    | some c => { s with change := some { c with step := .switching 0 } }
    | none => s)
  | fuel + 1, m, p, s =>
    match s.change with
    | none => s
    | some c =>
      match prepareSizes c p m with
      | [] => changeStep fuel (m + 1) p (setPhase (Fin.ofNat 4 m) 3 s)
      | l => { s with change := some { c with step := .preparing m l } }

/-- The bytes of the prepare window that has `rest` behind it, as addresses and values (R179 step 2). -/
def prepareCells (c : Change) (p : Package) (m : Nat) (size : Nat) (rest : List Nat) : List (Nat × Byte) :=
  let cells := (codeOf p (Fin.ofNat 4 m)).flatMap (fun g =>
    enumFrom (progBase g.stall.val + (codeRange g).1) (g.body.drop 8))
  let total := (prepareSizes c p m).foldl (· + ·) 0
  ((cells.drop (total - size - rest.foldl (· + ·) 0)).take size)

/-- A change ends without an effect: its command completes, the package stays loaded, and the standby is told (R179, R388). -/
def changeFail (status : Nat) (s : State) : State :=
  match s.change with
  | some c =>
    setPhases 1 (finishBusy c.ring status 0 0 (forwardCommand 0 0xFFFD [0, 0, 0, 0, 0] [] { s with change := none }))
  | none => s

/-- The change is complete: the new project is current, and CHANGE_DONE is reported (R179 step 4). -/
def changeDone (s : State) : State :=
  match s.change, s.package with
  | some c, some p =>
    let slot := otherPrj s.nvs
    let cur := curPrj s.nvs
    let q := setPrj slot { image := cur.image, chain := cur.chain ++ [wrapperOf p.bytes] } s
    let q := modNvs (fun n => { n with prjcur := slot }) q
    let q := setPhases 0 { q with change := none, package := none, project := { q.project with id := p.newId } }
    let q := raise q 0x0108 0 (field 0 c.retained) (field 0 c.fresh) (field 0 c.discarded) p.newId
    finishBusy c.ring 0 (field 0 (c.retained % 2 ^ 24) ||| field 24 (c.fresh % 2 ^ 24)) (field 0 (c.discarded % 2 ^ 24)) q
  | _, _ => s

/-- Stalls that a switch has given their first task are woken while the Exchange runs (R20; log 40). -/
def wakeNew (s : State) : State :=
  if s.ctl.mode == .run || s.ctl.mode == .hold then
    forEach (sleepers s) (fun k q =>
      if q.stalls[k].wakeGrant.isSome || q.purse.waiting.any (fun r => r.src == 2 && r.who == k.val) then q else askWake k q) s
  else s

/-- The switch of a Market: its effect, its counts, and the next step; the active tells its standby (R179, R388). -/
def doSwitch (m : MarketId) (s : State) : State :=
  match s.change, s.package with
  | some c, some p =>
    let n := instanceCounts s.project.layouts[m] (newLayout s p m)
    let q := forwardCommand 0 0xFFFE [field 0 m.val, 0, 0, 0, 0] [] (setPhase m 4 (switchMarket p m s))
    let q := forEach allStalls sleepIfHeld (wakeNew { q with change := some { c with
      retained := c.retained + n.1, fresh := c.fresh + n.2.1, discarded := c.discarded + n.2.2, switched := true
      step := .switching (m.val + 1) } })
    wdgNotice (if m.val = 3 then changeDone q else q)
  | _, _ => s

/-- What the Teller writes or reads in a window (R178, R179, R398, R401). -/
def windowEffect (m : MarketId) (w : Window) (s : State) : State :=
  match w.use with
  | .xwrite cmd off data =>
    finish cmd 0 (field 0 w.len) 0 (forwardCmd 0 cmd data (marketWrite none (marketBase m.val + off) data s))
  | .switch => doSwitch m s
  | .copy => copyMarket m s
  | .epoch => copyEpoch m s
  | .prepare =>
    match s.change, s.package with
    | some c, some p =>
      (match c.step with
      | .preparing k (size :: rest) =>
        if k ≠ m.val then s
        else
          let q := forEach (prepareCells c p k size rest) (fun x q => putBytes q x.1 [x.2]) s
          let q := forEach (codeOf p m) (fun g q => clearUeRange q (progBase g.stall.val + (codeRange g).1) (codeRange g).2) q
          if rest.isEmpty then changeStep (3 - k) (k + 1) p (setPhase m 3 q)
          else { q with change := some { c with step := .preparing k rest } }
      | _ => s)
    | _, _ => s

/-- WINDOW_CLOSE: the window's writes are done, and what waited for its end goes on (R172, R178, R179). -/
def execWindowClose (m : MarketId) (s : State) : Out :=
  match s.markets[m].winOpen with
  | none => ok s
  | some w =>
    let q := untilMono (w.at_ + w.len) s
    let q := windowEffect m w (modMarket m (fun k => { k with winOpen := none, lastlen := satTo 18 w.len }) q)
    ok (changeKick (forEach allStalls (fun k q => if marketOf k == m then dispatchBest k q else q) q))

/-- ms that a window request waits: the sampled TMO of a change, else the Market's (R174, R175). -/
def windowTmo (s : State) (m : MarketId) (w : Window) : Nat :=
  match w.use, s.change with
  | .xwrite _ _ _, _ => bits s.markets[m].xwin 15 8
  | .copy, _ => bits s.markets[m].xwin 15 8
  | .epoch, _ => bits s.markets[m].xwin 15 8
  | _, some c => c.tmo[m]
  | _, none => bits s.markets[m].xwin 15 8

/-- WINDOW_TIMEOUT: a request fails with NO_WINDOW, or, after the first switch, is reported and repeated; one of a pair's copy is made again (R178, R179; log 44). -/
def execWindowTimeout (m : MarketId) (s : State) : Out :=
  match s.markets[m].winReq with
  | none => ok s
  | some w =>
    let q := untilMono (w.at_ + windowTmo s m w * 1000000) s
    let drop (q : State) : State := modMarket m (fun k => { k with winReq := none }) q
    match w.use with
    | .xwrite cmd _ _ => ok (changeKick (finish cmd 0x31 0 0 (drop q)))
    | .copy => ok (changeKick (drop q))
    | .epoch => ok (changeKick (drop q))
    | _ =>
      if (match q.change with
        | some c => c.switched
        | none => false) then
        ok (raise (modMarket m (fun k => { k with winReq := some { w with at_ := q.mono } }) q) 0x0109 1 (field 0 m.val))
      else ok (changeFail 0x31 (drop q))

/-! ### The commands (R170, R171, R178, R510) -/

/-- A package is being copied into staging. -/
def stagingBusy (s : State) : Bool := flashUses s (fun u => match u with
  | .image c => c.opcode == 0x19
  | _ => false)

/-- The chain of the current slot cannot take a package of a length (R510). -/
def chainFull (n : Nvs) (len : Nat) : Bool :=
  decide (31 ≤ (curPrj n).chain.length) || decide (prjSectors * sectorSize < prjUsed (curPrj n) + padded len)

/-- CHANGE_LOAD: the package is copied into staging, unless one is loaded, the chain is full or it is too long (R170, R510). -/
def execChangeLoad (ring : Fin 16) (data : List Byte) (s : State) : Out :=
  onRing ring.val 0x19 s (fun c q =>
    let len := bits (opnd c 2) 31 0
    dataCommand c (reservedZero c [BitVec.allOnes 64, lowMask 32]) (notOnStandby c (fun q =>
      if testFailed q then finish c 6 0 0 q
      else if q.package.isSome || q.change.isSome || stagingBusy q then finish c 0x26 0 0 q
      else if chainFull q.nvs len then finish c 0x8C 0 0 q
      else if packageMax + 256 < len then finish c 0x27 0 0 q
      else takeBytes c (opnd c 1) len data (fun bs q =>
        beginImage c stagingBase stagingSectors bs (forwardCmd 0 c bs (accept c q))) q)) q)

/-- The package stands in staging: it is verified, checked and loaded, or refused (R170, R510). -/
def packageWritten (c : Cmd) (s : State) : State :=
  match judgePackage (flashBytes s stagingBase (bits (opnd c 2) 31 0)) s with
  | .error e => finish c e.1 (field 0 e.2) 0 s
  | .ok p => finish c 0 0 0 (setPhases 1 { s with package := some p })

/-- The other slot is written with the current image, its chain and the package (R179 step 1). -/
def writeChange (c : Cmd) (p : Package) (s : State) : State :=
  let parts := (prjParts (refreshedView s) s.nvs.prjcur (curPrj s.nvs)).map padImage
  writeImage c (prjBase (otherPrj s.nvs)) prjSectors (parts.flatMap id ++ p.bytes) s

/-- A change begins: limits sampled, the other slot written (R174, R179). -/
def beginChange (c : Cmd) (p : Package) (s : State) : State :=
  let ch : Change := {
    ring := c.ring, step := .writing, wlenmax := windowLimits s, tmo := s.markets.map (fun m => bits m.xwin 15 8)
    retained := 0, fresh := 0, discarded := 0, switched := false }
  writeChange c p (setPhases 2 { s with change := some ch })

/-- CHANGE_APPLY: refused while a task is frozen, without a package, in HELD, and while a change is in progress (R171, R179; log 40). -/
def execChangeApply (ring : Fin 16) (s : State) : Out :=
  onRing ring.val 0x1A s (fun c q =>
    if !reservedZero c [] then finish c 2 0 0 q
    else notOnStandby c (fun q =>
      if q.ctl.mode == .held then finish c 6 0 0 q
      else if anyFrozen q then finish c 0x14 0 0 q
      else match q.package with
      | none => finish c 0x2F 0 0 q
      | some p =>
        if q.change.isSome then finish c 0x26 0 0 q
        else if !switchesFit q p then finish c 0x2E 0 0 q
        else if prjBusy q then q
        else beginChange c p (forwardCmd 0 c [] (accept c q))) q)

/-- The other slot holds the resulting project, or could not be programmed: the prepare steps begin, or the change ends (R179). -/
def changeWritten (good : Bool) (s : State) : State :=
  match s.change, s.package with
  | some c, some p =>
    if c.step != .writing then s
    else if !good then changeFail 0x85 s
    else if isStandby s then { s with change := some { c with step := .switching 0 } }
    else changeKick (changeStep 4 0 p s)
  | _, _ => s

/-- The first switch of a change has begun (R171). -/
def switchBegun (s : State) : Bool :=
  (match s.change with
  | some c => c.switched
  | none => false) ||
  s.markets.toList.any (fun k => match k.winOpen with
    | some w => w.use == .switch
    | none => false)

/-- The loaded package is discarded; a change in progress ends with ABORTED (R171; log 40). -/
def discardPackage (s : State) : State :=
  let q := modNvs (fun n => { n with queue := n.queue.filter (fun j => match j.user with
    | .image c => c.opcode != 0x1A
    | _ => true) }) s
  let own (w : Window) : Bool := w.use == .prepare || w.use == .switch
  let q := { q with markets := q.markets.map (fun k => { k with winReq := k.winReq.filter (fun w => !own w) }) }
  setPhases 0 { changeFail 5 q with package := none }

/-- CHANGE_ABORT: TOO_LATE after the first switch has begun (R171). -/
def execChangeAbort (ring : Fin 16) (s : State) : Out :=
  onRing ring.val 0x1B s (fun c q =>
    if !reservedZero c [] then finish c 2 0 0 q
    else notOnStandby c (fun q =>
      if testFailed q then finish c 6 0 0 q
      else if q.package.isNone then finish c 0x2F 0 0 q
      else if switchBegun q then finish c 0x30 0 0 q
      else finish c 0 0 0 (discardPackage (forwardCmd 0 c [] q))) q)

/-- Bytes that an XWRITE may write in a Market: what a window of its WLENMAX carries, and at most 262,136 (R178). -/
def xwriteMax (s : State) (m : MarketId) : Nat := min 262136 (windowBytes (bits s.markets[m].xwin 7 0))

/-- XWRITE: a window of its Market is requested for its bytes (R178, R351, R388). -/
def execXwrite (ring : Fin 16) (data : List Byte) (s : State) : Out :=
  onRing ring.val 0x1C s (fun c q =>
    let len := bits (opnd c 2) 17 0
    let m : MarketId := Fin.ofNat 4 (bits (opnd c 2) 19 18)
    let off := bits (opnd c 3) 21 0
    dataCommand c (reservedZero c [BitVec.allOnes 64, lowMask 20, lowMask 22] && mult len 8 && mult off 8 &&
        decide (len ≤ xwriteMax q m)) (notOnStandby c (fun q =>
      if 2 ^ 22 < off + len then finish c 3 0 0 q
      else if !windowFree q m then q
      else takeBytes c (opnd c 1) len data (fun bs q =>
        askWindow m (.xwrite c off bs) (windowNs len) (accept c q)) q)) q)

end Sys2Proof.Machine
end

