-- ==== Sys2Proof/Machine/Firmware.lean ====
section
/-!
DEFINITION. Firmware slots and update: FW_LOAD, FW_ACTIVATE, FW_ACCEPT, PROJECT_STORE, the exchange of engine classes, and recovery by mailbox and by port 0 (R497, R502 to R508, R512 to R515, R519).
-/
namespace Sys2Proof.Machine

/-! ### Slots (R502, R504, R519) -/

/-- A firmware slot changed. -/
def modFw (slot : Nat) (f : FwSlot → FwSlot) (s : State) : State :=
  modNvs (fun n => if slot = 0 then { n with fwA := f n.fwA } else { n with fwB := f n.fwB }) s

/-- The state of a firmware slot (R502). -/
def fwState (s : State) (slot : Nat) : Nat := (fwSlot s.nvs slot).state

/-- Both slots, the one that does not run first. -/
def fwOrder (s : State) : List Nat := [1 - s.nvs.fwrun, s.nvs.fwrun]

/-- A slot in a state, the one that does not run first. -/
def slotIn (s : State) (st : Nat) : Option Nat := (fwOrder s).find? (fun k => fwState s k == st)

/-- The slot that FW_LOAD writes: neither CURRENT nor TRIAL (R504). -/
def loadTarget (s : State) : Option Nat := (fwOrder s).find? (fun k => fwState s k != 4 && fwState s k != 3)

/-- A refresh of a sector of a firmware slot is in progress. -/
def fwRefreshing (s : State) (slot : Nat) : Bool := refreshIn s (sectorOf (fwBase slot)) (sectorOf (fwBase slot) + fwSectors - 1)

/-- FW_LOAD, FW_ACTIVATE, PROJECT_STORE or CHANGE_APPLY is in progress (R519). -/
def updateBusy (s : State) : Bool :=
  s.change.isSome || s.nvs.live.isSome || flashUses s (fun u => match u with
    | .image c => c.opcode == 0x68 || c.opcode == 0x70
    | _ => false)

/-! ### FW_LOAD (R504) -/

/-- FW_LOAD: the slot is set to EMPTY, erased and programmed (R504, R519). -/
def execFwLoad (ring : Fin 16) (data : List Byte) (s : State) : Out :=
  onRing ring.val 0x68 s (fun c q =>
    dataOn 6 c (reservedZero c [BitVec.allOnes 64, lowMask 32]) (fun q =>
      match loadTarget q with
      | none => finish c 6 0 0 q
      | some k =>
        if updateBusy q || fwRefreshing q k then finish c 0x89 0 0 q
        else takeOn 6 c (opnd c 1) (bits (opnd c 2) 31 0) data (fun bs q =>
          beginImage c (fwBase k) fwSectors bs (modFw k (fun _ => FwSlot.empty) (accept c q))) q) q)

/-- The image of a FW_LOAD stands in flash: verified, it makes the slot LOADED (R504 steps 3 and 4). -/
def firmwareWritten (c : Cmd) (s : State) : State :=
  match loadTarget s with
  | none => finish c 6 0 0 s
  | some k =>
    let raw := flashBytes s (fwBase k) (bits (opnd c 2) 31 0)
    match acceptImage s.nvs 1 raw with
    | .error st => finish c st 0 0 s
    | .ok _ => finish c 0 (field 0 k) 0 (modFw k (fun _ => { state := 1, hdr := some (wrapperOf raw) }) s)

/-! ### FW_ACTIVATE and FW_ACCEPT (R505 to R508) -/

/-- The groups in error of a firmware slot are reported (R474). -/
def reportSlot (slot : Nat) (s : State) : State := reportFlash (fwBase slot) (fwSectors * sectorSize) s

/-- A slot becomes REJECTED, and FW_FALLBACK is raised with its reason: 0 RESET, 1 SETTINGS, 2 VERIFY (R503, R507, R520). -/
def rejectSlot (slot reason : Nat) (s : State) : State :=
  raise (modFw slot (fun f => { f with state := 6 }) s) 0x0A07 2 (field 0 slot) (field 0 reason)

/-- The engine code of a firmware body in one half of each code region (R497, R509). -/
def loadEngines (half : Nat) (l : List (Nat × List Byte)) (s : State) : State :=
  let code (ty : Nat) : List Byte := match l.find? (fun g => g.1 == ty) with
    | some g => fitBytes 0x1_0000 g.2
    | none => []
  let put (a : Nat) (bs : List Byte) (q : State) : State := clearUeRange (putBytes q a bs) a bs.length
  let q := forEach (List.range 8) (fun e q => put (motBase e + 0x6_0000 + half * 0x1_0000) (code 2) q) s
  forEach (List.range 2) (fun k q => put (netBase k + 0xE_0000 + half * 0x1_0000) (code 3) q) q

/-- A live activation up to the hand-over: the new segments in the idle halves, the settings read; then the engine classes are exchanged (R507 steps 1 to 3). -/
def goLive (c : Cmd) (slot : Nat) (s : State) : State :=
  match (fwBody s slot).bind firmwareSegs with
  | none => finish c 0x87 0 0 (rejectSlot slot 2 (reportSlot slot s))
  | some l =>
    let q := loadEngines (1 - s.nvs.half) l s
    if Config.settingsReadable (fwRaw q slot) then
      modNvs (fun n => { n with live := some { slot := slot, ring := c.ring, step := 0, lastSwap := q.clock.ticknum } })
        (modFw slot (fun f => { f with state := 3 }) (accept c q))
    else finish c 0x91 0 0 (rejectSlot slot 1 q)

/-- FW_ACTIVATE: a LOADED slot becomes PENDING and the device is reset, or is exchanged live (R505, R507, R519). -/
def execFwActivate (ring : Fin 16) (s : State) : Out :=
  onRing ring.val 0x69 s (fun c q =>
    if !reservedZero c [lowMask 1] then finish c 2 0 0 q
    else match slotIn q 1 with
    | none => finish c (if updateBusy q then 0x89 else 6) 0 0 q
    | some k =>
      if updateBusy q || fwRefreshing q k then finish c 0x89 0 0 q
      else if bit (opnd c 1) 0 then
        if !(fwHeader q.nvs k).liveok then finish c 0x8B 0 0 q
        else if q.red.pstate != .none then finish c 6 0 0 q
        else goLive c k q
      else wantRestart .update (finish c 0 (field 0 k) 0 (modFw k (fun f => { f with state := 2 }) q)))

/-- A receive window of a lost boundary counts as a miss, as at its close (R292, R508). -/
def loseWindow (i : Nat) (s : State) : State :=
  match schedAt s i with
  | none => s
  | some e =>
    if !e.rx || e.due.isNone then s
    else
      let q := modPort e.port (fun p => { p with rxmiss := (p.rxmiss + 1) % 2 ^ 64 }) s
      let q := modSched i (fun x => { x with due := none, missRun := x.missRun + 1 }) q
      let q := if e.missRun = 0 && e.accepted.isSome then raise q 0x0401 1 (field 0 e.port) (field 0 e.frameId) else q
      if e.freshen then bankAsk (Fin.ofNat 4 e.freshMkt) (.frameWrite [] (some (e.freshBit, false))) 0 q else q

/-- The work of an engine class at the boundary that has just fired is lost (R508). -/
def loseWork (cls : Nat) (s : State) : State :=
  match cls with
  | 0 => { s with field := { s.field with tinDue := none, toutDue := none, gatherDue := none, gathering := none, gathered := none } }
  | 1 =>
    let q := forEach (List.range s.net.sched.length) loseWindow s
    { q with net := { q.net with sched := q.net.sched.map (fun e =>
        if e.rx then e else { e with due := none, gathers := 0, gathered := [], built := none }) } }
  | _ =>
    forEach (List.range 8) (fun e q => modEngine e (fun g =>
      { g with due := none, cycle := none, ecyc := if g.due.isSome then (g.ecyc + 1) % 2 ^ 64 else g.ecyc }) q) s

/-- ENGINE_SWAP: an engine class changes halves at the boundary that has just fired, at least 32 boundaries after the one before it; after the last the command completes (R507, R508). -/
def execEngineSwap (cls : Fin 3) (s : State) : Out :=
  match s.nvs.live with
  | none => ok s
  | some l =>
    let n := s.clock.ticknum
    if l.step ≠ cls.val || (l.step ≠ 0 && decide (n < l.lastSwap + 32)) then ok s
    else
      let q := raise (loseWork cls.val s) 0x0A08 0 (field 0 cls.val) (field 0 n)
      if cls = 2 then
        let q := modNvs (fun v => { v with live := none, fwrun := l.slot, half := 1 - v.half }) q
        ok (raise (finishBusy l.ring 0 (field 0 l.slot) 0 q) 0x0A05 0 (field 0 l.slot) (field 0 (fwHeader q.nvs l.slot).version) 1)
      else ok (modNvs (fun v => { v with live := some { l with step := l.step + 1, lastSwap := n } }) q)

/-- The trial slot is accepted: CURRENT, the former CURRENT is PREVIOUS, fuses are burnt and keys revoked (R505). -/
def acceptTrial (slot : Nat) (s : State) : State :=
  let h := fwHeader s.nvs slot
  let revoked : Nat := if h.signer < 4 then h.revoke &&& (15 - 2 ^ h.signer) else h.revoke
  let q := modFw (1 - slot) (fun f => if f.state = 4 then { f with state := 5 } else f) (modFw slot (fun f => { f with state := 4 }) s)
  let q := modNvs (fun n => { n with secver := max n.secver h.secver, wrevoked := n.wrevoked ||| BitVec.ofNat 4 revoked }) q
  raise q 0x0A06 0 (field 0 slot) (field 0 h.version) (field 0 (max s.nvs.secver h.secver))

/-- FW_ACCEPT: NOT_TRIAL without a slot in TRIAL (R505). -/
def execFwAccept (ring : Fin 16) (s : State) : Out :=
  onRing ring.val 0x6A s (fun c q =>
    if !reservedZero c [] then finish c 2 0 0 q
    else match slotIn q 3 with
    | none => finish c 0x8A 0 0 q
    | some k => finish c 0 (field 0 k) 0 (acceptTrial k q))

/-! ### PROJECT_STORE (R512) -/

/-- PROJECT_STORE: an image of the running project is written into the other slot (R512, R519). -/
def execProjectStore (ring : Fin 16) (data : List Byte) (s : State) : Out :=
  onRing ring.val 0x70 s (fun c q =>
    dataOn 6 c (reservedZero c [BitVec.allOnes 64, lowMask 32]) (fun q =>
      let base := sectorOf (prjBase (otherPrj q.nvs))
      if updateBusy q || refreshIn q base (base + prjSectors - 1) then finish c 0x89 0 0 q
      else if prjBusy q || flashUses q (fun u => match u with
          | .image x => x.opcode == 0x18
          | _ => false) then q
      else takeOn 6 c (opnd c 1) (bits (opnd c 2) 31 0) data (fun bs q =>
        if 256 ≤ bs.length && !(q.project.loaded && (wrapperOf bs).id == q.project.id) then finish c 0x8D 0 0 q
        else beginImage c (prjBase (otherPrj q.nvs)) prjSectors bs (accept c q)) q) q)

/-- The image of a PROJECT_STORE stands in flash: verified, its slot becomes current with an empty chain (R512). -/
def storeWritten (c : Cmd) (s : State) : State :=
  let slot := otherPrj s.nvs
  let raw := flashBytes s (prjBase slot) (bits (opnd c 2) 31 0)
  match acceptImage s.nvs 2 raw with
  | .error st => finish c st 0 0 s
  | .ok body =>
    match imageSegs (wrapperOf raw).id body with
    | none => finish c 0x87 0 0 s
    | some _ =>
      finish c 0 (field 0 slot) 0
        (modNvs (fun n => { n with prjcur := slot }) (setPrj slot { image := some (wrapperOf raw), chain := [] } s))

/-! ### Recovery (R513 to R515) -/

/-- Recovery changed. -/
def modRecovery (f : Recovery → Recovery) (s : State) : State := modNvs (fun n => { n with recovery := f n.recovery }) s

/-- A CURRENT slot that verifies (R513). -/
def currentGood (s : State) (slot : Nat) : Bool := fwState s slot == 4 && (fwBody s slot).isSome

/-- The slot that recovery writes: A, unless A is a CURRENT slot that verifies (R513). -/
def recoverySlot (s : State) : Nat := if currentGood s 0 then 1 else 0

/-- A recovery step ended: 2 DONE with status 0, or 3 ERROR with the low byte of a status (R514). -/
def recoveryEnd (err : Nat) (s : State) : State := modRecovery (fun r => { r with state := if err = 0 then 2 else 3, err := err }) s

/-- A piece of an image in ascending order without gaps; the first one erases the slot (R513, R514). The status is 0 or IMAGE_INVALID. -/
def recoveryPiece (off : Nat) (bs : List Byte) (s : State) : Nat × State :=
  let r := s.nvs.recovery
  if !mult off 8 || !mult bs.length 8 || off ≠ r.image.length || fwSectors * sectorSize < off + bs.length then (0x87, s)
  else
    let k := if off = 0 then recoverySlot s else r.slot
    let q := if off = 0 then
        eraseArea (fwBase k) fwSectors (forgetRefresh (sectorOf (fwBase k)) fwSectors (modFw k (fun _ => FwSlot.empty) s))
      else s
    let q := programNow (fwBase k + off) bs q
    (0, modRecovery (fun x => { x with image := x.image ++ bs, slot := k, verified := false }) q)

/-- The written image is verified under R496 (R513). -/
def recoveryVerify (s : State) : Nat × State :=
  let r := s.nvs.recovery
  match acceptImage s.nvs 1 (flashBytes s (fwBase r.slot) r.image.length) with
  | .error st => (st, modRecovery (fun x => { x with verified := false }) s)
  | .ok _ => (0, modRecovery (fun x => { x with verified := true }) s)

/-- The verified image is to be booted: PENDING beside a verifying CURRENT slot, else CURRENT (R513). -/
def recoveryAdopt (byPort : Bool) (s : State) : State :=
  let r := s.nvs.recovery
  let raw := flashBytes s (fwBase r.slot) r.image.length
  let st := if currentGood s (1 - r.slot) then 2 else 4
  modRecovery (fun x => { x with byPort := byPort, used := true }) (modFw r.slot (fun _ => { state := st, hdr := some (wrapperOf raw) }) s)

/-- The recovery load starts again (R514). -/
def recoveryAbort (s : State) : State :=
  modRecovery (fun r => { r with offset := 0, len := 0, window := [], state := 0, err := 0, image := [], verified := false }) s

/-- A mailbox command acts in recovery mode, and after an ERROR only ABORT does (R513, R514). -/
def mailboxActs (s : State) : Bool := s.nvs.recovery.active && s.nvs.recovery.state != 3

/-- MAILBOX_WRITE: a piece in the window, OFFSET, LEN, then CMD = WRITE (R514). -/
def execMailboxWrite (off : BitVec 32) (len : BitVec 16) (data : List Byte) (s : State) : Out :=
  if !mailboxActs s then ok s
  else
    let n := len.toNat
    let q := modRecovery (fun r => { r with offset := off.toNat, len := n, window := fitBytes n data }) s
    if n < 8 || 61440 < n then ok (recoveryEnd 0x87 q)
    else
      let r := recoveryPiece off.toNat (fitBytes n data) q
      ok (recoveryEnd r.1 r.2)

/-- MAILBOX_VERIFY (R514). -/
def execMailboxVerify (s : State) : Out :=
  if mailboxActs s then (let r := recoveryVerify s; ok (recoveryEnd r.1 r.2)) else ok s

/-- MAILBOX_BOOT: a verified image is adopted and the device resets (R513, R514; the cause is a DESIGN CHOICE, log 41). -/
def execMailboxBoot (s : State) : Out :=
  if !mailboxActs s then ok s
  else if s.nvs.recovery.verified then ok (deviceReset .update (recoveryAdopt false s))
  else ok (recoveryEnd 0x87 s)

/-- MAILBOX_ABORT (R514). -/
def execMailboxAbort (s : State) : Out := if s.nvs.recovery.active then ok (recoveryAbort s) else ok s

/-- An answer of the recovery port: FTYPE 16#11 with the tool's XID, sent to the tool (R515). -/
def recoveryAnswer (tool : Word) (op status xid : Nat) (data : List Byte) (s : State) : State :=
  let head := field 0 1 ||| field 8 0x11 ||| field 16 op ||| field 24 status ||| field 32 xid
  let l := bytesOfNat 6 tool.toNat ++ bytesOfNat 6 (portAt s 0).mac.toNat ++ [0x88, 0xB5] ++
    bytesOfWords [head, field 32 data.length] ++ data
  let l := l ++ List.replicate (60 - l.length) 0
  let bytes := l ++ bytesOfNat 4 (crc32 l).toNat
  { modRecovery (fun r => { r with lastXid := some (BitVec.ofNat 32 xid, bytes) }) s with
    net := { s.net with wire := s.net.wire ++ [{ port := 0, bytes := bytes, t := localT s }] } }

/-- A request at the recovery port: discarded outside recovery mode, answered again when its XID repeats, else carried out (R291, R515). -/
def portRequest (xid : BitVec 32) (f : State → State) (s : State) : State :=
  if !s.nvs.recovery.active then discardFrame 0 1 s
  else match s.nvs.recovery.lastXid with
  | some (x, bytes) =>
    if x = xid then { s with net := { s.net with wire := s.net.wire ++ [{ port := 0, bytes := bytes, t := localT s }] } } else f s
  | none => f s

/-- RECOVERY_WRITE: up to 1,024 bytes of the image (R515). -/
def execRecoveryWrite (tool : Word) (xid off : BitVec 32) (data : List Byte) (s : State) : Out :=
  ok (portRequest xid (fun q =>
    if 1024 < data.length then recoveryAnswer tool 1 0x87 xid.toNat [] q
    else
      let r := recoveryPiece off.toNat data q
      recoveryAnswer tool 1 r.1 xid.toNat [] r.2) s)

/-- RECOVERY_VERIFY (R515). -/
def execRecoveryVerify (tool : Word) (xid : BitVec 32) (s : State) : Out :=
  ok (portRequest xid (fun q => (let r := recoveryVerify q; recoveryAnswer tool 2 r.1 xid.toNat [] r.2)) s)

/-- RECOVERY_BOOT: answered, then the device resets; without a verified image IMAGE_INVALID (R515; log 41). -/
def execRecoveryBoot (tool : Word) (xid : BitVec 32) (s : State) : Out :=
  ok (portRequest xid (fun q =>
    if q.nvs.recovery.verified then deviceReset .update (recoveryAdopt true (recoveryAnswer tool 3 0 xid.toNat [] q))
    else recoveryAnswer tool 3 0x87 xid.toNat [] q) s)

/-- RECOVERY_HELLO: the answer carries SERIAL (R515). -/
def execRecoveryHello (tool : Word) (xid : BitVec 32) (s : State) : Out :=
  ok (portRequest xid (fun q => recoveryAnswer tool 4 0 xid.toNat (bytesOfWord (deviceSerial q)) q) s)

end Sys2Proof.Machine
end

