-- ==== Sys2Proof/Machine/Purse.lean ====
section
/-!
DEFINITION. The Purse at work, and the ends of flash operations: grants and withdrawals of requests, and what follows a program or an erase (R426 to R430, R471, R472, R526).
-/
namespace Sys2Proof.Machine

/-! ### Grants (R427, R428) -/

/-- The operation of a granted request begins (R20, R250, R325, R368, R376, R420, R427, R471). -/
def purseBegin (r : PurseReq) (s : State) : State :=
  match r.src with
  | 2 => modStall (Fin.ofNat 16 r.who) (fun k => { k with wakeGrant := some s.mono }) s
  | 3 => { s with field := { s.field with granted := r.tokens } }
  | 4 =>
    if r.who < 4 then modPort r.who (fun p => { p with started := true }) s
    else modRed (fun d => { d with lanes := vmod d.lanes (r.who - 4) (fun l => { l with granted := true }) }) s
  | 5 => modNvs (fun n => { n with job := n.job.map (fun j => { j with granted := true, started := s.mono }) }) s
  | 6 =>
    wdgSuspend (modNvs (fun n => { n with
      job := n.job.map (fun j => { j with granted := true, started := s.mono }), eraseFrom := some s.mono }) s)
  | 7 => { s with dma := { s.dma with burstOn := true } }
  | _ => s

/-- A request granted: its tokens are held, the grant is counted, and its operation begins (R428, R430). -/
def purseGive (r : PurseReq) (s : State) : State :=
  purseBegin r (modPurse (fun p => { p with
    use := vmod p.use r.src (fun u => u + r.tokens), waiting := p.waiting.filter (fun x => x != r)
    grants := (p.grants + 1) % 2 ^ 64, maxwait := max p.maxwait (satTo 32 ((s.mono - r.made) / 1000)) }) s)

/-- PURSE_GRANT: the head request is granted when FREE covers its tokens, 0.15 us after it was made at the earliest (R428, R429). -/
def execPurseGrant (s : State) : Out :=
  match purseHead s.purse.waiting with
  | none => ok s
  | some r =>
    if s.purse.refusing || purseFree s.purse < r.tokens then ok s
    else ok (purseGive r (untilMono (r.made + 150) s))

/-! ### Withdrawals (R427, R428, R526) -/

/-- The timeout of a request in ns (R427). -/
def purseTimeout (src : Nat) : Nat :=
  match src with
  | 2 => 10000000
  | 3 => 100000000
  | 4 => 100000000
  | 5 => 200000000
  | 6 => 2000000000
  | _ => 10000000

/-- A flash operation that the Purse refused: it and those of its user that follow it are given up, and its user fails with NOGRANT (R427, R471, R519). -/
def flashRefused (s : State) : State :=
  match s.nvs.job with
  | none => s
  | some j =>
    let q := dropFollowing j.user (modNvs (fun n => { n with job := none }) s)
    flashKick (match j.user with
      | .record _ _ _ | .compactErase _ | .bankHeader => nvsRefused j.user q
      | .recorder _ | .recorderErase => recorderRefused q
      | .image c => if c.opcode = 0x1A then changeFail 0xE0 q else finish c 0xE0 0 0 q
      | _ => q)

/-- What a withdrawn request leaves (R427). -/
def purseLost (r : PurseReq) (s : State) : State :=
  match r.src with
  | 2 => wakeRefused (Fin.ofNat 16 r.who) s
  | 3 => raise { s with field := { s.field with nogrant := true } } 0x0504 2
  | 4 => if r.who < 4 then modPort r.who (fun p => { p with nogrant := true }) s else s
  | 5 => flashRefused s
  | 6 => flashRefused s
  | 7 => { s with dma := { s.dma with burstFail := true } }
  | _ => s

/-- A request withdrawn: counted in PRS.FAILS, and PURSE_NOGRANT raised (R428, R430, R435). -/
def purseWithdraw (r : PurseReq) (s : State) : State :=
  let c := satStep 32 s.purse.fails
  let q := modPurse (fun p => { p with waiting := p.waiting.filter (fun x => x != r), fails := c.1 })
    { s with errs := { s.errs with purse := true } }
  purseLost r (raise (counterFull 0x1028 c.2 q) 0x0804 1 (field 0 r.src) (field 0 r.tokens))

/-- PURSE_TIMEOUT: the request whose timeout comes first is withdrawn at it, and from Tpf on every request at once (R427, R428, R526). -/
def execPurseTimeout (s : State) : Out :=
  match minBy (fun (r : PurseReq) => r.made + purseTimeout r.src) s.purse.waiting with
  | none => ok s
  | some r =>
    if s.purse.refusing then ok (purseWithdraw r s)
    else ok (purseWithdraw r (untilMono (r.made + purseTimeout r.src) s))

/-! ### Ends of flash operations (R471, R472) -/

/-- The last program of an image has ended (R173, R504, R510 to R512). -/
def imageWritten (c : Cmd) (good : Bool) (s : State) : State :=
  if c.opcode = 0x1A then changeWritten good s
  else if !good then finish c 0x85 0 0 s
  else
    match c.opcode with
    | 0x18 => projectWritten c s
    | 0x19 => packageWritten c s
    | 0x68 => firmwareWritten c s
    | 0x70 => storeWritten c s
    | _ => s

/-- What follows the last program of a user (R455, R476, R483, R489). -/
def programEnded (j : FlashJob) (good : Bool) (s : State) : State :=
  match j.user with
  | .record _ _ _ => recordStep good s
  | .bankHeader => compactDone good s
  | .recorder n => recorderStep n good s
  | .refresh n margin => refreshStep n margin j.op good s
  | .image c => imageWritten c good s
  | _ => s

/-- A program is in progress: it holds its grant, or, after Tpf, works with the tokens of the save (R427, R457). -/
def programRuns (s : State) (j : FlashJob) : Bool :=
  j.granted || (s.power.loss.isSome && !s.purse.waiting.any (fun r => r.src == 5))

/-- FLASH_PROGRAM_DONE: a program and its read-back end, with the read-back equal or not (R471). -/
def execFlashProgramDone (ok_ : Bool) (s : State) : Out :=
  match s.nvs.job with
  | none => ok s
  | some j =>
    match j.op with
    | .erase _ => ok s
    | .program off bs =>
      if !programRuns s j then ok s
      else
        let q := programBytes ok_ off bs (modNvs (fun n => { n with job := none }) s)
        let q := if j.granted then purseReturn 5 2 q else q
        if ok_ && sameFollows j.user q then ok (flashKick q)
        else ok (flashKick (programEnded j ok_ (if ok_ then q else dropFollowing j.user q)))

/-- What follows an erase of a user (R456, R483, R489, R493). -/
def eraseEnded (n : Nat) (j : FlashJob) (s : State) : State :=
  match j.user with
  | .compactErase _ => compactErased n s
  | .refresh k margin => refreshStep k margin j.op true s
  | .saveErase area =>
    if sameFollows j.user s then dirtySave area s
    else modNvs (fun v => { v with saves := vset v.saves area none, saveDirty := vset v.saveDirty area false }) s
  | _ => s

/-- An operation of a refresh. -/
def refreshes (u : FlashUser) : Bool :=
  match u with
  | .refresh _ _ => true
  | _ => false

/-- FLASH_ERASE_DONE: the sector reads 16#FF, the watchdog counts again, and the tokens are returned (R420, R471, R472). -/
def execFlashEraseDone (s : State) : Out :=
  match s.nvs.job with
  | none => ok s
  | some j =>
    match j.op with
    | .program _ _ => ok s
    | .erase n =>
      if !j.granted then ok s
      else
        let q := if j.user == .recorderErase then ringErased n s else s
        let q := if refreshes j.user then q else forgetRefresh n 1 q
        let q := modNvs (fun v => { v with job := none, eraseFrom := none }) (eraseSector n q)
        ok (flashKick (eraseEnded n j (purseReturn 6 6 (wdgResume q))))

end Sys2Proof.Machine
end

