-- ==== Sys2Proof/Machine/Power.lean ====
section
/-!
DEFINITION. Power loss and the retentive save, the rows that enter and release a device reset, and start-up to READY (R80, R81, R419, R439, R440, R477, R492, R493, R503, R506, R509, R513, R526 to R541).
-/
namespace Sys2Proof.Machine

/-- The always-on domain changed. -/
def modPower (f : Power → Power) (s : State) : State := { s with power := f s.power }

/-! ### Power loss (R524 to R528) -/

/-- The lockout of the backup domain: a write in flight is discarded whole (R439). -/
def lockBackup (s : State) : State :=
  modRtc (fun r => { r with
    lockout := true, lockdisc := r.lockdisc || r.write.isSome, write := none, writeRing := none }) s

/-- The steps of R526 at Tpf. A reset that waited for its save now follows the power loss (R527, R530). -/
def losePower (source : Nat) (s : State) : State :=
  let tpf := localT s
  let q := lockBackup s
  let q := if q.red.role == .active then abdicate 3 (boundaryAfter2us q) q else q
  let q := powerStop 0 tpf q
  let q := modWdg (fun w => { w with base := wdgCount q, since := q.mono }) q
  let q := modPower (fun p => { p with
    loss := some { at_ := q.mono, tpf := tpf, source := source, saveOk := false }, railsGood := false, wanted := none }) q
  let q := abortErase (modPurse (fun p => { p with refusing := true }) q)
  raise q 0x0B00 2 tpf (field 0 source)

/-- POWER_LOSS: the PFI ball (0) or a rail below its warning threshold (1 to 4) declares power loss (R524, R526). -/
def execPowerLoss (source : Fin 5) (s : State) : Out :=
  if s.power.loss.isSome || s.power.inReset.isSome then ok s else ok (losePower source.val s)

/-! ### The save (R80, R181, R432, R492, R493) -/

/-- The save area that is written: the erased one with the lowest number (R493). -/
def saveArea (s : State) : Option Nat :=
  (List.range 3).find? (fun i => (vget s.nvs.saves i none).isNone && !vget s.nvs.saveDirty i true)

/-- The data of a save: the regions in list order, damaged words as 0 (R432, R492). -/
def saveData (s : State) : List Byte :=
  s.project.regions.flatMap (fun r => readZeroed s (marketBase r.market.val + r.offset) r.length)

/-- The header of a save, padded with 16#FF to 4 KB (R492; log 42). -/
def saveHeader (v : Save) : List Byte :=
  let len := v.data.length
  let b := bytesOfWords ([field 0 0x5341_5645 ||| field 32 1 ||| field 48 v.cause, v.project, field 0 v.seq, v.tpf,
      field 0 len ||| field 21 v.regions.length, BitVec.allOnes 64, BitVec.allOnes 64, BitVec.allOnes 64] ++
    v.regions.map (fun r => field 0 r.offset ||| field 22 r.market.val ||| field 24 r.length))
  b ++ List.replicate (4096 - b.length) 0xFF

/-- A save written into its area: header and data, then END and ECRC unless the save is withheld (R181, R492). -/
def writeSave (area : Nat) (v : Save) (s : State) : State :=
  let b := saveHeader v ++ v.data
  let q := programNow (saveBase area) b s
  let q := if v.ended then
      programNow (saveBase area + b.length) (bytesOfWords [nvsMark, field 0 (crc32 b).toNat]) q
    else q
  modNvs (fun n => { n with saves := vset n.saves area (some v) }) q

/-- The save that is due: its end marker is withheld after a Market of a change has switched (R181, R492). -/
def dueSave (cause tpf : Nat) (s : State) : Save :=
  { cause := cause, project := s.project.id, seq := s.nvs.saveSeq, tpf := BitVec.ofNat 64 tpf, regions := s.project.regions,
    data := saveData s, consumed := false
    ended := (match s.change with
      | some c => !c.switched
      | none => true) }

/-- What the end of a save leads to: SAVEOK after a power loss, and the reset that waited for the end marker (R533, R540). -/
def saveEnded (ended : Bool) (s : State) : State :=
  let q := modPower (fun p => { p with loss := p.loss.map (fun l => { l with saveOk := ended }) }) s
  match q.power.wanted with
  | some (cause, some _) => if ended then deviceReset cause q else q
  | _ => q

/-- A flash operation has begun and not yet ended. -/
def flashRunning (s : State) : Bool :=
  match s.nvs.job with
  | some j => j.granted
  | none => false

/-- RETENTIVE_SAVE: once no release runs, header, regions and end marker are written into an erased area; without one the save is lost (R80, R492, R494). -/
def execRetentiveSave (s : State) : Out :=
  match s.nvs.saving with
  | none => ok s
  | some (cause, tpf) =>
    if allTills.any (fun t => isLive (tillAt s t)) || flashRunning s then ok s
    else
      let q := modNvs (fun n => { n with saving := none }) s
      match saveArea q with
      | none => ok q
      | some a =>
        let v := dueSave cause tpf q
        ok (saveEnded v.ended (writeSave a v q))

/-! ### The entry of a reset (R416, R434, R527 to R533) -/

/-- The save and the recorder programming have both ended (R457, R527). -/
def lossDone (s : State) : Bool := s.nvs.saving.isNone && s.recorder.buffer.isEmpty && !recBusy s

/-- POWER_LOSS_RESET: 25 ms after Tpf, or at once when save and recorder programming have ended, which the row announces with the supplies good again (R527). -/
def execPowerLossReset (s : State) : Out :=
  match s.power.loss with
  | none => ok s
  | some l =>
    if lossDone s then ok (deviceReset .brownout (modPower (fun p => { p with railsGood := true, goodSince := s.mono }) s))
    else ok (deviceReset .brownout (untilMono (l.at_ + 25000000) s))

/-- RAIL_BELOW_RESET: a logic rail falls below its reset threshold; `aonLost` says that the always-on supply was lost with it, which makes the reset a power-on reset (R527, R529). -/
def execRailBelowReset (aonLost : Bool) (s : State) : Out :=
  let q := modPower (fun p => { p with railsGood := false, aonLost := p.aonLost || aonLost }) s
  if s.power.inReset.isSome && !aonLost then ok q else ok (deviceReset .brownout q)

/-- RESET_PIN: RESET_N goes low for 1 us, or high; between Tpf and its reset a low level is only latched (R531). -/
def execResetPin (low : Bool) (s : State) : Out :=
  if !low then ok (modPower (fun p => { p with resetNLow := false, resetNHighAt := s.mono }) s)
  else
    let q := modPower (fun p => { p with resetNLow := true }) s
    if s.power.inReset.isSome then ok q
    else if s.power.loss.isSome then ok (modPower (fun p => { p with pinLatched := true }) q)
    else ok (deviceReset .pin (passTime 1000 q))

/-- HARD_TIMER_END: HTMS ms after a watchdog failure (R416). -/
def execHardTimerEnd (s : State) : Out :=
  match s.wdg.hard with
  | some t => ok (deviceReset .watchdog (untilMono (t + bits s.wdg.cfg 12 5 * 1000000) s))
  | none => ok s

/-- FATAL_RESET_TIMER: 40 us after a fatal error (R434). -/
def execFatalResetTimer (s : State) : Out :=
  match s.errs.fatalAt with
  | some t => ok (deviceReset .fatal (untilMono (t + 40000) s))
  | none => ok s

/-- RESET_SAVE_DEADLINE: Te + 25 ms after a requested reset that waits for its save (R533). -/
def execResetSaveDeadline (s : State) : Out :=
  match s.power.wanted with
  | some (cause, some t) => ok (deviceReset cause (untilMono t s))
  | _ => ok s

/-! ### The backup supply (R438, R440, R528) -/

/-- BACKUP_SWITCHOVER (R528). -/
def execBackupSwitchover (toVbat : Bool) (s : State) : Out := ok (modRtc (fun r => { r with onVbat := toVbat }) s)

/-- BACKUP_POWER_UP: VBAT and the main supply were both absent, which a power-on reset goes with: every field takes its reset value and BKLOST is 1 (R440). -/
def execBackupPowerUp (s : State) : Out :=
  match s.power.inReset with
  | some r =>
    if r.cause == .poweron then ok { s with rtc := { Rtc.reset with lockout := s.rtc.lockout, onVbat := s.rtc.onVbat } }
    else ok s
  | none => ok s

/-! ### The release (R532, R534 to R537) -/

/-- Tokens of a PBUD strap (R426). -/
def strapTokens (pbud : Nat) : Nat := [16, 20, 24, 28, 32, 40, 48, 63].getD pbud 16

/-- The straps as a power-on reset samples them (R426, R534). -/
def sampleStraps (pbud : Nat) (recov : Bool) (brdid : Nat) (s : State) : State :=
  modPurse (fun p => { p with tokens := strapTokens pbud, strap := strapTokens pbud })
    (modPower (fun p => { p with pbud := pbud, recov := recov, brdid := brdid }) s)

/-- The instant of the release, counted from what the state knows: 2 ms after the entry, after the rails were good, and after RESET_N went high (R532). -/
def releaseAt (r : InReset) (s : State) : Nat :=
  let rails := if s.power.railsGood then s.power.goodSince else s.mono
  let n := r.entered + 2000000
  match r.cause with
  | .poweron => max n (rails + 2000000)
  | .brownout => max n (rails + 2000000)
  | .pin => max n (s.power.resetNHighAt + 2000000)
  | _ => n

/-- The state of R536 at the release: the watchdog's period and the level timers begin, the lockout ends, and the previous cause is shown (R423, R435, R439, R536). -/
def released (cause : ResetCause) (s : State) : State :=
  { s with
    power := { s.power with inReset := none, railsGood := true, t0 := s.mono }
    wdg := { s.wdg with base := 0, since := s.mono, susp := none }
    rtc := { s.rtc with lockout := false }
    errs := { s.errs with wdgprev := cause == .watchdog, fatalprev := cause == .fatal }
    field := { s.field with groups := s.field.groups.map (fun g => { g with uvSince := s.mono, cutSince := some s.mono }) } }

/-- Recovery mode: port 0 is enabled with auto-negotiation, and no firmware runs (R513). -/
def enterRecovery (s : State) : State :=
  let q := modRecovery (fun r => { r with active := true }) (modPower (fun p => { p with rstoutLow := false, pllUnlocked := false }) s)
  let q := modPort 0 (fun p => { p with mac := field 0 (bits (readWord q (flashBase + 16)) 47 0) }) q
  writeNetCfg 0 ((portAt q 0).cfg ||| 9) q

/-- RESET_RELEASE: the reset is released; a power-on reset samples the straps, and its RECOV strap starts recovery mode; RESET_N still low enters the next reset (R513, R531, R532, R534). -/
def execResetRelease (pbud : BitVec 3) (recov : Bool) (brdid : BitVec 4) (s : State) : Out :=
  match s.power.inReset with
  | none => ok s
  | some r =>
    if r.cause == .pin && s.power.resetNLow then ok s
    else
      let q := untilMono (releaseAt r s) s
      let q := if r.cause == .poweron then sampleStraps pbud.toNat recov brdid.toNat q else q
      let q := released r.cause q
      if q.power.resetNLow then ok (deviceReset .pin (passTime 1000 q))
      else ok (if r.cause == .poweron && recov then enterRecovery q else q)

/-- Start-up has not ended: neither READY, nor a failed self-test, nor recovery mode (R537, R538). -/
def starting (s : State) : Bool :=
  s.power.inReset.isNone && s.power.loss.isNone && !s.power.done && !s.nvs.recovery.active

/-- PLL_RETRY: the PLLs are not locked at T0 + 10 ms; the device is held in reset and tries again every 10 ms (R537). -/
def execPllRetry (s : State) : Out :=
  if !starting s then ok s
  else
    let q := untilMono (s.power.t0 + 10000000) s
    ok { modPower (fun p => { p with pllUnlocked := true, t0 := q.mono, rstoutLow := true }) q with clock := Clock.reset }

/-! ### Start-up: the firmware slot (R503, R506) -/

/-- A firmware slot verifies (R496, R497). -/
def fwVerifies (s : State) (slot : Nat) : Bool := ((fwBody s slot).bind firmwareSegs).isSome

/-- Slots in a state, A first. -/
def slotsIn (s : State) (st : Nat) : List Nat := [0, 1].filter (fun k => fwState s k == st)

/-- A slot set to REJECTED, and the FW_FALLBACK to be raised at READY: 0 RESET, 1 SETTINGS, 2 VERIFY (R503, R506, R520). -/
def rejectAtStart (slot reason : Nat) (x : State × List (Nat × Nat)) : State × List (Nat × Nat) :=
  (modFw slot (fun f => { f with state := 6 }) x.1, x.2 ++ [(slot, reason)])

/-- The first slot of a list that boots: it verifies, and a slot on trial can read its settings (R503, R506). -/
def bootFirst : List Nat → State × List (Nat × Nat) → Option Nat × State × List (Nat × Nat)
  | [], x => (none, x)
  | k :: rest, x =>
    if !fwVerifies x.1 k then bootFirst rest (rejectAtStart k 2 (reportSlot k x.1, x.2))
    else if fwState x.1 k = 3 && !Config.settingsReadable (fwRaw x.1 k) then bootFirst rest (rejectAtStart k 1 x)
    else (some k, x)

/-- The slot that a start boots, with the rejections to report: TRIAL becomes REJECTED, PENDING becomes TRIAL, then CURRENT, PREVIOUS and LOADED (R503). -/
def bootSlot (s : State) : Option Nat × State × List (Nat × Nat) :=
  let x := (slotsIn s 3).foldl (fun x k => rejectAtStart k 0 x) (s, [])
  let pend := slotsIn x.1 2
  let q := forEach pend (fun k q => modFw k (fun f => { f with state := 3 }) q) x.1
  bootFirst (pend ++ slotsIn q 4 ++ slotsIn q 5 ++ slotsIn q 1) (q, x.2)

/-! ### Start-up: the project (R509) -/

/-- A package of the chain applied at a start, or the status that refuses it (R496, R509 step 3). -/
def applyRaw (raw : List Byte) (s : State) : Except Nat State :=
  match acceptImage s.nvs 3 raw with
  | .error st => .error st
  | .ok body =>
    match readPackage raw body with
    | none => .error 0x28
    | some p => .ok (applyPackage p s)

/-- The chain applied in order. -/
def applyChain : List (List Byte) → State → Except Nat State
  | [], s => .ok s
  | raw :: rest, s =>
    match applyRaw raw s with
    | .error st => .error st
    | .ok q => applyChain rest q

/-- No group of the current slot's images is in error (R474). -/
def prjWhole (s : State) : Bool :=
  (partOffsets (curPrj s.nvs)).all (fun x => flashWhole (refreshedView s) (prjBase s.nvs.prjcur + x.1) x.2)

/-- The project of the current slot loaded: code image and chain, read past an interrupted refresh; a slot with a group in error fails with FLASH_UE (R474, R489, R509, R519; log 47). -/
def loadSlot (s : State) : Except Nat State :=
  match prjParts (refreshedView s) s.nvs.prjcur (curPrj s.nvs) with
  | [] => .error 0x87
  | raw :: rest =>
    if !prjWhole s then .error 0x85 else
    match judgeImage raw s with
    | .error e => .error e.1
    | .ok (body, l) => applyChain rest (loadProject body l s)

/-! ### Start-up: saves, the backup domain and the keys (R440, R474, R493, R494, R500) -/

/-- The valid save with the highest SAVESEQ and its area (R494). -/
def newestSave (s : State) : Option (Nat × Save) :=
  let l := (List.range 3).filterMap (fun i => (vget s.nvs.saves i none).map (fun v => (i, v)))
  let l := l.filter (fun x => x.2.ended)
  l.find? (fun x => l.all (fun y => y.2.seq ≤ x.2.seq))

/-- The saves as a start finds them: one with a damaged word is not valid, and the next SAVESEQ is one above the highest (R474, R492). -/
def scanSaves (s : State) : State :=
  let seen (i : Nat) (v : Save) : Save :=
    { v with ended := v.ended && flashWhole s (saveBase i) (0x1010 + v.data.length) }
  let l := Vector.ofFn (fun (i : Fin 3) => (vget s.nvs.saves i.val none).map (seen i.val))
  let next := (l.toList.filterMap id).foldl (fun m x => max m (x.seq + 1)) 1
  modNvs (fun n => { n with saves := l, saveSeq := next })
    (forEach (List.range 3) (fun i q => if (vget s.nvs.saves i none).isSome then reportFlash (saveBase i) (17 * sectorSize) q else q) s)

/-- Areas that are neither erased nor hold the newest valid save (R493). -/
def staleAreas (s : State) : List Nat :=
  (List.range 3).filter (fun i => ((vget s.nvs.saves i none).isSome || vget s.nvs.saveDirty i false) &&
    (newestSave s).map (fun x => x.1) != some i)

/-- An area erased before READY when none is (R493, R537 step 5). -/
def eraseOneArea (s : State) : State :=
  match saveArea s, staleAreas s with
  | none, i :: _ =>
    modNvs (fun v => { v with saves := vset v.saves i none, saveDirty := vset v.saveDirty i false }) (eraseArea (saveBase i) 17 s)
  | _, _ => s

/-- The other stale areas are erased in the background (R493). -/
def eraseStale (s : State) : State :=
  forEach (staleAreas s) (fun i q => flashAsk (flashErases (.saveErase i) (sectorOf (saveBase i)) 17) q) s

/-- The operating seconds and power cycles restored from their copy after the backup domain lost its state; whether it had (R440). -/
def restoreBackup (s : State) : State × Bool :=
  if !s.rtc.bklost then (s, false)
  else
    let w := match nvsFind s 0x0100 0 with
      | some r => wordAt r.payload 0
      | none => 0
    let c := satStep 24 (bits w 63 40)
    ({ modRtc (fun r => { r with opsec := bits w 39 0, pwrcyc := c.1, bklost := false }) s with
       power := { s.power with pwrcycSat := s.power.pwrcycSat || c.2 } }, true)

/-- The key slots that hold a key: slot 0 always, the others from their records (R500). -/
def scanKeys (s : State) : State :=
  modNvs (fun n => { n with kslots := [1, 2, 3].foldl (fun w k =>
    if (nvsFind s 0x0102 k).isSome then w ||| BitVec.ofNat 4 (2 ^ k) else w) 1 }) s

/-- The MAC address of each port: MAC0 + n of the identity page (R253, R490). -/
def writeMacs (s : State) : State :=
  forEach (List.range 4) (fun n q =>
    modPort n (fun p => { p with mac := field 0 ((bits (readWord s (flashBase + 16)) 47 0 + n) % 2 ^ 48) }) q) s

/-! ### READY (R537 to R541) -/

/-- The events that follow READY, in an order that is a DESIGN CHOICE (log 42; R419, R439, R440, R448, R503, R513, R520, R539 to R541). -/
def readyEvents (lost : Bool) (rejected : List (Nat × Nat)) (trial : Option Nat) (s : State) : State :=
  let p := s.power
  let q := if p.cause == .watchdog then raise s 0x0802 2 (wdgExpWord s.wdg) s.wdg.exppc s.wdg.expt s.wdg.lastsvct else s
  let q := if p.cause == .fatal then raise q 0x0803 2 (fatalWord s.errs) else q
  let q := forEach rejected (fun x q => raise q 0x0A07 2 (field 0 x.1) (field 0 x.2)) q
  let q := match trial with
    | some k => raise q 0x0A05 0 (field 0 k) (field 0 (fwHeader s.nvs k).version) 0
    | none => q
  let q := match newestSave s with
    | some x => if x.2.consumed then q else raise q 0x0A0B 0 (field 0 x.2.seq) (field 0 x.2.cause) x.2.project
    | none => q
  let q := if lost then raise q 0x030B 2 (field 0 s.rtc.opsec) (field 0 s.rtc.pwrcyc) else q
  let q := if s.rtc.lockdisc && (p.cause == .poweron || p.cause == .brownout) then raise q 0x030C 1 else q
  let q := if p.pfseen && !p.saveok then raise q 0x0B02 2 p.tpfSeen else q
  let q := if s.nvs.recovery.used then
      modRecovery (fun r => { r with used := false })
        (raise q 0x0A0C 1 (field 0 s.nvs.recovery.byPort.toNat) (field 0 s.nvs.recovery.slot))
    else q
  let q := counterFull 0x68 p.resetsSat q
  let q := counterFull 0x4038 p.pwrcycSat q
  modPower (fun p => { p with resetsSat := false, pwrcycSat := false }) q

/-- READY is raised, and the Teller begins its work: mode STOP, the engines, the watchdog of the project, the epoch block and the mandate of a SOLO unit, the clock, and the upkeep of flash (R63, R275, R381, R383, R440, R489, R493, R579; log 46). -/
def goReady (s : State) : State :=
  let q := raise { s with
    power := { s.power with ready := true }
    engines := s.engines.map (fun e => { e with state := 1 }) } 0x0001 0 (field 0 s.power.cause.code)
  let q := setMode .stop 0 0 q
  let q := startEpochs (wdgFromProject q)
  let q := if q.red.role == .solo then acquire q else q
  let q := if bit q.clock.ctl 0 then modSync (fun y => { y with setWaitFrom := some q.mono }) q
    else if q.clock.set then q else setFromRtc 2 q
  let q := if q.power.cause == .poweron then appendRecord false (opsecRecord q) .firmware q else q
  updateField (eraseStale (resumeRefresh q))

/-- Steps 4 to 8 of a start that has found its firmware (R506, R509, R537, R538). -/
def startTeller (slot : Nat) (rejected : List (Nat × Nat)) (fail : Nat) (s : State) : State :=
  let q := modNvs (fun n => { n with fwrun := slot, half := 0, recboot := n.recovery.used }) (scanRing (scanStore s))
  let q := scanKeys (writeMacs q)
  let q := match (fwBody q slot).bind firmwareSegs with
    | some l => loadEngines 0 l q
    | none => q
  let q := match loadSlot q with
    | .ok x => x
    | .error st => raise (if prjWhole q then q else reportFlash (prjBase q.nvs.prjcur) (prjSectors * sectorSize) q) 0x0A0A 2
        (field 0 q.nvs.prjcur) (field 0 st)
  let b := restoreBackup (eraseOneArea (scanSaves q))
  let q := modPower (fun p => { p with rstoutLow := false, pllUnlocked := false, fail := fail, done := true }) b.1
  if fail ≠ 0 then raise q 0x0B01 2 (selftestWord q.power)
  else readyEvents b.2 rejected (if fwState q slot = 3 then some slot else none) (goReady q)

/-- READY: the ROM boots a firmware slot, or enters recovery mode; the Teller reloads engines and project, and the self-test, whose failed items are `fail`, decides between READY and SELFTEST_FAILED (R503, R509, R513, R537, R538). -/
def execReady (fail : BitVec 6) (s : State) : Out :=
  if !starting s then ok s
  else
    let b := bootSlot s
    ok (match b.1 with
      | none => enterRecovery b.2.1
      | some k => startTeller k b.2.2 fail.toNat b.2.1)

end Sys2Proof.Machine
end

