-- ==== Sys2Proof/Machine/Follow.lean ====
section
/-!
DEFINITION. What a standby does with the messages of its active: state copy, mirrored releases, motion reads, hashes, verdicts, forwarded commands, and mirrored epochs (R377, R385 to R394, R398, R401).
-/
namespace Sys2Proof.Machine

/-! ### Reception (R376 to R378) -/

/-- A lane of the link. -/
def laneAt (s : State) (k : Nat) : Lane := vget s.red.lanes k Lane.reset

/-- One lane changed. -/
def modLane (k : Nat) (f : Lane → Lane) (s : State) : State := modRed (fun r => { r with lanes := vmod r.lanes k f }) s

/-- The link is back after both lanes were down: the pair goes to DETACHED with reason PEER_LOST (R395, R401). -/
def linkBack (s : State) : State :=
  if s.red.linkLost && 0 < lanesUp s then pairDetach 14 (modRed (fun r => { r with linkLost := false }) s) else s

/-- A valid message on a lane: the 16th in a row brings the lane up (R378). -/
def laneValid (k : Nat) (s : State) : State :=
  linkBack (modLane k (fun l => { l with valid := min (l.valid + 1) 16, up := l.up || 16 ≤ l.valid + 1, lastValid := s.mono }) s)

/-- A message with a valid CRC on a powered lane; its first copy is acted on, a second copy dropped by its number (R376, R377). -/
def receive (lane : Fin 2) (mseq : BitVec 32) (f : State → State) (s : State) : Out :=
  if !(laneAt s lane.val).granted then ok s
  else
    let q := laneValid lane.val s
    if q.red.seenSeq.contains mseq then ok q
    else ok (f (modRed (fun r => { r with seenSeq := (mseq :: r.seenSeq).take 4096 }) q))

/-- LINK_MESSAGE_DISCARD: a message with a CRC error or a reserved type is counted, and breaks a row of valid ones (R377, R378, R408). -/
def execLinkMessageDiscard (lane : Fin 2) (s : State) : Out :=
  if !(laneAt s lane.val).granted then ok s
  else ok (modLane lane.val (fun l => { l with errs := (l.errs + 1) % 2 ^ 64, valid := if l.up then l.valid else 0 }) s)

/-! ### Mirrored releases (R385 to R387) -/

/-- Release boundaries of a cyclic task up to boundary n (R44). -/
def boundariesUpTo (e : TaskEntry) (n : Nat) : Nat :=
  let p := periodOf e
  let f := e.phase % p
  if n < f then 0 else (n - f) / p + 1

/-- The boundary of a mirrored release of a cyclic task, from the release count of the last boundary (R44, R386). -/
def mirrorTick (s : State) (x : Task) (relnum : Nat) : Nat :=
  if x.e.event then 0
  else
    let p : Int := (periodOf x.e : Int)
    let k : Int := (boundariesUpTo x.e s.clock.ticknum : Int) - 1
    let f : Int := ((x.e.phase % periodOf x.e : Nat) : Int)
    let known : Int := ((x.relcnt + inFlight s x.e.id : Nat) : Int)
    (k * p + f + ((relnum : Int) - known) * p).toNat

/-- The release that a complete mirror stands for (R386). -/
def mirrorRelease (s : State) (x : Task) (m : Mirror) : Release :=
  let n := mirrorTick s x m.relnum
  { task := m.task, instant := if x.e.event then m.evt.getD 1 0 else field 0 (n * 31250), tick := n, relnum := m.relnum,
    arrived := s.mono, evt := m.evt }

/-- A complete mirror becomes a pending release, unless a switch of its Market comes first (R386, R388). -/
def pendMirror (m : Mirror) (s : State) : State :=
  match taskOf s m.task with
  | none => s
  | some x =>
    let k := x.e.stall
    if !m.complete || s.red.switches.contains x.e.market.val ||
        s.stalls[k].pend.any (fun r => r.task == m.task && r.relnum == m.relnum) then s
    else dispatchBest k (modStall k (fun y => { y with pend := y.pend ++ [mirrorRelease s x m] }) s)

/-- Every complete mirror becomes a pending release (R386). -/
def pendMirrors (s : State) : State := forEach s.red.mirrors pendMirror s

/-- An earlier release of the task is still incomplete: a mirror piece is missing (R387). -/
def mirrorGap (s : State) (id : TaskId) (relnum : Nat) : Bool :=
  s.red.mirrors.any (fun m => m.task == id && !m.complete && decide (m.relnum < relnum))

/-- A mirror stored in place of its earlier part, and its release noted (R385, R396). -/
def storeMirror (m : Mirror) (s : State) : State :=
  modRed (fun r => { r with
    mirrors := r.mirrors.filter (fun x => !(x.task == m.task && x.relnum == m.relnum)) ++ [m]
    mirroredTo := r.mirroredTo.filter (fun x => x.1 != m.task) ++ [(m.task, m.relnum)] }) s

/-- The mirror of a release, or a new one. -/
def mirrorFor (s : State) (id : TaskId) (relnum : Nat) : Mirror :=
  (s.red.mirrors.find? (fun m => m.task == id && m.relnum == relnum)).getD
    { task := id, relnum := relnum, data := [], complete := false, evt := [], journal := [] }

/-- A piece of a latched input section; the last piece makes the release ready, and a piece out of place is a missing one (R377, R386, R387). -/
def takeInput (id : TaskId) (relnum off : Nat) (last : Bool) (data : List Byte) (s : State) : State :=
  match taskOf s id with
  | none => s
  | some x =>
    let m := mirrorFor s id relnum
    let have_ := m.data.foldl (fun n p => n + p.2.length) 0
    if mirrorGap s id relnum || off ≠ have_ || (last && have_ + data.length != x.e.inLen) then pairDetach 12 s
    else
      let q := storeMirror { m with data := m.data ++ [(off, data)], complete := last } s
      if last then pendMirrors q else q

/-- INPUT: a mirrored input piece (R386). -/
def execInputPiece (lane : Fin 2) (mseq : BitVec 32) (relnum : Word) (task : TaskId) (off : Nat) (last : Bool)
    (data : List Byte) (s : State) : Out :=
  receive lane mseq (fun q => if following q then takeInput task relnum.toNat off last data q else q) s

/-- EVENT: a mirrored event record makes its release ready (R76, R386). -/
def execEventPiece (lane : Fin 2) (mseq : BitVec 32) (relnum : Word) (task : TaskId) (evt : List Word) (s : State) : Out :=
  receive lane mseq (fun q =>
    if !following q || (taskOf q task).isNone then q
    else if mirrorGap q task relnum.toNat then pairDetach 12 q
    else
      let w := evt.take 8 ++ List.replicate (8 - evt.length) 0
      pendMirrors (storeMirror { mirrorFor q task relnum.toNat with complete := true, evt := w }
        (modTask task (fun x => { x with relcnt := relnum.toNat }) q))) s

/-- Journal entries from their words, two each (R102). -/
def jentriesOf : List Word → List JEntry
  | a :: b :: r => jentryOf a b :: jentriesOf r
  | _ => []

/-- Journal entries added to those that a running copy of the release may use (R107, R385). -/
def addJournal (l : List JEntry) (k : Till) : Till :=
  match k.replay with
  | some r =>
    { k with journal := k.journal.take r.base ++ l ++ k.journal.drop r.base, replay := some { r with base := r.base + l.length } }
  | none => k

/-- The entries of a release reach its running copy or its mirror; those of a release that was never mirrored show a missing piece (R385, R387). -/
def takeJournal (id : TaskId) (relnum : Nat) (l : List JEntry) (s : State) : State :=
  let mine (t : TillId) : Bool := let k := tillAt s t; k.area != .empty && k.rel.task == id && k.rel.relnum == relnum
  match allTills.find? mine with
  | some t => if isLive (tillAt s t) then modTill t (addJournal l) s else s
  | none =>
    if s.red.mirrors.any (fun m => m.task == id && m.relnum == relnum) then
      let m := mirrorFor s id relnum
      storeMirror { m with journal := m.journal ++ l } s
    else if s.red.pstate == .copying then s
    else pairDetach 12 s

/-- JOURNAL: mirrored effect and global-read entries (R385). -/
def execJournal (lane : Fin 2) (mseq : BitVec 32) (relnum : Word) (task : TaskId) (entries : List Word) (s : State) : Out :=
  receive lane mseq (fun q => if following q then takeJournal task relnum.toNat (jentriesOf entries) q else q) s

/-- A piece of a motion read: its first word says whether it is the last one; a cycle out of turn shows a missing piece (R385, R387). -/
def takeMotion (count e : Nat) (data : List Byte) (s : State) : State :=
  let mine := s.red.motions.filter (fun m => m.2.1 == e)
  let top := mine.foldl (fun n m => max n (if m.2.2.1 then m.1 else m.1 - 1)) (engineAt s e).ecyc
  if count ≠ top + 1 then pairDetach 12 s
  else
    let old := ((mine.find? (fun m => m.1 == count)).map (fun m => m.2.2.2)).getD []
    modRed (fun r => { r with
      motions := r.motions.filter (fun m => !(m.1 == count && m.2.1 == e)) ++ [(count, e, bit (wordAt data 0) 0, old ++ data.drop 8)] }) s

/-- MOTION: mirrored motion read content (R385). -/
def execMotionPiece (lane : Fin 2) (mseq : BitVec 32) (count : Word) (engine : Fin 8) (data : List Byte) (s : State) : Out :=
  receive lane mseq (fun q => if following q then takeMotion count.toNat engine.val data q else q) s

/-! ### Hashes and verdicts (R389 to R394) -/

/-- A hash of the peer: of a motion cycle, which the standby compares, or of a release (R377, R390, R394). -/
def takeHash (ref : Nat) (w0 w1 : Word) (s : State) : State :=
  if bit w0 63 then (if following s then compareMotion (bits w0 2 0) ref w1 s else s)
  else
    let id : TaskId := BitVec.ofNat 7 (bits w0 6 0)
    if mirrorsTask s id || following s then dispatchBest (entryOf s id).stall (peerHash id ref w1 s) else s

/-- HASH: a peer hash settles a release or begins an adjudication (R390 to R394). -/
def execHashMessage (lane : Fin 2) (mseq : BitVec 32) (relnum w0 w1 : Word) (s : State) : Out :=
  receive lane mseq (takeHash relnum.toNat w0 w1) s

/-- VERDICT: the peer's verdict of the adjudication in progress (R392). -/
def execVerdict (lane : Fin 2) (mseq : BitVec 32) (relnum : Word) (task : TaskId) (reproduced : Bool) (s : State) : Out :=
  receive lane mseq (fun q =>
    match q.red.adjudication with
    | some a =>
      if a.task == task && a.relnum == relnum.toNat then
        dispatchBest a.stall (settleVerdicts (modRed (fun r => { r with adjudication := some { a with peerVerdict := some reproduced } }) q))
      else q
    | none => q) s

/-! ### The state copy (R401; the layout of what lies in no memory is a DESIGN CHOICE, log 44) -/

/-- Words as pairs. -/
def pairsOf : List Word → List (Word × Word)
  | a :: b :: r => (a, b) :: pairsOf r
  | _ => []

/-- An axis state from its code. -/
def axisStateOf (n : Nat) : AxisState :=
  match n with
  | 0 => .standby
  | 1 => .held
  | 2 => .moving
  | 3 => .stopping
  | _ => .fault

/-- What drives an axis, from its code. -/
def axisModeOf (n : Nat) : AxisMode :=
  match n with
  | 0 => .none
  | 1 => .move
  | 2 => .jog
  | 3 => .gear
  | 4 => .cam
  | 5 => .direct
  | 6 => .vmaster
  | _ => .xmaster

/-- How an axis comes to rest, from its code. -/
def stopHowFrom (n : Nat) : StopHow :=
  match n with
  | 0 => .follow
  | 1 => .ramp
  | _ => .hold

/-- An axis with its coder from its words (R210, R235, R401). -/
def axisOf (l : List Word) : Axis :=
  let w (i : Nat) : Word := l.getD i 0
  let f := w 0
  let n := (w 32).toNat
  { state := axisStateOf (bits f 2 0), mode := axisModeOf (bits f 6 3), result := bits f 31 24, cause := bits f 39 32
    inpos := bit f 9, clutched := bit f 10, camdone := bit f 11, setpt := w 1, svel := w 2, acc := w 3, ackseq := (w 4).toNat
    ferr := w 5, regerr := w 6, regcnt := bits (w 7) 31 0, regmiss := bits (w 7) 63 32, regofs := w 8
    history := (l.drop 33).take n, p1 := w 9, vlim := w 10, alim := w 11, jlim := w 12, gnum := sword (w 13)
    gden := (w 14).toNat, gcl := w 15, soff := w 16, dec := w 17, stopHow := stopHowFrom (bits f 8 7)
    camRef := { camid := bits f 47 40, moff := w 18, soff := w 19 }
    camNext := if bit f 16 then some { camid := bits f 55 48, moff := w 20, soff := w 21 } else none
    lastq := if bit f 17 then some (sword (w 22)) else none, masters := pairsOf (l.drop (33 + n)), markCount := (w 23).toNat
    markSeen := bit f 12, pendCorr := if bit f 18 then some (sword (w 24), sword (w 25)) else none
    ramp := if bit f 19 then some { c := sword (w 26), base := w 27, start := w 28 } else none
    accepted := bit f 13, missing := bit f 14, jump := bit f 15, refresh := bits f 63 56, r := w 29, v := w 30, fbPrev := w 31 }

/-- A generator set from its words (R321). -/
def genSetOf (l : List Word) : GenSet :=
  { mode := (l.getD 0 0).toNat, cnt := (l.getD 1 0).toNat, per := (l.getD 2 0).toNat, wid := (l.getD 3 0).toNat, dly := (l.getD 4 0).toNat }

/-- A channel with the generator, armed set and enables of its words (R321 to R323, R401). -/
def channelFrom (now : Nat) (l : List Word) (c : Channel) : Channel :=
  let w (i : Nat) : Word := l.getD i 0
  let f := w 0
  let instant (o : Word) : Nat := ((now : Int) + sword o).toNat
  { c with
    gen := { set := genSetOf (l.drop 4), h := instant (w 1), begun := (w 2).toNat, out := bit f 0, active := bit f 1 }
    pend := if bit f 2 then some { seq := bits f 31 16, set := genSetOf (l.drop 9), image := bit f 3, at_ := instant (w 3) } else none
    imageOn := bit f 4, eventOn := bit f 5, busy := bit f 6, rej := bit f 7, appliedSeq := bits f 47 32, appliedN := bits f 63 48 }

/-- A task with the state of its words (R71, R73, R76, R83, R401). -/
def taskFrom (l : List Word) (x : Task) : Task :=
  let f := l.getD 0 0
  { x with
    stopped := bit f 0, hadRelease := bit f 1, firstAfterChange := bit f 2, lastCommitted := true, noSpec := none
    freezeNext := if bit f 3 then some { cause := bits f 15 8, fault := bit f 4, scopeAll := bit f 5 } else none
    run := (l.getD 1 0).toNat, commitcnt := (l.getD 2 0).toNat, evSeq := (l.getD 3 0).toNat, evDropped := (l.getD 4 0).toNat }

/-- An operating mode from its number (R62). -/
def modeOf (n : Nat) : Mode :=
  match n with
  | 0 => .held
  | 1 => .stop
  | 2 => .run
  | _ => .hold

/-- The release count of a task on the standby, from the active's count at its boundary `n`: the releases between the two boundaries differ, and those on their way here are still to be counted. -/
def alignCount (s : State) (n v : Nat) (x : Task) : Nat :=
  if x.e.event || !(s.ctl.mode == .run || s.ctl.mode == .hold) then v
  else ((v : Int) + (boundariesUpTo x.e s.clock.ticknum : Int) - (boundariesUpTo x.e n : Int) - (inFlight s x.e.id : Int)).toNat

/-- The boundaries of pending mirrored releases taken anew from the release counts. -/
def retick (s : State) : State :=
  forEach allStalls (fun k q => modStall k (fun y => { y with pend := y.pend.map (fun r =>
    match taskOf q r.task with
    | some x => if x.e.event then r else { r with tick := mirrorTick q x r.relnum, instant := field 0 (mirrorTick q x r.relnum * 31250) }
    | none => r) }) q) s

/-- The operating mode and the release counts of the active taken over (R62, R401); Stalls that it needs are woken. -/
def takeControl (l : List Word) (s : State) : State :=
  let f := l.getD 0 0
  let k := (l.getD 2 0).toNat
  let counts := pairsOf ((l.drop 3).take (2 * k))
  let q := if bit f 3 && !s.ctl.armed then fieldArm s else if !bit f 3 && s.ctl.armed then fieldDisarm s else s
  let q := modCtl (fun c => { c with scopeAll := bit f 24, resumeOk := bit f 25, ranSinceReset := bit f 26 }) q
  let m := modeOf (bits f 2 0)
  let q := if q.ctl.mode == m && q.ctl.reason == bits f 11 8 then q else setMode m (bits f 11 8) (BitVec.ofNat 7 (bits f 22 16)) q
  let q := { q with project := { q.project with camLoaded := (l.drop (3 + 2 * k)).map BitVec.toNat } }
  let q := { q with tasks := q.tasks.map (fun x =>
    match counts.find? (fun p => p.1.toNat == x.e.id.toNat) with
    | some p => { x with relcnt := alignCount q (l.getD 1 0).toNat p.2.toNat x }
    | none => x) }
  forEach allStalls dispatchBest (forEach allStalls sleepIfHeld (wakeNew (wdgNotice (retick q))))

/-- A force table entry from its words (R188). -/
def forceOf (l : List Word) : Force :=
  let f := l.getD 2 0
  { skey := l.getD 0 0, value := l.getD 1 0, bitoff := bits f 21 0, width := bits f 24 22, output := bit f 25
    market := Fin.ofNat 4 (bits f 27 26), settime := l.getD 3 0 }

/-- A breakpoint from its word (R68). -/
def breakOf (w : Word) : Option Breakpoint :=
  if bit w 63 then some { task := BitVec.ofNat 7 (bits w 6 0), addr := BitVec.ofNat 20 (bits w 27 8), scopeAll := bit w 32 } else none

/-- State that lies in no memory, by its kind and index. -/
def takeState (kind index : Nat) (l : List Word) (s : State) : State :=
  match kind with
  | 0 => modTask (BitVec.ofNat 7 index) (taskFrom l) s
  | 1 => modAxis (index / 128) (index % 128) (fun _ => axisOf l) s
  | 2 => modEngine index (fun g => { g with
      state := bits (l.getD 0 0) 7 0, stale := bit (l.getD 0 0) 8, ecyc := (l.getD 1 0).toNat, refreshPos := (l.getD 2 0).toNat
      due := none, cycle := none, codes := [], codesFor := none, missed := [] }) s
  | 3 => updateField (modChannel index (channelFrom s.mono l) s)
  | 4 => takeControl l s
  | 5 => storeForce (forceOf l) s
  | 6 => modStall (Fin.ofNat 16 index) (fun k => { k with bps := Vector.ofFn (fun (i : Fin 4) => breakOf (l.getD i.val 0)) }) s
  | 7 => { s with forces := [] }
  | _ => s

/-- STATE: a piece of the state copy (R401). -/
def execStateCopy (lane : Fin 2) (mseq : BitVec 32) (addr : Word) (data : List Byte) (s : State) : Out :=
  receive lane mseq (fun q =>
    if !following q then q
    else if bit addr 63 then takeState (bits addr 62 56) (bits addr 15 0) (wordsOfBytes data) q
    else if copiedAddr addr.toNat then clearUeRange (putBytes q addr.toNat data) addr.toNat data.length
    else q) s

/-! ### Forwarded commands (R385, R388) -/

/-- A Market of the standby has no release left that its active committed before the switch (R388). -/
def marketDone (s : State) (m : MarketId) : Bool :=
  allStalls.all (fun k => marketOf k != m || ((liveTill s k).isNone && s.stalls[k].pend.isEmpty))

/-- The switch of a Market that its active has made: its code is written, and it is switched (R179, R388). -/
def followSwitch (m : MarketId) (s : State) : State :=
  match s.package with
  | some p => doSwitch m (forEach (codeOf p m) writeCode s)
  | none => s

/-- Waiting switches made as soon as their Markets are done, in order; then the releases after them may be dispatched (R388). -/
def applySwitches : Nat → State → State
  | 0, s => s
  | fuel + 1, s =>
    match s.red.switches with
    | [] => s
    | m :: rest =>
      if marketDone s (Fin.ofNat 4 m) then
        applySwitches fuel (pendMirrors (followSwitch (Fin.ofNat 4 m) (modRed (fun r => { r with switches := rest }) s)))
      else s

/-- The action of a forwarded mode command (R388). -/
def forwardedAction (opcode : Nat) (w : Word) : ModeAction :=
  match opcode, bits w 1 0 with
  | 0x08, _ => .arm
  | 0x09, _ => .disarm
  | 0x0A, 0 => .run .cold
  | 0x0A, 1 => .run .warm
  | 0x0A, _ => .run .resume
  | _, _ => .stop

/-- A mode command takes effect at the boundary that its active named; a RUN wakes the standby's Stalls (R20, R388). -/
def followMode (n : Nat) (a : ModeAction) (s : State) : State :=
  let q := modCtl (fun c => { c with waits := c.waits ++ [{ ring := 16, action := a, wakes := [], ready := some (field 0 (n * 31250)) }] }) s
  match a with
  | .run _ => forEach (sleepers q) (fun k q =>
      if q.stalls[k].wakeGrant.isSome || q.purse.waiting.any (fun r => r.src == 2 && r.who == k.val) then q else askWake k q) q
  | _ => q

/-- Bytes of data that a forwarded command carries; what fills its last message up is no part of them (R377, R388). -/
def controlData (opcode : Nat) (w : Vector Word 5) (data : List Byte) : List Byte :=
  match opcode with
  | 0x18 | 0x19 | 0x28 => data.take (bits w[1] 31 0)
  | 0x1C => data.take (bits w[1] 17 0)
  | 0x60 => data.take (bits w[1] 45 32)
  | _ => data

/-- A forwarded command with all its data takes effect on the standby (R385, R388). -/
def applyControl (n opcode : Nat) (w : Vector Word 5) (data : List Byte) (s : State) : State :=
  let c : Cmd := { ring := 16, idx := 0, opcode := opcode, nocq := true, tag := 0, w := w }
  let id : TaskId := BitVec.ofNat 7 (bits (opnd c 1) 6 0)
  let pc := bits (opnd c 1) 27 8
  match opcode with
  | 0x0C => continueRelease id s
  | 0x0D => stepRelease id s
  | 0x0E =>
    let k := (entryOf s id).stall
    (match breakSlot s k id (BitVec.ofNat 20 pc) with
    | some i => setBreak k i id (BitVec.ofNat 20 pc) (bit (opnd c 1) 7) s
    | none => s)
  | 0x0F => (clearBreak id (BitVec.ofNat 20 pc) s).2
  | 0x18 => beginImage c (prjBase (otherPrj s.nvs)) prjSectors data s
  | 0x19 => beginImage c stagingBase stagingSectors data s
  | 0x1A => (match s.package with
    | some p => beginChange c p s
    | none => s)
  | 0x1B => discardPackage s
  | 0x1C => marketWrite none (marketBase (bits (opnd c 2) 19 18) + bits (opnd c 3) 21 0) data s
  | 0x20 => (match forceCheck s (opnd c 1) (opnd c 2) with
    | .ok f => takeForce f s
    | .error _ => s)
  | 0x21 => dropForce (opnd c 1) s
  | 0x28 => (storeCam (bits (opnd c 2) 39 32) data s).2
  | 0x60 => appendRecord true (putRecord (opnd c 2) data) .firmware s
  | 0xFFFE => applySwitches 4 (modRed (fun r => { r with switches := r.switches ++ [bits (opnd c 1) 1 0] }) s)
  | 0xFFFD => changeFail 5 s
  | _ => if 0x08 ≤ opcode && opcode ≤ 0x0B then followMode n (forwardedAction opcode (opnd c 1)) s else s

/-- A CONTROL message: bytes written to on-chip memory, or a piece of a command, which takes effect with its last piece (R388; the layout is a DESIGN CHOICE, log 44). -/
def takeCommandPiece (n : Nat) (l : List Byte) (s : State) : State :=
  let w := wordAt l 0
  let op := bits w 15 0
  if op = 0xFFFF then agentWrite (wordAt l 8).toNat ((l.drop 24).take (wordAt l 16).toNat) s
  else
    let data := s.red.bufferedControl ++ l.drop 48
    if !bit w 63 then modRed (fun r => { r with bufferedControl := data }) s
    else
      let v : Vector Word 5 := Vector.ofFn (fun (i : Fin 5) => wordAt l (8 + 8 * i.val))
      applyControl n op v (controlData op v data)
        (modRed (fun r => { r with bufferedControl := [] }) s)

/-- CONTROL: a forwarded command, write or record (R385, R388). -/
def execControl (lane : Fin 2) (mseq : BitVec 32) (n : Word) (data : List Byte) (s : State) : Out :=
  receive lane mseq (fun q => if following q then takeCommandPiece n.toNat data q else q) s

/-! ### Mirrored epochs (R398) -/

/-- A piece of a mirrored epoch; the closing piece completes it when its CRC-32 matches (R398). -/
def takeEpoch (n : Word) (closing : Bool) (data : List Byte) (s : State) : State :=
  let b := s.red.epochBuild
  let have_ := if b.1 = n then b.2 else []
  if !closing then modRed (fun r => { r with epochBuild := (n, have_ ++ data) }) s
  else
    let good := wordAt data 16 == field 0 (crc32 have_).toNat
    modRed (fun r => { r with
      epochBuild := (0, [])
      epochHeld := if good then some { n := n, armed := bit (wordAt data 0) 0, project := wordAt data 8, data := have_ } else r.epochHeld }) s

/-- EPOCHCOPY: a standby in PSTATE 2 to 5 keeps the last complete epoch (R398). -/
def execEpochcopy (lane : Fin 2) (mseq : BitVec 32) (n : Word) (closing : Bool) (data : List Byte) (s : State) : Out :=
  receive lane mseq (fun q =>
    if q.red.role == .standby && q.red.pstate != .none && q.red.pstate != .checking then takeEpoch n closing data q else q) s

end Sys2Proof.Machine
end

