-- ==== Sys2Proof/Machine/Pair.lean ====
section
/-!
DEFINITION. Hot-standby pairs: formation, heartbeats and lanes, the course of the state copy, settlement timeouts, mirrored epochs, the end of a pair, and takeover (R376 to R408).
-/
namespace Sys2Proof.Machine

/-! ### Formation (R380, R383, R400, R402) -/

/-- What the peer has told of itself over the link (R400). -/
def peerKnown (p : PeerInfo) (r : Peer) : Peer :=
  { r with
    linkver := p.linkver.toNat, enabled := p.enabled, prefer := p.prefer, project := p.project, locked := p.locked
    gmid := p.gmid, clkdom := p.clkdom.toNat, serial := p.serial, mandate := p.mandate, block := p.block.toNat
    compat := p.compat.toNat, mac := p.mac }

/-- The grandmaster that the unit follows, itself when it is one (R271, R400). -/
def ownGrandmaster (s : State) : Word := if s.clock.gmself then ownIdentity s else s.sync.master.getD 0

/-- The conditions of R400 that need a lane, in order; 0 when all hold. -/
def formRefusal (s : State) : Nat :=
  let p := s.red.peer
  if lanesUp s = 0 then 1
  else if !p.enabled then 2
  else if p.linkver ≠ 1 then 3
  else if p.project ≠ s.project.id then 4
  else if !(s.clock.state == 2 && p.locked && p.gmid == ownGrandmaster s && p.clkdom == bits s.clock.ctl 7 1) then 5
  else if 32768 < s.project.mirrorLoad then 6
  else if s.red.mandate && p.mandate then 7
  else 0

/-- The unit becomes the active: the one with the mandate, else the preferred one, else the one with the lower serial number (R400 item 6). -/
def formsActive (s : State) : Bool :=
  let p := s.red.peer
  let prefer := bit s.red.ctl 1
  if s.red.mandate || p.mandate then s.red.mandate
  else if prefer != p.prefer then prefer
  else decide ((deviceSerial s).toNat < p.serial.toNat)

/-- The higher of the two epoch blocks is adopted (R383, R400 item 7). -/
def adoptBlock (s : State) : State :=
  let b := s.red.peer.block
  if s.red.blockEnd < b + 256 then
    reserveEpochs b (modRed (fun r => { r with epoch := max r.epoch b }) s)
  else s

/-- Pair compatibility number of the running firmware (R402). -/
def ownCompat (s : State) : Nat := (fwHeader s.nvs s.nvs.fwrun).compat

/-- The unit enters COPYING as active or as standby (R391, R400 item 7, R401, R402). -/
def beginPair (act : Bool) (s : State) : State :=
  let q := modRed (fun r => { clearPair r with
    pstate := .copying, cmpOff := r.peer.compat != ownCompat s, epochHeld := none, copyAt := s.mono, lastEpochAt := s.mono
    peerSeen := false, reason := 0 }) (dropVerification s)
  let q := adoptBlock q
  if act then
    let q := modRed (fun r => { r with role := .active }) q
    updateField (if q.red.mandate then q else acquire q)
  else
    updateField (enterStop false 5 0 (modRed (fun r => { r with role := .standby, mandate := false }) q))

/-- A formation is refused: the reason is kept, and reported to the command that asked (R400, R405, R407). -/
def refuseForm (ring : Option Nat) (reason : Nat) (s : State) : State :=
  let q := modRed (fun r => { r with
    reason := reason, forming := none, pstate := if r.pstate == .checking then .none else r.pstate
    autorsFrom := if r.pstate == .detached && bit r.ctl 2 && r.role == .active then some s.mono else none }) s
  match ring with
  | some k => finishBusy k 6 (field 0 reason) 0 q
  | none => q

/-- The checks of R400, and the pair or the refusal (log 43). -/
def runForm (ring : Option Nat) (s : State) : State :=
  let reason := formRefusal s
  if reason ≠ 0 then refuseForm ring reason s
  else
    let q := beginPair (formsActive s) s
    match ring with
    | some k => finishBusy k 0 0 0 q
    | none => q

/-- PAIR_FORM: refused while a pair exists, checked at once when the peer is heard, else within 100 ms (R400, R405). -/
def execPairForm (ring : Fin 16) (peer : PeerInfo) (s : State) : Out :=
  onRing ring.val 0x90 s (fun c q =>
    if !reservedZero c [lowMask 1] then finish c 2 0 0 q
    else if q.red.pstate != .none then refusePair c 8 q
    else if !pairEnabled q then refusePair c 2 q
    else
      let q := modRed (fun r => { r with peer := peerKnown peer r.peer, pstate := .checking }) (accept c q)
      if q.red.peer.heard then runForm (some c.ring) q
      else modRed (fun r => { r with forming := some (c.ring, q.mono, bit (opnd c 1) 0) }) q)

/-- PAIR_FORM_TIMEOUT: no peer within 100 ms: the mandate alone with SOLOOK = 1, else NO_PEER (R400). -/
def execPairFormTimeout (s : State) : Out :=
  match s.red.forming with
  | none => ok s
  | some (ring, t, solo) =>
    let q := untilMono (t + 100000000) s
    if q.red.peer.heard then ok (runForm (some ring) q)
    else if solo then
      let q := modRed (fun r => { r with forming := none, pstate := .none, role := .active, reason := 0 }) q
      ok (finishBusy ring 0 0 0 (updateField (if q.red.mandate then q else acquire q)))
    else ok (refuseForm (some ring) 9 q)

/-- AUTORS_TIMER: 100 ms after a DETACHED the active starts a formation (R400, R406). -/
def execAutorsTimer (peer : PeerInfo) (s : State) : Out :=
  match s.red.autorsFrom with
  | none => ok s
  | some t =>
    if s.red.pstate != .detached || s.red.role != .active then ok s
    else
      let q := untilMono (t + 100000000) s
      ok (runForm none (modRed (fun r => { r with autorsFrom := none, peer := peerKnown peer r.peer }) q))

/-! ### The end of a pair and the decision to take over (R395, R396, R399, R405) -/

/-- The pair ends on the active, which keeps the mandate (R405). -/
def endPair (reason : Nat) (s : State) : State :=
  modRed (fun r => { clearPair r with pstate := .none, reason := reason }) (dropVerification (endForming reason s))

/-- The mirrored epoch that a takeover of R399 may use: of the loaded project (log 44). -/
def usableEpoch (s : State) : Option EpochCopy := s.red.epochHeld.filter (fun e => e.project == s.project.id)

/-- A standby decides to take over: at the named boundary of a planned switch, else at the first one at least 2 us from now; without SYNCED only from a mirrored epoch (R395, R396, R399). -/
def decideTakeover (cause n : Nat) (s : State) : State :=
  if s.red.role != .standby || s.red.takeover.isSome then s
  else
    let warm := s.red.pstate != .synced
    if warm && (usableEpoch s).isNone then surrender s.red.reason false (raise s 0x0704 2 (field 0 cause))
    else modRed (fun r => { r with
      takeover := some { cause := cause, boundary := field 0 (if cause = 5 then n else boundaryAfter2us s), warm := warm } }) s

/-- Both lanes are down and the last peer-watch window saw no frame of the peer: cause SILENCE (R395). -/
def silence (s : State) : State :=
  if s.red.role == .standby && lanesUp s == 0 && s.red.linkLost && s.red.watched && !s.red.peerSeen then decideTakeover 1 0 s else s

/-- ABDICATE: the active hands over the mandate with a cause (R392, R395, R403). -/
def execAbdicate (lane : Fin 2) (mseq : BitVec 32) (n : Word) (cause : BitVec 4) (s : State) : Out :=
  receive lane mseq (fun q => decideTakeover cause.toNat n.toNat q) s

/-- LEAVE: the peer leaves; the active keeps the mandate, a standby becomes CANDIDATE (R405). -/
def execLeave (lane : Fin 2) (mseq : BitVec 32) (s : State) : Out :=
  receive lane mseq (fun q =>
    if q.red.pstate == .none then q
    else if q.red.role == .standby then (if q.red.takeover.isSome then q else surrender 15 false q)
    else endPair 15 q) s

/-- LANE_DOWN: HBTMO us without a valid message; the last lane's loss is reported, and may mean SILENCE (R378, R395). -/
def execLaneDown (lane : Fin 2) (s : State) : Out :=
  let l := laneAt s lane.val
  if !l.up then ok s
  else
    let q := untilMono (l.lastValid + 1000 * bits s.red.ctl 10 3) s
    let before := lanesUp q
    let q := modLane lane.val (fun l => { l with up := false, valid := 0 }) q
    if 0 < lanesUp q then ok q
    else
      let q := modRed (fun r => { r with seenSeq := [], peer := { r.peer with heard := false } }) q
      if q.red.pstate == .none || q.red.pstate == .checking then ok q
      else ok (silence (raise (modRed (fun r => { r with linkLost := true }) q) 0x0707 1 (field 0 before)))

/-- TXOFF of the watched frame (R287, R395, R406). -/
def watchedOffset (s : State) : Nat :=
  match s.net.sched.find? (fun e => !e.rx && e.frameId == bits s.red.pwatch 15 4) with
  | some e => e.off
  | none => 0

/-- PEER_WATCH_WINDOW: 2 us after the watched frame's time the window closes; a silent peer with both lanes down is taken over (R395, R407). -/
def execPeerWatchWindow (seen : Bool) (s : State) : Out :=
  if s.red.role != .standby || s.red.pstate == .none || bits s.red.pwatch 3 0 == 0 then ok s
  else
    let q := untilT (s.clock.ticknum * 31250 + watchedOffset s + 2000) s
    ok (silence (modRed (fun r => { r with peerSeen := seen, watched := true }) q))

/-! ### Heartbeats (R378, R381, R397, R401) -/

/-- ROLE, PSTATE, MANDATE and PAIRCOMPAT as a heartbeat carries them (R377). -/
def heartWord (s : State) : Word :=
  field 0 s.red.role.code ||| field 2 s.red.pstate.code ||| flag 5 s.red.mandate ||| field 6 (ownCompat s)

/-- The last pages of every Market fit one window each, and every page was sent once (R174, R401). -/
def copyFits (s : State) : Bool :=
  decide (pageCount ≤ s.red.copied) &&
    allMarkets.all (fun m => decide (4096 * (dirtyIn s m).length ≤ windowBytes (windowLimits s)[m]))

/-- The next page of the state copy: in order in the first pass, then those written since (R401). -/
def nextPage (s : State) : Option Nat :=
  if s.red.copied < pageCount then some (copyAddr s.red.copied) else (dirtyPages s).head?

/-- The state copy goes on: a page whenever COPYRATE allows one, then the motion state, then a window for each Market (R401). -/
def copyStep (s : State) : State :=
  if !copying s || s.red.linkLost then s
  else if s.red.motionCopied then
    (match allMarkets.find? (fun m => !s.red.marketCopied[m]) with
    | some m =>
      if windowFree s m then askWindow m .copy (windowNs (4096 * (dirtyIn s m).length)) s else s
    | none => s)
  else if copyFits s then (if motionIdle s then copyMotion s else s)
  else if s.mono < s.red.copyAt then s
  else match nextPage s with
  | some a =>
    modRed (fun r => { r with
      copied := if r.copied < pageCount then r.copied + 1 else r.copied
      copyAt := s.mono + 4096000 / max 1 (bits r.ctl 26 19) }) (sendPage a s)
  | none => s

/-- The next part of a mirrored epoch asks for its window (R172, R398). -/
def epochStep (s : State) : State :=
  match s.red.epochPlan with
  | [] => s
  | (k, _, n) :: _ => if windowFree s (Fin.ofNat 4 k) then askWindow (Fin.ofNat 4 k) .epoch (windowNs n) s else s

/-- HEARTBEAT_INTERVAL: a HEARTBEAT leaves every microsecond, and the Teller's work on the pair goes on (R378, R388, R398, R401; log 44). -/
def execHeartbeatInterval (s : State) : Out :=
  if !s.red.lanes.toList.any Lane.granted then ok s
  else
    let q := untilMono (s.red.heartAt + 1000) s
    let q := modRed (fun r => { r with heartAt := q.mono }) q
    let q := linkSend 1 (field 0 q.clock.ticknum) (bytesOfWords [heartWord q, field 0 q.red.epoch]) q
    ok (applySwitches 4 (epochStep (copyStep q)))

/-- The standby takes over the pair state that its active reports (R381, R401). -/
def followPState (n : Nat) (s : State) : State :=
  let q := if (n = 3 || n = 4) && s.red.pstate == .copying then modRed (fun r => { r with pstate := .confirming }) s else s
  if n = 4 && q.red.pstate == .confirming then raise (modRed (fun r => { r with pstate := .synced }) q) 0x0700 0 q.red.peer.serial
  else q

/-- A unit joins the pair that its peer has formed (R400). -/
def joinPair (peerRole : Nat) (s : State) : State :=
  if peerRole = 2 && s.red.role != .standby then beginPair true s
  else if peerRole = 1 && !s.red.mandate then beginPair false s
  else s

/-- The peer's DETACHED reaches a unit that was still in the pair: the standby has found a divergence, or the active has given the pair up; the reason is not carried, and is free (R381, R405; log 44). -/
def peerDetached (s : State) : State :=
  let r := freshWord s
  pairDetach (10 + r.1.toNat % 5) r.2

/-- A change of the peer's pair state as its heartbeat reports it (R381, R400, R401, R405). -/
def peerChanged (old new role : Nat) (s : State) : State :=
  let inPair := s.red.pstate == .copying || s.red.pstate == .confirming || s.red.pstate == .synced
  if old = new then s
  else if new = 2 && !inPair && pairEnabled s then joinPair role s
  else if new = 5 && inPair then peerDetached s
  else if new = 0 && (inPair || s.red.pstate == .detached) && s.red.takeover.isNone && s.red.handover.isNone then
    (if s.red.role == .standby then surrender 15 false s else endPair 15 s)
  else s

/-- What a received heartbeat does: the peer is known, a mandate of a lower epoch is given up, a waiting formation is checked, and the pair states follow one another (R377, R381, R397, R400, R401). -/
def takeHeartbeat (hb : Word) (epoch : Nat) (s : State) : State :=
  let old := s.red.peer
  let role := bits hb 1 0
  let new := bits hb 4 2
  let q := modRed (fun r => { r with peer := { r.peer with
    heard := true, role := role, pstate := new, mandate := bit hb 5, compat := bits hb 21 6, epoch := epoch } }) s
  if q.red.mandate && bit hb 5 && q.red.epoch < epoch then surrender q.red.reason false q
  else match q.red.forming with
  | some (ring, _, _) => if 0 < lanesUp q then runForm (some ring) q else q
  | none =>
    let q := peerChanged old.pstate new role q
    if q.red.role == .standby && role = 1 then followPState new q else q

/-- HEARTBEAT: lane state, and what R397 asks of a single valid one (R378, R397). -/
def execHeartbeat (lane : Fin 2) (mseq : BitVec 32) (n hb : Word) (epoch : BitVec 32) (s : State) : Out :=
  let _ := n
  receive lane mseq (takeHeartbeat hb epoch.toNat) s

/-! ### Settlement and confirmation (R390, R401) -/

/-- The release instant of the next release that waits for a latch on a Stall (R390). -/
def waitingRelease (s : State) (k : StallId) : Option Release :=
  let l := (tillsOf k).filterMap (fun t =>
    let x := tillAt s t
    if (isLive x || (x.area == .speculative && x.dispatched)) && !x.latched then some x.rel else none)
  (l ++ s.stalls[k].pend).head?

/-- SETTLE_TIMEOUT: SETTLEMAX us after the instant of the next release its latch waits no longer; the release before it stays unsettled, and 16 of a task in a row end the pair (R390, R401, R408). -/
def execSettleTimeout (stall : StallId) (s : State) : Out :=
  if !mirroring s || s.red.cmpOff || !latchHeld s stall || s.red.adjudication.isSome then ok s
  else match retainedTill s stall, waitingRelease s stall with
  | some t, some next =>
    let q := untilT (next.instant.toNat + 1000 * bits s.red.ctl 18 11) s
    let id := (tillAt q t).rel.task
    let n := (tillAt q t).rel.relnum
    let run := (((q.red.unsettledRun.find? (fun x => x.1 == id)).map Prod.snd).getD 0) + 1
    let c := satStep 32 q.red.unsettled
    let q := modRed (fun r => { r with
      unsettled := c.1, unsettledRun := r.unsettledRun.filter (fun x => x.1 != id) ++ [(id, run)]
      confirmFrom := r.confirmFrom.map (fun _ => q.mono) }) (markSettled id n q)
    let q := counterFull 0x14050 c.2 (raise q 0x0701 1 (field 0 id.toNat) (field 0 n))
    ok (dispatchBest stall (if 16 ≤ run then pairDetach 13 q else q))
  | _, _ => ok s

/-- CONFIRM_EXPIRY: CONFIRM ms without trouble make the pair SYNCED (R401). -/
def execConfirmExpiry (s : State) : Out :=
  match s.red.confirmFrom with
  | none => ok s
  | some t =>
    if s.red.role != .active || s.red.pstate != .confirming then ok s
    else
      let q := untilMono (t + 1000000 * bits s.red.ctl 52 37) s
      ok (raise (modRed (fun r => { r with pstate := .synced, confirmFrom := none }) q) 0x0700 0 q.red.peer.serial)

/-! ### Mirrored epochs (R398) -/

/-- A region cut into parts that one window each carries: Market, system address, length. -/
def regionParts (s : State) (r : Region) : List (Nat × Nat × Nat) :=
  let cap := max 8 (windowBytes (windowLimits s)[r.market])
  (enumFrom 0 (splitWindows (r.length + 1) cap r.length)).map (fun x =>
    (r.market.val, marketBase r.market.val + r.offset + x.1 * cap, x.2))

/-- MIRRORED_EPOCH: every RETPER ms in PSTATE 2 to 5 the active begins a mirrored epoch (R398). -/
def execMirroredEpoch (s : State) : Out :=
  if s.red.role != .active || s.red.pstate == .none || s.red.pstate == .checking || !s.red.epochPlan.isEmpty then ok s
  else
    let q := untilMono (s.red.lastEpochAt + 1000000 * bits s.red.ctl 36 27) s
    let plan := q.project.regions.flatMap (regionParts q)
    let q := modRed (fun r => { r with
      lastEpochAt := q.mono, epochPlan := plan, epochBuild := (field 0 q.clock.ticknum, []) }) q
    ok (if plan.isEmpty then closeEpoch q else q)

/-! ### Takeover (R383, R395, R396, R399, R403) -/

/-- The active's hash of a release is known: its mirror is complete (R385, R396). -/
def mirrorWhole (s : State) (r : Release) : Bool := s.red.peerHashes.any (fun x => x.1 == r.task && x.2.1 == r.relnum)

/-- Releases of a task that were due and of which nothing was mirrored (R396). -/
def unmirrored (s : State) (x : Task) : Nat :=
  match s.red.mirroredTo.find? (fun p => p.1 == x.e.id) with
  | some p => x.relcnt - p.2
  | none => 0

/-- Releases with an incomplete mirror are skipped (R59, R396 item 4). -/
def skipIncomplete (s : State) : State :=
  let q := forEach allTills (fun t q =>
    let x := tillAt q t
    if isLive x && !x.committing && !mirrorWhole q x.rel then skipRelease x.rel.task (abandon t q) else q) s
  let q := forEach allStalls (fun k q =>
    forEach (q.stalls[k].pend.filter (fun r => !mirrorWhole q r)) (fun r q =>
      skipRelease r.task (modStall k (fun y => { y with pend := y.pend.filter (fun z => !(z.task == r.task && z.relnum == r.relnum)) }) q)) q) q
  forEach q.tasks (fun x q =>
    if q.ctl.mode == .run && !x.e.event && !x.stopped then
      forEach (List.range (unmirrored q x)) (fun _ q => skipRelease x.e.id q) q
    else q) q

/-- At a planned switch no release is lost: one whose effects are not mirrored runs on as the unit's own, one that was never mirrored becomes pending (R403). -/
def keepReleases (s : State) : State :=
  let q := forEach allTills (fun t q =>
    modTill t (fun k => match k.replay with
      | some r => if isLive k && !r.verify && r.base = 0 && !mirrorWhole s k.rel then { k with replay := none } else k
      | none => k) q) s
  let q := modRed (fun r => { r with mirrors := r.mirrors.filter (fun m => !m.journal.isEmpty ||
    s.red.peerHashes.any (fun x => x.1 == m.task && x.2.1 == m.relnum)) }) q
  forEach q.tasks (fun x q =>
    if q.ctl.mode == .run && !x.e.event && !x.stopped && 0 < unmirrored q x then
      let n := mirrorTick q x x.relcnt
      modStall x.e.stall (fun y => { y with pend := y.pend ++
        [{ task := x.e.id, instant := field 0 (n * 31250), tick := n, relnum := x.relcnt, arrived := q.mono, evt := [] }] }) q
    else q) q

/-- Switches outside RED.FHOLD wait for the first output time (R396). -/
def waitOutputs (s : State) : State :=
  { s with field := { s.field with channels := Vector.ofFn (fun (i : Fin 32) =>
      let c := s.field.channels[i]
      if isOutput c && !s.red.fhold.getLsbD i.val then { c with relatch := true } else c) } }

/-- Every axis carries TRACK in the first two motion cycles (R396 item 3). -/
def trackAxes (s : State) : State :=
  { s with engines := s.engines.map (fun g => { g with axes := g.axes.map (fun a => { a with refresh := 2 }) }) }

/-- The mandate with epoch E + 1, where E is the pair's epoch (R383, R396). -/
def takeMandate (t : Takeover) (s : State) : State :=
  let c := satStep 32 s.red.takeovers
  let q := modRed (fun r => { clearPair r with
    role := .active, pstate := .none, epoch := max r.epoch r.peer.epoch, acquired := true, lastto := t.cause
    lastWarm := t.warm, lasttot := field 0 (t.boundary.toNat * 31250), takeovers := c.1 }) (dropVerification s)
  let q := acquire q
  counterFull 0x14058 c.2 (raise q 0x0706 1 (field 0 t.cause) t.boundary (field 0 q.red.epoch))

/-- The code of Markets that a change has still to switch is written, and the change goes on (R179, R388). -/
def continueChange (s : State) : State :=
  match s.change, s.package with
  | some c, some p =>
    (match c.step with
    | .switching m => changeKick (forEach (allMarkets.filter (fun k => m ≤ k.val)) (fun k q => forEach (codeOf p k) writeCode q) s)
    | _ => s)
  | _, _ => s

/-- The takeover of a synced standby (R396; log 43). -/
def takeOverSynced (t : Takeover) (s : State) : State :=
  let q := if t.cause = 5 then keepReleases s else skipIncomplete s
  let kept := q.red.mirrors.filter (fun m => m.complete && s.red.peerHashes.any (fun x => x.1 == m.task && x.2.1 == m.relnum))
  let q := trackAxes (waitOutputs (takeMandate t q))
  let q := modRed (fun r => { r with mirrors := kept }) q
  forEach allStalls dispatchBest (continueChange (updateField q))

/-- The retentive data of a mirrored epoch put in place of a save (R82, R399). -/
def restoreEpoch (e : EpochCopy) (s : State) : State :=
  restoreSave { cause := 0, project := e.project, seq := 0, tpf := 0, regions := s.project.regions, data := e.data, ended := true, consumed := false } s

/-- The takeover of a standby that did not follow: every output open, a WARM start from the mirrored epoch with its ARMED, and INIT for the axes (R399). -/
def takeOverWarm (t : Takeover) (e : EpochCopy) (s : State) : State :=
  let q := takeMandate t (disarmNow 5 s)
  let q := zeroOutputs (applyInits true (forEach (List.range 4) (zeroMarket true) q))
  let q := restoreEpoch e q
  let q := if q.ctl.ranSinceReset then q else consumeSaves q
  let q := raise (waitOutputs q) 0x0705 2 e.n
  if !e.armed then updateField q
  else
    let q := motionRun (fieldRun (startTasks (fieldArm q)))
    let q := if q.project.raenok then { q with spctl := q.spctl ||| 1 } else q
    let q := modRed (fun r => { r with initAxes := List.range 8 }) (modCtl (fun c => { c with ranSinceReset := true, scopeAll := false }) q)
    updateField (wakeNew (setMode .run 5 0 q))

/-- TAKEOVER: at the transfer boundary the standby takes the mandate (R396, R399). -/
def execTakeover (s : State) : Out :=
  match s.red.takeover with
  | none => ok s
  | some t =>
    let q := untilT (t.boundary.toNat * 31250) s
    if !t.warm then ok (takeOverSynced t q)
    else match usableEpoch q with
    | some e => ok (takeOverWarm t e q)
    | none => ok (surrender q.red.reason false (raise q 0x0704 2 (field 0 t.cause)))

/-! ### The commands (R403, R405) -/

/-- PAIR_SWITCH: only SYNCED and on the active; the transfer boundary is RESULT0 (R403, R405). -/
def execPairSwitch (ring : Fin 16) (s : State) : Out :=
  onRing ring.val 0x91 s (fun c q =>
    let lead := bits (opnd c 1) 7 0
    if !reservedZero c [lowMask 8] || lead < 2 then finish c 2 0 0 q
    else if isStandby q then refusePair c 16 q
    else if q.red.role != .active || q.red.pstate != .synced || q.red.handover.isSome then refusePair c 8 q
    else
      let n := q.clock.ticknum + lead
      finish c 0 (field 0 n) 0 (abdicate 5 n q))

/-- PAIR_LEAVE: the active ends the pair and keeps the mandate, the standby stops following (R405). -/
def execPairLeave (ring : Fin 16) (s : State) : Out :=
  onRing ring.val 0x92 s (fun c q =>
    if !reservedZero c [] then finish c 2 0 0 q
    else if q.red.pstate == .none then finish c 0 0 0 q
    else
      let q := linkSend 12 0 [] q
      finish c 0 0 0 (if isStandby q then surrender 15 false q else endPair 15 q))

/-- The PAIR_STATUS record (R405). -/
def pairRecord (s : State) : List Byte :=
  let r := s.red
  fitBytes 64 (bytesOfWords [
    field 0 (bits (redStatWord r) 7 0) ||| field 8 r.reason ||| field 16 r.epoch, r.peer.serial,
    (match r.epochHeld with
      | some e => e.n
      | none => 0),
    field 0 r.cmpok, field 0 r.cmpbad ||| field 32 r.unsettled])

/-- PAIR_STATUS (R351, R405). -/
def execPairStatus (ring : Fin 16) (s : State) : Out :=
  onRing ring.val 0x93 s (fun c q =>
    dataOn 6 c (reservedZero c [BitVec.allOnes 64] && mult (opnd c 1).toNat 64) (fun q =>
      giveOn 6 c (opnd c 1) (pairRecord q) 0 0 q) q)

end Sys2Proof.Machine
end

