-- ==== Sys2Proof/Machine/Float.lean ====
section
/-!
DEFINITION. IEEE 754-2019 binary64 arithmetic on the words of R130 and R131: exact rational results, rounded once to nearest with ties to even.
-/
namespace Sys2Proof.Machine

/-- The canonical quiet NaN of binary64 (R131). -/
def qnan64 : Word := 0x7FF8_0000_0000_0000

/-- The canonical quiet NaN of binary32 (R131). -/
def qnan32 : Word := 0x7FC0_0000

/-- A floating-point value: NaN, an infinity, or sign with magnitude m × 2^e. -/
inductive FVal where
  | nan
  | inf (neg : Bool)
  | fin (neg : Bool) (m : Nat) (e : Int)
deriving DecidableEq, Repr

/-- A format: p bits of precision and w exponent bits. -/
def fval (p w : Nat) (x : Nat) : FVal :=
  let neg := x.testBit (p + w - 1)
  let ex := (x >>> (p - 1)) % 2 ^ w
  let fr := x % 2 ^ (p - 1)
  let bias : Int := (2 ^ (w - 1) - 1 : Nat)
  if ex = 2 ^ w - 1 then (if fr = 0 then .inf neg else .nan)
  else if ex = 0 then .fin neg fr (1 - bias - ((p - 1 : Nat) : Int))
  else .fin neg (fr + 2 ^ (p - 1)) ((ex : Int) - bias - ((p - 1 : Nat) : Int))

/-- The value of a binary64 word. -/
def fval64 (x : Word) : FVal := fval 53 11 x.toNat

/-- Number of bits of a natural number. -/
def bitLen : Nat → Nat := fun n => if n = 0 then 0 else Nat.log2 n + 1

/-- num / den × 2^e (den > 0, num > 0) rounded to nearest, ties to even, in a format of p bits and w exponent bits; the sign bit is added by the caller. -/
def roundPos (p w : Nat) (num den : Nat) (e : Int) : Nat :=
  let bias : Int := (2 ^ (w - 1) - 1 : Nat)
  let emin : Int := 1 - bias - ((p - 1 : Nat) : Int)
  -- exponent of the last bit: the quotient gets p or p + 1 bits, never below emin
  let q0 : Int := e + ((bitLen num : Int) - (bitLen den : Int)) - (p : Int)
  let lsb0 : Int := max q0 emin
  let scaled (l : Int) : Nat × Nat :=
    let sh := e - l
    if 0 ≤ sh then (num * 2 ^ sh.toNat, den) else (num, den * 2 ^ (-sh).toNat)
  let a0 := scaled lsb0
  let lsb := if 2 ^ p ≤ a0.1 / a0.2 then lsb0 + 1 else lsb0
  let a := scaled lsb
  let q := a.1 / a.2
  let r := a.1 % a.2
  let up := 2 * r > a.2 || (2 * r == a.2 && q % 2 == 1)
  let m := if up then q + 1 else q
  -- carry into the next binade needs no shift of the encoding
  let ex : Int := lsb - emin
  let code : Int := ex * 2 ^ (p - 1) + (m : Int)
  let top : Nat := (2 ^ w - 1) * 2 ^ (p - 1)
  if (top : Int) ≤ code then top else code.toNat

/-- A signed exact value num / den × 2^e as binary64. -/
def pack64 (neg : Bool) (num den : Nat) (e : Int) : Word :=
  let m := if num = 0 then 0 else roundPos 53 11 num den e
  BitVec.ofNat 64 (m + (if neg then 2 ^ 63 else 0))

/-- An infinity of binary64. -/
def inf64 (neg : Bool) : Word := if neg then 0xFFF0_0000_0000_0000 else 0x7FF0_0000_0000_0000

/-- A zero of binary64. -/
def zero64 (neg : Bool) : Word := if neg then 0x8000_0000_0000_0000 else 0

/-- Addition (R130): an exact zero of unlike signs is +0. -/
def fadd (x y : Word) : Word :=
  match fval64 x, fval64 y with
  | .nan, _ => qnan64
  | _, .nan => qnan64
  | .inf a, .inf b => if a == b then inf64 a else qnan64
  | .inf a, _ => inf64 a
  | _, .inf b => inf64 b
  | .fin a m e, .fin b n f =>
    let l := min e f
    let u : Int := (if a then -1 else 1) * ((m * 2 ^ (e - l).toNat : Nat) : Int)
    let v : Int := (if b then -1 else 1) * ((n * 2 ^ (f - l).toNat : Nat) : Int)
    let s := u + v
    if s = 0 then zero64 (a && b) else pack64 (s < 0) s.natAbs 1 l

/-- The sign of a word inverted, NaN included. -/
def fneg (x : Word) : Word := x ^^^ 0x8000_0000_0000_0000

/-- Subtraction (R130). -/
def fsub (x y : Word) : Word := fadd x (fneg y)

/-- Multiplication (R130). -/
def fmul (x y : Word) : Word :=
  match fval64 x, fval64 y with
  | .nan, _ => qnan64
  | _, .nan => qnan64
  | .inf a, .inf b => inf64 (a != b)
  | .inf a, .fin b n _ => if n = 0 then qnan64 else inf64 (a != b)
  | .fin a m _, .inf b => if m = 0 then qnan64 else inf64 (a != b)
  | .fin a m e, .fin b n f => pack64 (a != b) (m * n) 1 (e + f)

/-- Division with the special results of R131. -/
def fdivide (x y : Word) : Word :=
  match fval64 x, fval64 y with
  | .nan, _ => qnan64
  | _, .nan => qnan64
  | .inf _, .inf _ => qnan64
  | .inf a, .fin b _ _ => inf64 (a != b)
  | .fin a _ _, .inf b => zero64 (a != b)
  | .fin a m e, .fin b n f =>
    if n = 0 then (if m = 0 then qnan64 else inf64 (a != b)) else pack64 (a != b) m n (e - f)

/-- Square root (R130): the root of a value scaled by an even power is rounded with a sticky bit. -/
def fsqrt (x : Word) : Word :=
  match fval64 x with
  | .nan => qnan64
  | .inf a => if a then qnan64 else inf64 false
  | .fin a m e =>
    if m = 0 then zero64 a
    else if a then qnan64
    else
      let k : Nat := 128 + (e % 2).toNat
      let n := m * 2 ^ k
      let r := Nat.sqrt n
      let sticky := if r * r = n then 0 else 1
      pack64 false (2 * r + sticky) 1 ((e - (k : Int)) / 2 - 1)

/-- x < y as binary64 values, neither of them a NaN (R131). -/
def fltVal (x y : FVal) : Bool :=
  match x, y with
  | .nan, _ => false
  | _, .nan => false
  | .inf a, .inf b => a && !b
  | .inf a, _ => a
  | _, .inf b => !b
  | .fin a m e, .fin b n f =>
    let l := min e f
    let u : Int := (if a then -1 else 1) * ((m * 2 ^ (e - l).toNat : Nat) : Int)
    let v : Int := (if b then -1 else 1) * ((n * 2 ^ (f - l).toNat : Nat) : Int)
    u < v

/-- Either operand is a NaN. -/
def eitherNan (x y : Word) : Bool := fval64 x == .nan || fval64 y == .nan

/-- x < y (R131). -/
def flt (x y : Word) : Bool := fltVal (fval64 x) (fval64 y)

/-- x = y, −0 and +0 equal (R131). -/
def feq (x y : Word) : Bool := !eitherNan x y && !flt x y && !flt y x

/-- x ≤ y (R131). -/
def fle (x y : Word) : Bool := !eitherNan x y && !flt y x

/-- A word is the NaN of some encoding. -/
def isNan (x : Word) : Bool := fval64 x == .nan

/-- The minimum with the NaN and signed-zero rules of R131. -/
def fmin (x y : Word) : Word :=
  if isNan x && isNan y then qnan64
  else if isNan x then y
  else if isNan y then x
  else if flt x y then x
  else if flt y x then y
  else if bit x 63 then x else y

/-- The maximum with the NaN and signed-zero rules of R131. -/
def fmax (x y : Word) : Word :=
  if isNan x && isNan y then qnan64
  else if isNan x then y
  else if isNan y then x
  else if flt x y then y
  else if flt y x then x
  else if bit x 63 then y else x

/-- A signed integer as binary64 (R130). -/
def itod (x : Word) : Word :=
  let i := x.toInt
  if i = 0 then 0 else pack64 (i < 0) i.natAbs 1 0

/-- An exact value rounded to an integer: to nearest even, or truncated. -/
def roundInt (trunc : Bool) (m : Nat) (e : Int) : Nat :=
  if 0 ≤ e then m * 2 ^ e.toNat
  else
    let d := 2 ^ (-e).toNat
    let q := m / d
    let r := m % d
    if !trunc && (2 * r > d || (2 * r == d && q % 2 == 1)) then q + 1 else q

/-- Conversion to a signed integer, saturated, 0 for a NaN (R131). -/
def dtoiWith (trunc : Bool) (x : Word) : Word :=
  match fval64 x with
  | .nan => 0
  | .inf a => if a then 0x8000_0000_0000_0000 else 0x7FFF_FFFF_FFFF_FFFF
  | .fin a m e =>
    let v : Int := (if a then -1 else 1) * (roundInt trunc m e : Int)
    if 2 ^ 63 ≤ v then 0x7FFF_FFFF_FFFF_FFFF
    else if v < -(2 ^ 63) then 0x8000_0000_0000_0000
    else wordOfInt v

/-- Binary64 rounded to binary32 in bits [31..0] (R130, R131). -/
def dtos (x : Word) : Word :=
  match fval64 x with
  | .nan => qnan32
  | .inf a => if a then 0xFF80_0000 else 0x7F80_0000
  | .fin a m e =>
    BitVec.ofNat 64 ((if m = 0 then 0 else roundPos 24 8 m 1 e) + (if a then 2 ^ 31 else 0))

/-- Binary32 in bits [31..0] as binary64 (R130, R131). -/
def stod (x : Word) : Word :=
  match fval 24 8 (x.toNat % 2 ^ 32) with
  | .nan => qnan64
  | .inf a => inf64 a
  | .fin a m e => if m = 0 then zero64 a else pack64 a m 1 e

end Sys2Proof.Machine
end

