-- ==== Sys2Proof/Machine/Tally.lean ====
section
/-!
DEFINITION. The meanings of the Tally instructions (R125 to R156, R162) and of the events that belong to them: FENCE completion, a breakpoint, the reservation timeout, a transient fault and an undefined instruction word.
-/
namespace Sys2Proof.Machine

/-- The shift amount or bit index of the low six bits (R126). -/
def amount (b : Word) : Nat := b.toNat % 64

/-- A word with one bit set. -/
def oneBit (i : Nat) : Word := field 0 (2 ^ i)

/-- Number of leading zero bits (R126). -/
def leadingZeros (a : Word) : Nat := (a.clz).toNat

/-- Number of trailing zero bits, counted from bit 0 (R126). -/
def trailingZeros (a : Word) : Nat :=
  match (List.range 64).find? (fun i => bit a i) with
  | some i => i
  | none => 64

/-- ADD: rs1 + rs2 (R126). -/
def execAdd (t : TillId) (rd rs1 rs2 : RegNo) (s : State) : Out :=
  ok (runW t 0x05 0 false rd rs1 rs2 (fun a b => a + b) s)

/-- SUB: rs1 - rs2 (R126). -/
def execSub (t : TillId) (rd rs1 rs2 : RegNo) (s : State) : Out :=
  ok (runW t 0x05 1 false rd rs1 rs2 (fun a b => a - b) s)

/-- AND: bitwise AND (R126). -/
def execAnd (t : TillId) (rd rs1 rs2 : RegNo) (s : State) : Out :=
  ok (runW t 0x05 2 false rd rs1 rs2 (fun a b => a &&& b) s)

/-- OR: bitwise OR (R126). -/
def execOr (t : TillId) (rd rs1 rs2 : RegNo) (s : State) : Out :=
  ok (runW t 0x05 3 false rd rs1 rs2 (fun a b => a ||| b) s)

/-- XOR: bitwise XOR (R126). -/
def execXor (t : TillId) (rd rs1 rs2 : RegNo) (s : State) : Out :=
  ok (runW t 0x05 4 false rd rs1 rs2 (fun a b => a ^^^ b) s)

/-- ANDC: rs1 AND NOT rs2 (R126). -/
def execAndc (t : TillId) (rd rs1 rs2 : RegNo) (s : State) : Out :=
  ok (runW t 0x05 5 false rd rs1 rs2 (fun a b => a &&& ~~~b) s)

/-- ORC: rs1 OR NOT rs2 (R126). -/
def execOrc (t : TillId) (rd rs1 rs2 : RegNo) (s : State) : Out :=
  ok (runW t 0x05 6 false rd rs1 rs2 (fun a b => a ||| ~~~b) s)

/-- SHL: left shift (R126). -/
def execShl (t : TillId) (rd rs1 rs2 : RegNo) (s : State) : Out :=
  ok (runW t 0x05 7 false rd rs1 rs2 (fun a b => a <<< amount b) s)

/-- SHRU: right shift with zeros (R126). -/
def execShru (t : TillId) (rd rs1 rs2 : RegNo) (s : State) : Out :=
  ok (runW t 0x05 8 false rd rs1 rs2 (fun a b => a >>> amount b) s)

/-- SHRS: right shift with the sign (R126). -/
def execShrs (t : TillId) (rd rs1 rs2 : RegNo) (s : State) : Out :=
  ok (runW t 0x05 9 false rd rs1 rs2 (fun a b => a.sshiftRight (amount b)) s)

/-- ROTR: right rotation (R126). -/
def execRotr (t : TillId) (rd rs1 rs2 : RegNo) (s : State) : Out :=
  ok (runW t 0x05 10 false rd rs1 rs2 (fun a b => a.rotateRight (amount b)) s)

/-- CLTS: signed less-than (R126). -/
def execClts (t : TillId) (rd rs1 rs2 : RegNo) (s : State) : Out :=
  ok (runW t 0x05 11 false rd rs1 rs2 (fun a b => truth (BitVec.slt a b)) s)

/-- CLTU: unsigned less-than (R126). -/
def execCltu (t : TillId) (rd rs1 rs2 : RegNo) (s : State) : Out :=
  ok (runW t 0x05 12 false rd rs1 rs2 (fun a b => truth (BitVec.ult a b)) s)

/-- CEQ: equality (R126). -/
def execCeq (t : TillId) (rd rs1 rs2 : RegNo) (s : State) : Out :=
  ok (runW t 0x05 13 false rd rs1 rs2 (fun a b => truth (a == b)) s)

/-- MINS: smaller, signed (R126). -/
def execMins (t : TillId) (rd rs1 rs2 : RegNo) (s : State) : Out :=
  ok (runW t 0x05 14 false rd rs1 rs2 (fun a b => if BitVec.slt b a then b else a) s)

/-- MAXS: larger, signed (R126). -/
def execMaxs (t : TillId) (rd rs1 rs2 : RegNo) (s : State) : Out :=
  ok (runW t 0x05 15 false rd rs1 rs2 (fun a b => if BitVec.slt a b then b else a) s)

/-- MINU: smaller, unsigned (R126). -/
def execMinu (t : TillId) (rd rs1 rs2 : RegNo) (s : State) : Out :=
  ok (runW t 0x05 16 false rd rs1 rs2 (fun a b => if BitVec.ult b a then b else a) s)

/-- MAXU: larger, unsigned (R126). -/
def execMaxu (t : TillId) (rd rs1 rs2 : RegNo) (s : State) : Out :=
  ok (runW t 0x05 17 false rd rs1 rs2 (fun a b => if BitVec.ult a b then b else a) s)

/-- MUL: low half of the product (R126). -/
def execMul (t : TillId) (rd rs1 rs2 : RegNo) (s : State) : Out :=
  ok (runW t 0x05 32 false rd rs1 rs2 (fun a b => a * b) s)

/-- MULHS: high half of the signed product (R126). -/
def execMulhs (t : TillId) (rd rs1 rs2 : RegNo) (s : State) : Out :=
  ok (runW t 0x05 33 false rd rs1 rs2 (fun a b => wordOfInt (fdiv (a.toInt * b.toInt) (2 ^ 64))) s)

/-- MULHU: high half of the unsigned product (R126). -/
def execMulhu (t : TillId) (rd rs1 rs2 : RegNo) (s : State) : Out :=
  ok (runW t 0x05 34 false rd rs1 rs2 (fun a b => field 0 (a.toNat * b.toNat / 2 ^ 64)) s)

/-- DIVS: signed quotient; DIVZERO on a zero divisor (R126, R127). -/
def execDivs (t : TillId) (rd rs1 rs2 : RegNo) (s : State) : Out :=
  ok (runDiv t 35 rd rs1 rs2 (fun a b => a.sdiv b) s)

/-- DIVU: unsigned quotient; DIVZERO on a zero divisor (R126, R127). -/
def execDivu (t : TillId) (rd rs1 rs2 : RegNo) (s : State) : Out :=
  ok (runDiv t 36 rd rs1 rs2 (fun a b => a / b) s)

/-- MODS: signed remainder with the sign of rs1; DIVZERO on a zero divisor (R126, R127). -/
def execMods (t : TillId) (rd rs1 rs2 : RegNo) (s : State) : Out :=
  ok (runDiv t 37 rd rs1 rs2 (fun a b => a.srem b) s)

/-- MODU: unsigned remainder; DIVZERO on a zero divisor (R126, R127). -/
def execModu (t : TillId) (rd rs1 rs2 : RegNo) (s : State) : Out :=
  ok (runDiv t 38 rd rs1 rs2 (fun a b => a % b) s)

/-- EXTS8: low byte sign-extended (R126, unary). -/
def execExts8 (t : TillId) (rd rs1 rs2 : RegNo) (s : State) : Out :=
  ok (runW t 0x05 64 true rd rs1 rs2 (fun a _ => (a.setWidth 8).signExtend 64) s)

/-- EXTS16: low 16 bits sign-extended (R126, unary). -/
def execExts16 (t : TillId) (rd rs1 rs2 : RegNo) (s : State) : Out :=
  ok (runW t 0x05 65 true rd rs1 rs2 (fun a _ => (a.setWidth 16).signExtend 64) s)

/-- EXTS32: low 32 bits sign-extended (R126, unary). -/
def execExts32 (t : TillId) (rd rs1 rs2 : RegNo) (s : State) : Out :=
  ok (runW t 0x05 66 true rd rs1 rs2 (fun a _ => (a.setWidth 32).signExtend 64) s)

/-- EXTU8: low byte zero-extended (R126, unary). -/
def execExtu8 (t : TillId) (rd rs1 rs2 : RegNo) (s : State) : Out :=
  ok (runW t 0x05 67 true rd rs1 rs2 (fun a _ => (a.setWidth 8).setWidth 64) s)

/-- EXTU16: low 16 bits zero-extended (R126, unary). -/
def execExtu16 (t : TillId) (rd rs1 rs2 : RegNo) (s : State) : Out :=
  ok (runW t 0x05 68 true rd rs1 rs2 (fun a _ => (a.setWidth 16).setWidth 64) s)

/-- EXTU32: low 32 bits zero-extended (R126, unary). -/
def execExtu32 (t : TillId) (rd rs1 rs2 : RegNo) (s : State) : Out :=
  ok (runW t 0x05 69 true rd rs1 rs2 (fun a _ => (a.setWidth 32).setWidth 64) s)

/-- LZC: leading zero bits (R126, unary). -/
def execLzc (t : TillId) (rd rs1 rs2 : RegNo) (s : State) : Out :=
  ok (runW t 0x05 70 true rd rs1 rs2 (fun a _ => field 0 (leadingZeros a)) s)

/-- TZC: trailing zero bits (R126, unary). -/
def execTzc (t : TillId) (rd rs1 rs2 : RegNo) (s : State) : Out :=
  ok (runW t 0x05 71 true rd rs1 rs2 (fun a _ => field 0 (trailingZeros a)) s)

/-- POPC: number of 1 bits (R126, unary). -/
def execPopc (t : TillId) (rd rs1 rs2 : RegNo) (s : State) : Out :=
  ok (runW t 0x05 72 true rd rs1 rs2 (fun a _ => field 0 (popCount 64 a.toNat)) s)

/-- BITGET: one bit as 0 or 1 (R126). -/
def execBitget (t : TillId) (rd rs1 rs2 : RegNo) (s : State) : Out :=
  ok (runW t 0x05 80 false rd rs1 rs2 (fun a b => truth (bit a (amount b))) s)

/-- BITSET: one bit set (R126). -/
def execBitset (t : TillId) (rd rs1 rs2 : RegNo) (s : State) : Out :=
  ok (runW t 0x05 81 false rd rs1 rs2 (fun a b => a ||| oneBit (amount b)) s)

/-- BITCLR: one bit cleared (R126). -/
def execBitclr (t : TillId) (rd rs1 rs2 : RegNo) (s : State) : Out :=
  ok (runW t 0x05 82 false rd rs1 rs2 (fun a b => a &&& ~~~oneBit (amount b)) s)

/-- BITFLP: one bit inverted (R126). -/
def execBitflp (t : TillId) (rd rs1 rs2 : RegNo) (s : State) : Out :=
  ok (runW t 0x05 83 false rd rs1 rs2 (fun a b => a ^^^ oneBit (amount b)) s)

/-- ADDK: sum with a constant (R128). -/
def execAddk (t : TillId) (rd rs1 : RegNo) (imm : BitVec 12) (s : State) : Out :=
  ok (runK t 0 rd rs1 imm (fun a b => a + b) s)

/-- CLTSK: signed less-than a constant (R128). -/
def execCltsk (t : TillId) (rd rs1 : RegNo) (imm : BitVec 12) (s : State) : Out :=
  ok (runK t 1 rd rs1 imm (fun a b => truth (BitVec.slt a b)) s)

/-- CLTUK: unsigned less-than a constant (R128). -/
def execCltuk (t : TillId) (rd rs1 : RegNo) (imm : BitVec 12) (s : State) : Out :=
  ok (runK t 2 rd rs1 imm (fun a b => truth (BitVec.ult a b)) s)

/-- ANDK: AND with a constant (R128). -/
def execAndk (t : TillId) (rd rs1 : RegNo) (imm : BitVec 12) (s : State) : Out :=
  ok (runK t 3 rd rs1 imm (fun a b => a &&& b) s)

/-- ORK: OR with a constant (R128). -/
def execOrk (t : TillId) (rd rs1 : RegNo) (imm : BitVec 12) (s : State) : Out :=
  ok (runK t 4 rd rs1 imm (fun a b => a ||| b) s)

/-- XORK: XOR with a constant (R128). -/
def execXork (t : TillId) (rd rs1 : RegNo) (imm : BitVec 12) (s : State) : Out :=
  ok (runK t 5 rd rs1 imm (fun a b => a ^^^ b) s)

/-- CEQK: equality with a constant (R128). -/
def execCeqk (t : TillId) (rd rs1 : RegNo) (imm : BitVec 12) (s : State) : Out :=
  ok (runK t 7 rd rs1 imm (fun a b => truth (a == b)) s)

/-- SHLK: left shift by a constant (R128). -/
def execShlk (t : TillId) (rd rs1 : RegNo) (amt : BitVec 6) (s : State) : Out :=
  ok (runShk t 0 rd rs1 amt (fun a b => a <<< amount b) s)

/-- SHRUK: right shift with zeros by a constant (R128). -/
def execShruk (t : TillId) (rd rs1 : RegNo) (amt : BitVec 6) (s : State) : Out :=
  ok (runShk t 1 rd rs1 amt (fun a b => a >>> amount b) s)

/-- SHRSK: right shift with the sign by a constant (R128). -/
def execShrsk (t : TillId) (rd rs1 : RegNo) (amt : BitVec 6) (s : State) : Out :=
  ok (runShk t 2 rd rs1 amt (fun a b => a.sshiftRight (amount b)) s)

/-- ROTRK: right rotation by a constant (R128). -/
def execRotrk (t : TillId) (rd rs1 : RegNo) (amt : BitVec 6) (s : State) : Out :=
  ok (runShk t 3 rd rs1 amt (fun a b => a.rotateRight (amount b)) s)

/-- BITGETK: one bit as 0 or 1 by a constant (R128). -/
def execBitgetk (t : TillId) (rd rs1 : RegNo) (amt : BitVec 6) (s : State) : Out :=
  ok (runShk t 4 rd rs1 amt (fun a b => truth (bit a (amount b))) s)

/-- BITSETK: one bit set by a constant (R128). -/
def execBitsetk (t : TillId) (rd rs1 : RegNo) (amt : BitVec 6) (s : State) : Out :=
  ok (runShk t 5 rd rs1 amt (fun a b => a ||| oneBit (amount b)) s)

/-- BITCLRK: one bit cleared by a constant (R128). -/
def execBitclrk (t : TillId) (rd rs1 : RegNo) (amt : BitVec 6) (s : State) : Out :=
  ok (runShk t 6 rd rs1 amt (fun a b => a &&& ~~~oneBit (amount b)) s)

/-- BITFLPK: one bit inverted by a constant (R128). -/
def execBitflpk (t : TillId) (rd rs1 : RegNo) (amt : BitVec 6) (s : State) : Out :=
  ok (runShk t 7 rd rs1 amt (fun a b => a ^^^ oneBit (amount b)) s)

/-- LUP: imm20 × 4,096 into rd (R123, R129). -/
def execLup (t : TillId) (rd : RegNo) (imm : BitVec 20) (s : State) : Out :=
  ok (runInstr t (encJ 0x41 rd imm) true noTrap true false (fun q => writeRd t rd (sext20 imm 4096) q) s)

/-- DADD: sum (R130, R131). -/
def execDadd (t : TillId) (rd rs1 rs2 : RegNo) (s : State) : Out :=
  ok (runW t 0x0D 0 false rd rs1 rs2 (fun a b => fadd a b) s)

/-- DSUB: difference (R130, R131). -/
def execDsub (t : TillId) (rd rs1 rs2 : RegNo) (s : State) : Out :=
  ok (runW t 0x0D 1 false rd rs1 rs2 (fun a b => fsub a b) s)

/-- DMUL: product (R130, R131). -/
def execDmul (t : TillId) (rd rs1 rs2 : RegNo) (s : State) : Out :=
  ok (runW t 0x0D 2 false rd rs1 rs2 (fun a b => fmul a b) s)

/-- DDIV: quotient (R130, R131). -/
def execDdiv (t : TillId) (rd rs1 rs2 : RegNo) (s : State) : Out :=
  ok (runW t 0x0D 3 false rd rs1 rs2 (fun a b => fdivide a b) s)

/-- DSQRT: square root (R130, R131). -/
def execDsqrt (t : TillId) (rd rs1 rs2 : RegNo) (s : State) : Out :=
  ok (runW t 0x0D 4 true rd rs1 rs2 (fun a _ => fsqrt a) s)

/-- DMIN: smaller (R130, R131). -/
def execDmin (t : TillId) (rd rs1 rs2 : RegNo) (s : State) : Out :=
  ok (runW t 0x0D 5 false rd rs1 rs2 (fun a b => fmin a b) s)

/-- DMAX: larger (R130, R131). -/
def execDmax (t : TillId) (rd rs1 rs2 : RegNo) (s : State) : Out :=
  ok (runW t 0x0D 6 false rd rs1 rs2 (fun a b => fmax a b) s)

/-- DCEQ: equality (R130, R131). -/
def execDceq (t : TillId) (rd rs1 rs2 : RegNo) (s : State) : Out :=
  ok (runW t 0x0D 8 false rd rs1 rs2 (fun a b => truth (feq a b)) s)

/-- DCLT: less-than (R130, R131). -/
def execDclt (t : TillId) (rd rs1 rs2 : RegNo) (s : State) : Out :=
  ok (runW t 0x0D 9 false rd rs1 rs2 (fun a b => truth (flt a b)) s)

/-- DCLE: less-or-equal (R130, R131). -/
def execDcle (t : TillId) (rd rs1 rs2 : RegNo) (s : State) : Out :=
  ok (runW t 0x0D 10 false rd rs1 rs2 (fun a b => truth (fle a b)) s)

/-- ITOD: signed integer to binary64 (R130, R131). -/
def execItod (t : TillId) (rd rs1 rs2 : RegNo) (s : State) : Out :=
  ok (runW t 0x0D 16 true rd rs1 rs2 (fun a _ => itod a) s)

/-- DTOI: to a signed integer, rounded (R130, R131). -/
def execDtoi (t : TillId) (rd rs1 rs2 : RegNo) (s : State) : Out :=
  ok (runW t 0x0D 17 true rd rs1 rs2 (fun a _ => dtoiWith false a) s)

/-- DTOIZ: to a signed integer, truncated (R130, R131). -/
def execDtoiz (t : TillId) (rd rs1 rs2 : RegNo) (s : State) : Out :=
  ok (runW t 0x0D 18 true rd rs1 rs2 (fun a _ => dtoiWith true a) s)

/-- DTOS: binary64 to binary32 (R130, R131). -/
def execDtos (t : TillId) (rd rs1 rs2 : RegNo) (s : State) : Out :=
  ok (runW t 0x0D 19 true rd rs1 rs2 (fun a _ => dtos a) s)

/-- STOD: binary32 to binary64 (R130, R131). -/
def execStod (t : TillId) (rd rs1 rs2 : RegNo) (s : State) : Out :=
  ok (runW t 0x0D 20 true rd rs1 rs2 (fun a _ => stod a) s)

/-- LD.D: load of 8 bytes (R138). -/
def execLdD (t : TillId) (rd rs1 : RegNo) (imm : BitVec 12) (s : State) : Out :=
  ok (runLoad t 0 8 false rd rs1 imm s)

/-- LD.W: load of 4 bytes, sign-extended (R138). -/
def execLdW (t : TillId) (rd rs1 : RegNo) (imm : BitVec 12) (s : State) : Out :=
  ok (runLoad t 1 4 true rd rs1 imm s)

/-- LD.H: load of 2 bytes, sign-extended (R138). -/
def execLdH (t : TillId) (rd rs1 : RegNo) (imm : BitVec 12) (s : State) : Out :=
  ok (runLoad t 2 2 true rd rs1 imm s)

/-- LD.B: load of 1 byte, sign-extended (R138). -/
def execLdB (t : TillId) (rd rs1 : RegNo) (imm : BitVec 12) (s : State) : Out :=
  ok (runLoad t 3 1 true rd rs1 imm s)

/-- LD.WU: load of 4 bytes, zero-extended (R138). -/
def execLdWu (t : TillId) (rd rs1 : RegNo) (imm : BitVec 12) (s : State) : Out :=
  ok (runLoad t 5 4 false rd rs1 imm s)

/-- LD.HU: load of 2 bytes, zero-extended (R138). -/
def execLdHu (t : TillId) (rd rs1 : RegNo) (imm : BitVec 12) (s : State) : Out :=
  ok (runLoad t 6 2 false rd rs1 imm s)

/-- LD.BU: load of 1 byte, zero-extended (R138). -/
def execLdBu (t : TillId) (rd rs1 : RegNo) (imm : BitVec 12) (s : State) : Out :=
  ok (runLoad t 7 1 false rd rs1 imm s)

/-- ST.D: store of 8 bytes (R138). -/
def execStD (t : TillId) (rs1 rs2 : RegNo) (imm : BitVec 12) (s : State) : Out :=
  ok (runStore t 0 8 rs1 rs2 imm s)

/-- ST.W: store of 4 bytes (R138). -/
def execStW (t : TillId) (rs1 rs2 : RegNo) (imm : BitVec 12) (s : State) : Out :=
  ok (runStore t 1 4 rs1 rs2 imm s)

/-- ST.H: store of 2 bytes (R138). -/
def execStH (t : TillId) (rs1 rs2 : RegNo) (imm : BitVec 12) (s : State) : Out :=
  ok (runStore t 2 2 rs1 rs2 imm s)

/-- ST.B: store of 1 byte (R138). -/
def execStB (t : TillId) (rs1 rs2 : RegNo) (imm : BitVec 12) (s : State) : Out :=
  ok (runStore t 3 1 rs1 rs2 imm s)

/-- LGET: Lane read operation (R142, R143). -/
def execLget (t : TillId) (rd rs1 rm : RegNo) (off : BitVec 6) (s : State) : Out :=
  ok (runLaneRead t 0 rd rs1 rm off (fun r i m => (r &&& ~~~m) ||| (i &&& m)) s)

/-- LAND: Lane read operation (R142, R143). -/
def execLand (t : TillId) (rd rs1 rm : RegNo) (off : BitVec 6) (s : State) : Out :=
  ok (runLaneRead t 1 rd rs1 rm off (fun r i m => r &&& (i ||| ~~~m)) s)

/-- LOR: Lane read operation (R142, R143). -/
def execLor (t : TillId) (rd rs1 rm : RegNo) (off : BitVec 6) (s : State) : Out :=
  ok (runLaneRead t 2 rd rs1 rm off (fun r i m => r ||| (i &&& m)) s)

/-- LXOR: Lane read operation (R142, R143). -/
def execLxor (t : TillId) (rd rs1 rm : RegNo) (off : BitVec 6) (s : State) : Out :=
  ok (runLaneRead t 3 rd rs1 rm off (fun r i m => r ^^^ (i &&& m)) s)

/-- LANDN: Lane read operation (R142, R143). -/
def execLandn (t : TillId) (rd rs1 rm : RegNo) (off : BitVec 6) (s : State) : Out :=
  ok (runLaneRead t 4 rd rs1 rm off (fun r i m => r &&& ~~~(i &&& m)) s)

/-- LCNT: Lane read operation (R142, R143). -/
def execLcnt (t : TillId) (rd rs1 rm : RegNo) (off : BitVec 6) (s : State) : Out :=
  ok (runLaneRead t 5 rd rs1 rm off (fun _ i m => field 0 (popCount 64 (i &&& m).toNat)) s)

/-- LPUT: Lane write operation (R142, R143). -/
def execLput (t : TillId) (rd rs1 rm : RegNo) (off : BitVec 6) (s : State) : Out :=
  ok (runLaneWrite t 8 rd rs1 rm off (fun r i m => (i &&& ~~~m) ||| (r &&& m)) s)

/-- LSETB: Lane write operation (R142, R143). -/
def execLsetb (t : TillId) (rd rs1 rm : RegNo) (off : BitVec 6) (s : State) : Out :=
  ok (runLaneWrite t 9 rd rs1 rm off (fun r i m => i ||| (r &&& m)) s)

/-- LCLRB: Lane write operation (R142, R143). -/
def execLclrb (t : TillId) (rd rs1 rm : RegNo) (off : BitVec 6) (s : State) : Out :=
  ok (runLaneWrite t 10 rd rs1 rm off (fun r i m => i &&& ~~~(r &&& m)) s)

/-- LINV: Lane write operation (R142, R143). -/
def execLinv (t : TillId) (rd rs1 rm : RegNo) (off : BitVec 6) (s : State) : Out :=
  ok (runLaneWrite t 11 rd rs1 rm off (fun r i m => i ^^^ (r &&& m)) s)

/-- BCR: branch when rs1 compares with rs2 as cond says (R132, R133). -/
def execBcr (t : TillId) (cond : BitVec 3) (rs1 rs2 : RegNo) (disp : BitVec 12) (s : State) : Out :=
  ok (runBranch t (encB 0x1D cond rs1 rs2 disp) cond (fun q => reg q t rs1) (fun q => reg q t rs2) disp s)

/-- BCI: branch when rs1 compares with imm5 as cond says (R132, R133). -/
def execBci (t : TillId) (cond : BitVec 3) (rs1 : RegNo) (imm : BitVec 5) (disp : BitVec 12) (s : State) : Out :=
  ok (runBranch t (encB 0x21 cond rs1 imm disp) cond (fun q => reg q t rs1) (fun _ => bciImm cond imm) disp s)

/-- BBS: branch when image bit b6 of the word at rs1 is 1 (R141). -/
def execBbs (t : TillId) (rs1 : RegNo) (b : BitVec 6) (disp : BitVec 12) (s : State) : Out :=
  ok (runBit t 0 rs1 b disp s)

/-- BBC: branch when image bit b6 of the word at rs1 is 0 (R141). -/
def execBbc (t : TillId) (rs1 : RegNo) (b : BitVec 6) (disp : BitVec 12) (s : State) : Out :=
  ok (runBit t 1 rs1 b disp s)

/-- EDGE.R: rising edge of rd against a bit of instance data (R144, R145). -/
def execEdgeR (t : TillId) (rd rs1 : RegNo) (imm : BitVec 12) (s : State) : Out :=
  ok (runEdge t 0 rd rs1 imm s)

/-- EDGE.F: falling edge of rd against a bit of instance data (R144, R145). -/
def execEdgeF (t : TillId) (rd rs1 : RegNo) (imm : BitVec 12) (s : State) : Out :=
  ok (runEdge t 1 rd rs1 imm s)

/-- EDGE.B: either edge of rd against a bit of instance data (R144, R145). -/
def execEdgeB (t : TillId) (rd rs1 : RegNo) (imm : BitVec 12) (s : State) : Out :=
  ok (runEdge t 2 rd rs1 imm s)

/-- The LR.D, SC.D or TAS prelude: a misaligned or foreign address traps (R148). -/
def atomTrap (t : TillId) (rs1 : RegNo) (n : Nat) (q : State) : Option (Nat × Word) :=
  dataTrap (tillEntry q t) (reg q t rs1) n Place.isMarket

/-- An operation that has an effect entry: it stops speculation with a cause, returns its journalled value in a replay, and otherwise acts and is journalled (R89, R102, R107). -/
def effectOp (t : TillId) (cause : Nat) (act : State → Acc) (q : State) : Acc :=
  if isSpec q t then .stop cause
  else match replayOf q t with
    | some r => replayEffect t r q
    | none => (act q).bind (fun v x => .done v (journalEffect t v x))

/-- A read of Market memory with no journal entry of its own: the value belongs to the effect entry (R102, R148). -/
def readRaw (t : TillId) (a : Word) (n : Nat) (q : State) : Acc :=
  if fenceHolds q t 1 then .wait
  else match ueIn q (marketSys t a.toNat) n with
    | some w => .trap 5 a (memUe w q)
    | none => .done (valueAt (readBytes q (marketSys t a.toNat) n)) q

/-- LR.D: the word at rs1, and a reservation on it (R148, R149). -/
def execLrD (t : TillId) (rd rs1 rs2 : RegNo) (s : State) : Out :=
  ok (runInstr t (encW 0x2D 0 rd rs1 rs2) (rs2 == 0) (atomTrap t rs1 8) true false (fun q =>
    (effectOp t 2 (fun q => (readRaw t (reg q t rs1) 8 q).bind (fun v x =>
      .done v (modTill t (fun k => { k with resv := some (reg q t rs1).toNat, resvAt := x.mono }) x))) q).bind
        (fun v x => writeRd t rd v x)) s)

/-- SC.D: a store when the reservation holds the address; rd says whether it was made, and the reservation is empty afterwards (R148 to R150). -/
def execScD (t : TillId) (rd rs1 rs2 : RegNo) (s : State) : Out :=
  ok (runInstr t (encW 0x2D 1 rd rs1 rs2) true (atomTrap t rs1 8) true false (fun q =>
    (effectOp t 2 (fun q =>
      if fenceHolds q t 1 then .wait
      else
        let won := (tillAt q t).resv == some (reg q t rs1).toNat
        let act := if won then storeAt t (reg q t rs1) 8 (reg q t rs2) q else .done 0 q
        act.bind (fun _ x => .done (truth won) (modTill t (fun k => { k with resv := none }) x))) q).bind
          (fun v x => writeRd t rd v x)) s)

/-- TAS: the byte at rs1 into rd, and 1 into that byte (R148, R150). -/
def execTas (t : TillId) (rd rs1 rs2 : RegNo) (s : State) : Out :=
  ok (runInstr t (encW 0x2D 2 rd rs1 rs2) (rs2 == 0) (atomTrap t rs1 1) true false (fun q =>
    (effectOp t 2 (fun q => (readRaw t (reg q t rs1) 1 q).bind (fun v x =>
      (storeAt t (reg q t rs1) 1 1 x).bind (fun _ y => .done v y))) q).bind (fun v x => writeRd t rd v x)) s)

/-- STATUS of SYS for a service and an argument: 2 unknown, 3 bad argument, 1 queue full, 0 accepted (R154, R156, R412). -/
def sysStatus (q : State) (t : TillId) (service : Nat) (arg : Word) : Nat :=
  if service = 0 ∨ 7 ≤ service then 2
  else if service = 3 then (if 31 < arg.toNat then 3 else if 32 ≤ (q.markets[marketOf t.stall]).sysQueue.length then 1 else 0)
  else if arg.toNat < 0x0100_0000 ∨ 0x0140_0000 ≤ arg.toNat then 3
  else if 32 ≤ (q.markets[marketOf t.stall]).sysQueue.length then 1 else 0

/-- A SYS request: the answer of the queue, and on acceptance the request in the queue and the next ticket (R154, R155). -/
def sysRequest (t : TillId) (imm : BitVec 12) (arg : Word) (q : State) : Acc :=
  let st := sysStatus q t imm.toNat arg
  let ticket := q.stalls[t.stall].ticket
  let answer := field 0 ticket.toNat ||| field 56 st
  if st ≠ 0 then .done answer q
  else
    let r : SysReq := { service := imm, arg := arg, stall := t.stall, task := (tillAt q t).rel.task, ticket := ticket }
    .done answer (modStall t.stall (fun k => { k with ticket := k.ticket + 1 })
      (modMarket (marketOf t.stall) (fun m => { m with sysQueue := m.sysQueue ++ [r] }) q))

/-- The request of WDG_CHECKIN that a standby performs locally as well (R386). -/
def localCheckin (t : TillId) (arg : Word) (q : State) : State :=
  match sysRequest t 3 arg q with
  | .done _ x => x
  | _ => q

/-- SYS: a request to the Teller (R154 to R156). -/
def execSysCall (t : TillId) (rd rs1 : RegNo) (imm : BitVec 12) (s : State) : Out :=
  ok (runInstr t (encI 0x31 0 rd rs1 imm) true noTrap true false (fun q =>
    (effectOp t 1 (sysRequest t imm (reg q t rs1)) q).bind (fun v x =>
      writeRd t rd v (if following x && imm == 3 && v.toNat / 2 ^ 56 == 0 then localCheckin t (reg q t rs1) x else x))) s)

/-- The fence class of a SYS service: 4 HST, 5 NVS (R156). -/
def serviceClass (n : Nat) : Option Nat :=
  match n with
  | 1 => some 4
  | 4 => some 5
  | 5 => some 5
  | _ => none

/-- A SYS request of a Stall whose service has effects in a class of a mask. -/
def reqInMask (k : StallId) (mask : BitVec 6) (r : SysReq) : Bool :=
  r.stall == k && (match serviceClass r.service.toNat with
    | some c => mask.getLsbD c
    | none => false)

/-- The tickets of a Stall whose services have not yet performed their effects in the classes of a mask (R39, R156). -/
def openTickets (s : State) (k : StallId) (mask : BitVec 6) : List (BitVec 32) :=
  let queued := ((s.markets[marketOf k]).sysQueue.filter (reqInMask k mask)).map SysReq.ticket
  let ofWaiter (a : NvsAppend) : List (BitVec 32) := match a.who with
    | .task r => if reqInMask k mask r then [r.ticket] else []
    | _ => []
  let appends := (s.nvs.append.toList ++ s.nvs.waiting).flatMap ofWaiter
  let blocks := (s.host.finished.filter (fun d =>
    d.cmd.opcode == 0x38 && mask.getLsbD 4 && d.status == 0 && bits d.result1 42 39 == k.val)).map
      (fun d => d.result1.setWidth 32)
  queued ++ appends ++ blocks

/-- A commit transaction of the Stall is outstanding at its bank. -/
def stallCommits (s : State) (k : StallId) : Bool := (tillsOf k).any (fun t => commitInBank s t)

/-- What a fence with a mask still waits for (R38 to R40). -/
def fenceWaits (s : State) (k : StallId) (f : FenceWait) : Bool :=
  (f.mask.getLsbD 0 && stallCommits s k) || f.tickets.any (fun x => (openTickets s k f.mask).contains x)

/-- FENCE: the classes of the mask are ordered; it waits only when something is outstanding in them (R38 to R40, R152). -/
def execFence (t : TillId) (rd rs1 : RegNo) (imm : BitVec 12) (s : State) : Out :=
  let mask : BitVec 6 := imm.extractLsb' 0 6
  ok (runInstr t (encI 0x31 1 rd rs1 imm) (rd == 0 && rs1 == 0 && imm.extractLsb' 6 6 == 0) noTrap true false (fun q =>
    if isSpec q t && (mask.getLsbD 3 || mask.getLsbD 4) then .stop 3
    else if q.stalls[t.stall].fence.isSome then .wait
    else
      let f : FenceWait := { mask := mask, tickets := openTickets q t.stall mask }
      .done (pcNext q t) (if fenceWaits q t.stall f then modStall t.stall (fun k => { k with fence := some f }) q else q)) s)

/-- FENCE_COMPLETE: every access and request the fence waits for has been performed (R38, R39, R41). -/
def execFenceComplete (t : TillId) (s : State) : Out :=
  match s.stalls[t.stall].fence with
  | some f => ok (if fenceWaits s t.stall f then s else modStall t.stall (fun k => { k with fence := none }) s)
  | none => ok s

/-- The value TMRQ selects (R146). -/
def tmrqValue (s : State) (t : TillId) (sel : Nat) : Word :=
  let r := (tillAt s t).rel
  let e := tillEntry s t
  let stamp := r.evt.getD 1 0
  if e.event then
    (match sel with
    | 0 => stamp
    | 1 => field 0 (stamp.toNat / 31250)
    | _ => 0)
  else
    (match sel with
    | 0 => r.instant
    | 1 => field 0 r.tick
    | _ => field 0 (periodOf e * 31250))

/-- TMRQ: the release instant, the tick number or the period (R146, R147). -/
def execTmrq (t : TillId) (rd rs1 : RegNo) (imm : BitVec 12) (s : State) : Out :=
  ok (runInstr t (encI 0x31 2 rd rs1 imm) (rs1 == 0 && imm.extractLsb' 2 10 == 0 && imm.extractLsb' 0 2 != 3) noTrap
    true false (fun q => writeRd t rd (tmrqValue q t (imm.toNat % 4)) q) s)

/-- NOP: only PC advances (R153). -/
def execNop (t : TillId) (rd rs1 : RegNo) (imm : BitVec 12) (s : State) : Out :=
  ok (runInstr t (encI 0x31 3 rd rs1 imm) (rd == 0 && rs1 == 0 && imm == 0) noTrap true false
    (fun q => .done (pcNext q t) q) s)

/-- JMP: PC + imm20 × 4 (R134). -/
def execJmp (t : TillId) (rd : RegNo) (imm : BitVec 20) (s : State) : Out :=
  ok (runInstr t (encJ 0x35 rd imm) (rd == 0) noTrap false false
    (fun q => .done (pcWord q t + sext20 imm 4) q) s)

/-- CALL: a call with PC-relative target (R134). -/
def execCall (t : TillId) (rd : RegNo) (imm : BitVec 20) (s : State) : Out :=
  ok (runCall t (encJ 0x39 rd imm) rd (fun q => pcWord q t + sext20 imm 4) s)

/-- CALLR: a call with target rs1 + imm12 (R134). -/
def execCallr (t : TillId) (rd rs1 : RegNo) (imm : BitVec 12) (s : State) : Out :=
  ok (runCall t (encI 0x3D 0 rd rs1 imm) rd (fun q => reg q t rs1 + sext12 imm) s)

/-- JR: PC := rs1 + imm12, which may end the task body (R134, R135). -/
def execJr (t : TillId) (rd rs1 : RegNo) (imm : BitVec 12) (s : State) : Out :=
  ok (runInstr t (encI 0x3D 1 rd rs1 imm) (rd == 0) noTrap false true
    (fun q => .done (reg q t rs1 + sext12 imm) q) s)

/-- RET: PC := w30 and w29 := w28, which may end the task body (R134, R135). -/
def execRet (t : TillId) (rd rs1 : RegNo) (imm : BitVec 12) (s : State) : Out :=
  ok (runInstr t (encI 0x3D 2 rd rs1 imm) (rd == 0 && rs1 == 0 && imm == 0) noTrap false true
    (fun q => .done (reg q t 30) (setReg t 29 (reg q t 28) q)) s)

/-- BREAKPOINT_REACHED: a non-speculative release freezes its task and MODE becomes HOLD if it was RUN; a speculative one waits (R68, R89, R166). -/
def execBreakpointReached (t : TillId) (s : State) : Out :=
  if !runnable s t then ok s
  else match breakHere s t with
  | none => ok s
  | some b =>
    if isSpec s t then
      ok (modTill t (fun k => { k with stallCause := 10, spent := k.spent + (s.mono - k.runSince), runSince := s.mono }) s)
    else
      let q := modTill t (fun k => { k with
        frozen := some { cause := 0, fault := false, scopeAll := b.scopeAll }, stepping := false }) s
      let q := { q with ctl := { q.ctl with scopeAll := q.ctl.scopeAll || b.scopeAll } }
      ok (enterHold 4 (tillAt s t).rel.task q)

/-- RESERVATION_TIMEOUT: 1,024 Market cycles after the LR.D the reservation is empty (R149). -/
def execReservationTimeout (t : TillId) (s : State) : Out :=
  match (tillAt s t).resv with
  | some _ =>
    let at_ := (tillAt s t).resvAt + cyclesNs s.markets[marketOf t.stall] 1024
    ok (modTill t (fun k => { k with resv := none }) (untilMono at_ s))
  | none => ok s

/-- The kind of a transient fault by its number in REPLAY_OK (R461). -/
def faultKindOf (n : Fin 4) : FaultKind :=
  match n with
  | 0 => .programStore
  | 1 => .localData
  | 2 => .lane
  | 3 => .tillState

/-- TRANSIENT_FAULT: a transient fault is detected in a running release, at a word or in the Till (R106 to R112). -/
def execTransientFault (t : TillId) (kind : Fin 4) (addr : BitVec 40) (s : State) : Out :=
  if runnable s t then ok (detectTransient t (faultKindOf kind) addr.toNat 0 s) else ok s

/-- UNDEFINED_INSTRUCTION: a word that spells no instruction raises ILLEGAL (R125, R162). -/
def execUndefinedInstruction (t : TillId) (word : BitVec 32) (s : State) : Out :=
  if (decodeTally t word).isSome then ok s
  else ok (runInstr t word false noTrap false false (fun q => .done (pcNext q t) q) s)

end Sys2Proof.Machine
end

