-- ==== Sys2Proof/Machine/Dispatch.lean ====
section
/-!
DEFINITION. The dispatcher: one arm per constructor of Instr, each one direct call of that command's meaning.
-/
namespace Sys2Proof.Machine

/-- The effect of a command on everything but the queue. -/
def exec (i : Instr) (s : State) : Host.Outcome State Fault Refusal :=
  match i with
  | .add t rd rs1 rs2 => Sys2Proof.Machine.execAdd t rd rs1 rs2 s
  | .sub t rd rs1 rs2 => Sys2Proof.Machine.execSub t rd rs1 rs2 s
  | .and t rd rs1 rs2 => Sys2Proof.Machine.execAnd t rd rs1 rs2 s
  | .or t rd rs1 rs2 => Sys2Proof.Machine.execOr t rd rs1 rs2 s
  | .xor t rd rs1 rs2 => Sys2Proof.Machine.execXor t rd rs1 rs2 s
  | .andc t rd rs1 rs2 => Sys2Proof.Machine.execAndc t rd rs1 rs2 s
  | .orc t rd rs1 rs2 => Sys2Proof.Machine.execOrc t rd rs1 rs2 s
  | .shl t rd rs1 rs2 => Sys2Proof.Machine.execShl t rd rs1 rs2 s
  | .shru t rd rs1 rs2 => Sys2Proof.Machine.execShru t rd rs1 rs2 s
  | .shrs t rd rs1 rs2 => Sys2Proof.Machine.execShrs t rd rs1 rs2 s
  | .rotr t rd rs1 rs2 => Sys2Proof.Machine.execRotr t rd rs1 rs2 s
  | .clts t rd rs1 rs2 => Sys2Proof.Machine.execClts t rd rs1 rs2 s
  | .cltu t rd rs1 rs2 => Sys2Proof.Machine.execCltu t rd rs1 rs2 s
  | .ceq t rd rs1 rs2 => Sys2Proof.Machine.execCeq t rd rs1 rs2 s
  | .mins t rd rs1 rs2 => Sys2Proof.Machine.execMins t rd rs1 rs2 s
  | .maxs t rd rs1 rs2 => Sys2Proof.Machine.execMaxs t rd rs1 rs2 s
  | .minu t rd rs1 rs2 => Sys2Proof.Machine.execMinu t rd rs1 rs2 s
  | .maxu t rd rs1 rs2 => Sys2Proof.Machine.execMaxu t rd rs1 rs2 s
  | .mul t rd rs1 rs2 => Sys2Proof.Machine.execMul t rd rs1 rs2 s
  | .mulhs t rd rs1 rs2 => Sys2Proof.Machine.execMulhs t rd rs1 rs2 s
  | .mulhu t rd rs1 rs2 => Sys2Proof.Machine.execMulhu t rd rs1 rs2 s
  | .divs t rd rs1 rs2 => Sys2Proof.Machine.execDivs t rd rs1 rs2 s
  | .divu t rd rs1 rs2 => Sys2Proof.Machine.execDivu t rd rs1 rs2 s
  | .mods t rd rs1 rs2 => Sys2Proof.Machine.execMods t rd rs1 rs2 s
  | .modu t rd rs1 rs2 => Sys2Proof.Machine.execModu t rd rs1 rs2 s
  | .exts8 t rd rs1 rs2 => Sys2Proof.Machine.execExts8 t rd rs1 rs2 s
  | .exts16 t rd rs1 rs2 => Sys2Proof.Machine.execExts16 t rd rs1 rs2 s
  | .exts32 t rd rs1 rs2 => Sys2Proof.Machine.execExts32 t rd rs1 rs2 s
  | .extu8 t rd rs1 rs2 => Sys2Proof.Machine.execExtu8 t rd rs1 rs2 s
  | .extu16 t rd rs1 rs2 => Sys2Proof.Machine.execExtu16 t rd rs1 rs2 s
  | .extu32 t rd rs1 rs2 => Sys2Proof.Machine.execExtu32 t rd rs1 rs2 s
  | .lzc t rd rs1 rs2 => Sys2Proof.Machine.execLzc t rd rs1 rs2 s
  | .tzc t rd rs1 rs2 => Sys2Proof.Machine.execTzc t rd rs1 rs2 s
  | .popc t rd rs1 rs2 => Sys2Proof.Machine.execPopc t rd rs1 rs2 s
  | .bitget t rd rs1 rs2 => Sys2Proof.Machine.execBitget t rd rs1 rs2 s
  | .bitset t rd rs1 rs2 => Sys2Proof.Machine.execBitset t rd rs1 rs2 s
  | .bitclr t rd rs1 rs2 => Sys2Proof.Machine.execBitclr t rd rs1 rs2 s
  | .bitflp t rd rs1 rs2 => Sys2Proof.Machine.execBitflp t rd rs1 rs2 s
  | .addk t rd rs1 imm => Sys2Proof.Machine.execAddk t rd rs1 imm s
  | .cltsk t rd rs1 imm => Sys2Proof.Machine.execCltsk t rd rs1 imm s
  | .cltuk t rd rs1 imm => Sys2Proof.Machine.execCltuk t rd rs1 imm s
  | .andk t rd rs1 imm => Sys2Proof.Machine.execAndk t rd rs1 imm s
  | .ork t rd rs1 imm => Sys2Proof.Machine.execOrk t rd rs1 imm s
  | .xork t rd rs1 imm => Sys2Proof.Machine.execXork t rd rs1 imm s
  | .shlk t rd rs1 amt => Sys2Proof.Machine.execShlk t rd rs1 amt s
  | .shruk t rd rs1 amt => Sys2Proof.Machine.execShruk t rd rs1 amt s
  | .shrsk t rd rs1 amt => Sys2Proof.Machine.execShrsk t rd rs1 amt s
  | .rotrk t rd rs1 amt => Sys2Proof.Machine.execRotrk t rd rs1 amt s
  | .bitgetk t rd rs1 amt => Sys2Proof.Machine.execBitgetk t rd rs1 amt s
  | .bitsetk t rd rs1 amt => Sys2Proof.Machine.execBitsetk t rd rs1 amt s
  | .bitclrk t rd rs1 amt => Sys2Proof.Machine.execBitclrk t rd rs1 amt s
  | .bitflpk t rd rs1 amt => Sys2Proof.Machine.execBitflpk t rd rs1 amt s
  | .ceqk t rd rs1 imm => Sys2Proof.Machine.execCeqk t rd rs1 imm s
  | .lup t rd imm => Sys2Proof.Machine.execLup t rd imm s
  | .dadd t rd rs1 rs2 => Sys2Proof.Machine.execDadd t rd rs1 rs2 s
  | .dsub t rd rs1 rs2 => Sys2Proof.Machine.execDsub t rd rs1 rs2 s
  | .dmul t rd rs1 rs2 => Sys2Proof.Machine.execDmul t rd rs1 rs2 s
  | .ddiv t rd rs1 rs2 => Sys2Proof.Machine.execDdiv t rd rs1 rs2 s
  | .dsqrt t rd rs1 rs2 => Sys2Proof.Machine.execDsqrt t rd rs1 rs2 s
  | .dmin t rd rs1 rs2 => Sys2Proof.Machine.execDmin t rd rs1 rs2 s
  | .dmax t rd rs1 rs2 => Sys2Proof.Machine.execDmax t rd rs1 rs2 s
  | .dceq t rd rs1 rs2 => Sys2Proof.Machine.execDceq t rd rs1 rs2 s
  | .dclt t rd rs1 rs2 => Sys2Proof.Machine.execDclt t rd rs1 rs2 s
  | .dcle t rd rs1 rs2 => Sys2Proof.Machine.execDcle t rd rs1 rs2 s
  | .itod t rd rs1 rs2 => Sys2Proof.Machine.execItod t rd rs1 rs2 s
  | .dtoi t rd rs1 rs2 => Sys2Proof.Machine.execDtoi t rd rs1 rs2 s
  | .dtoiz t rd rs1 rs2 => Sys2Proof.Machine.execDtoiz t rd rs1 rs2 s
  | .dtos t rd rs1 rs2 => Sys2Proof.Machine.execDtos t rd rs1 rs2 s
  | .stod t rd rs1 rs2 => Sys2Proof.Machine.execStod t rd rs1 rs2 s
  | .ldD t rd rs1 imm => Sys2Proof.Machine.execLdD t rd rs1 imm s
  | .ldW t rd rs1 imm => Sys2Proof.Machine.execLdW t rd rs1 imm s
  | .ldH t rd rs1 imm => Sys2Proof.Machine.execLdH t rd rs1 imm s
  | .ldB t rd rs1 imm => Sys2Proof.Machine.execLdB t rd rs1 imm s
  | .ldWu t rd rs1 imm => Sys2Proof.Machine.execLdWu t rd rs1 imm s
  | .ldHu t rd rs1 imm => Sys2Proof.Machine.execLdHu t rd rs1 imm s
  | .ldBu t rd rs1 imm => Sys2Proof.Machine.execLdBu t rd rs1 imm s
  | .stD t rs1 rs2 imm => Sys2Proof.Machine.execStD t rs1 rs2 imm s
  | .stW t rs1 rs2 imm => Sys2Proof.Machine.execStW t rs1 rs2 imm s
  | .stH t rs1 rs2 imm => Sys2Proof.Machine.execStH t rs1 rs2 imm s
  | .stB t rs1 rs2 imm => Sys2Proof.Machine.execStB t rs1 rs2 imm s
  | .lget t rd rs1 rm off => Sys2Proof.Machine.execLget t rd rs1 rm off s
  | .land t rd rs1 rm off => Sys2Proof.Machine.execLand t rd rs1 rm off s
  | .lor t rd rs1 rm off => Sys2Proof.Machine.execLor t rd rs1 rm off s
  | .lxor t rd rs1 rm off => Sys2Proof.Machine.execLxor t rd rs1 rm off s
  | .landn t rd rs1 rm off => Sys2Proof.Machine.execLandn t rd rs1 rm off s
  | .lcnt t rd rs1 rm off => Sys2Proof.Machine.execLcnt t rd rs1 rm off s
  | .lput t rd rs1 rm off => Sys2Proof.Machine.execLput t rd rs1 rm off s
  | .lsetb t rd rs1 rm off => Sys2Proof.Machine.execLsetb t rd rs1 rm off s
  | .lclrb t rd rs1 rm off => Sys2Proof.Machine.execLclrb t rd rs1 rm off s
  | .linv t rd rs1 rm off => Sys2Proof.Machine.execLinv t rd rs1 rm off s
  | .bcr t cond rs1 rs2 disp => Sys2Proof.Machine.execBcr t cond rs1 rs2 disp s
  | .bci t cond rs1 imm disp => Sys2Proof.Machine.execBci t cond rs1 imm disp s
  | .bbs t rs1 b disp => Sys2Proof.Machine.execBbs t rs1 b disp s
  | .bbc t rs1 b disp => Sys2Proof.Machine.execBbc t rs1 b disp s
  | .edgeR t rd rs1 imm => Sys2Proof.Machine.execEdgeR t rd rs1 imm s
  | .edgeF t rd rs1 imm => Sys2Proof.Machine.execEdgeF t rd rs1 imm s
  | .edgeB t rd rs1 imm => Sys2Proof.Machine.execEdgeB t rd rs1 imm s
  | .lrD t rd rs1 rs2 => Sys2Proof.Machine.execLrD t rd rs1 rs2 s
  | .scD t rd rs1 rs2 => Sys2Proof.Machine.execScD t rd rs1 rs2 s
  | .tas t rd rs1 rs2 => Sys2Proof.Machine.execTas t rd rs1 rs2 s
  | .sysCall t rd rs1 imm => Sys2Proof.Machine.execSysCall t rd rs1 imm s
  | .fence t rd rs1 imm => Sys2Proof.Machine.execFence t rd rs1 imm s
  | .fenceComplete t => Sys2Proof.Machine.execFenceComplete t s
  | .tmrq t rd rs1 imm => Sys2Proof.Machine.execTmrq t rd rs1 imm s
  | .nop t rd rs1 imm => Sys2Proof.Machine.execNop t rd rs1 imm s
  | .jmp t rd imm => Sys2Proof.Machine.execJmp t rd imm s
  | .call t rd imm => Sys2Proof.Machine.execCall t rd imm s
  | .callr t rd rs1 imm => Sys2Proof.Machine.execCallr t rd rs1 imm s
  | .jr t rd rs1 imm => Sys2Proof.Machine.execJr t rd rs1 imm s
  | .ret t rd rs1 imm => Sys2Proof.Machine.execRet t rd rs1 imm s
  | .breakpointReached t => Sys2Proof.Machine.execBreakpointReached t s
  | .reservationTimeout t => Sys2Proof.Machine.execReservationTimeout t s
  | .transientFault t kind addr => Sys2Proof.Machine.execTransientFault t kind addr s
  | .releaseSignalArrival task => Sys2Proof.Machine.execReleaseSignalArrival task s
  | .dispatch stall => Sys2Proof.Machine.execDispatch stall s
  | .speculationStart stall => Sys2Proof.Machine.execSpeculationStart stall s
  | .comparisonComplete t => Sys2Proof.Machine.execComparisonComplete t s
  | .verificationReplayDone t => Sys2Proof.Machine.execVerificationReplayDone t s
  | .eventTriggerArrival task => Sys2Proof.Machine.execEventTriggerArrival task s
  | .directOutputWord => Sys2Proof.Machine.execDirectOutputWord s
  | .bankTransactionStart m => Sys2Proof.Machine.execBankTransactionStart m s
  | .bankAgeing m => Sys2Proof.Machine.execBankAgeing m s
  | .bankTransactionEnd m => Sys2Proof.Machine.execBankTransactionEnd m s
  | .imageRoute index => Sys2Proof.Machine.execImageRoute index s
  | .scrub upset => Sys2Proof.Machine.execScrub upset s
  | .nopCommand ring => Sys2Proof.Machine.execNopCommand ring s
  | .fenceDescriptor ring => Sys2Proof.Machine.execFenceDescriptor ring s
  | .dmaCopy ring => Sys2Proof.Machine.execDmaCopy ring s
  | .dmaWrite ring => Sys2Proof.Machine.execDmaWrite ring s
  | .arm ring => Sys2Proof.Machine.execArm ring s
  | .disarm ring => Sys2Proof.Machine.execDisarm ring s
  | .runCommand ring => Sys2Proof.Machine.execRunCommand ring s
  | .stopCommand ring => Sys2Proof.Machine.execStopCommand ring s
  | .continueTask ring => Sys2Proof.Machine.execContinueTask ring s
  | .stepTask ring => Sys2Proof.Machine.execStepTask ring s
  | .breakSet ring => Sys2Proof.Machine.execBreakSet ring s
  | .breakClear ring => Sys2Proof.Machine.execBreakClear ring s
  | .taskStatus ring => Sys2Proof.Machine.execTaskStatus ring s
  | .taskClear ring => Sys2Proof.Machine.execTaskClear ring s
  | .dbgState ring => Sys2Proof.Machine.execDbgState ring s
  | .projectLoad ring data => Sys2Proof.Machine.execProjectLoad ring data s
  | .changeLoad ring data => Sys2Proof.Machine.execChangeLoad ring data s
  | .changeApply ring => Sys2Proof.Machine.execChangeApply ring s
  | .changeAbort ring => Sys2Proof.Machine.execChangeAbort ring s
  | .xwrite ring data => Sys2Proof.Machine.execXwrite ring data s
  | .forceSet ring => Sys2Proof.Machine.execForceSet ring s
  | .forceClear ring => Sys2Proof.Machine.execForceClear ring s
  | .forceList ring => Sys2Proof.Machine.execForceList ring s
  | .camLoad ring data => Sys2Proof.Machine.execCamLoad ring data s
  | .timeConfig ring => Sys2Proof.Machine.execTimeConfig ring s
  | .timeStatus ring => Sys2Proof.Machine.execTimeStatus ring s
  | .blockArm ring => Sys2Proof.Machine.execBlockArm ring s
  | .blockCancel ring => Sys2Proof.Machine.execBlockCancel ring s
  | .rtcGet ring => Sys2Proof.Machine.execRtcGet ring s
  | .rtcSetsec ring => Sys2Proof.Machine.execRtcSetsec ring s
  | .rtcSetdate ring => Sys2Proof.Machine.execRtcSetdate ring s
  | .rtcShift ring => Sys2Proof.Machine.execRtcShift ring s
  | .rtcCal ring => Sys2Proof.Machine.execRtcCal ring s
  | .calToDate ring => Sys2Proof.Machine.execCalToDate ring s
  | .dateToCal ring => Sys2Proof.Machine.execDateToCal ring s
  | .recRead ring => Sys2Proof.Machine.execRecRead ring s
  | .recFlush ring => Sys2Proof.Machine.execRecFlush ring s
  | .trendConfig ring => Sys2Proof.Machine.execTrendConfig ring s
  | .trendRead ring => Sys2Proof.Machine.execTrendRead ring s
  | .nvsPut ring data => Sys2Proof.Machine.execNvsPut ring data s
  | .nvsGet ring => Sys2Proof.Machine.execNvsGet ring s
  | .nvsCompact ring => Sys2Proof.Machine.execNvsCompact ring s
  | .fwLoad ring data => Sys2Proof.Machine.execFwLoad ring data s
  | .fwActivate ring => Sys2Proof.Machine.execFwActivate ring s
  | .fwAccept ring => Sys2Proof.Machine.execFwAccept ring s
  | .projectStore ring data => Sys2Proof.Machine.execProjectStore ring data s
  | .attest ring data => Sys2Proof.Machine.execAttest ring data s
  | .secProvision ring data => Sys2Proof.Machine.execSecProvision ring data s
  | .secKeyload ring data => Sys2Proof.Machine.execSecKeyload ring data s
  | .idRead ring => Sys2Proof.Machine.execIdRead ring s
  | .wdgCheckin ring => Sys2Proof.Machine.execWdgCheckin ring s
  | .pairForm ring peer => Sys2Proof.Machine.execPairForm ring peer s
  | .pairSwitch ring => Sys2Proof.Machine.execPairSwitch ring s
  | .pairLeave ring => Sys2Proof.Machine.execPairLeave ring s
  | .pairStatus ring => Sys2Proof.Machine.execPairStatus ring s
  | .sendBlock m => Sys2Proof.Machine.execSendBlock m s
  | .logEvent m => Sys2Proof.Machine.execLogEvent m s
  | .wdgCheckinService m => Sys2Proof.Machine.execWdgCheckinService m s
  | .nvsPutService m => Sys2Proof.Machine.execNvsPutService m s
  | .nvsGetService m => Sys2Proof.Machine.execNvsGetService m s
  | .calConvert m => Sys2Proof.Machine.execCalConvert m s
  | .commandCompletion ring fail => Sys2Proof.Machine.execCommandCompletion ring fail s
  | .doorbellPoll => Sys2Proof.Machine.execDoorbellPoll s
  | .pollDataArrival ok data => Sys2Proof.Machine.execPollDataArrival ok data s
  | .descriptorArrival ring ok data => Sys2Proof.Machine.execDescriptorArrival ring ok data s
  | .ownTimeout ring => Sys2Proof.Machine.execOwnTimeout ring s
  | .hostLost => Sys2Proof.Machine.execHostLost s
  | .eventBacklogWrite => Sys2Proof.Machine.execEventBacklogWrite s
  | .interruptModeration ring => Sys2Proof.Machine.execInterruptModeration ring s
  | .dmaBurst data => Sys2Proof.Machine.execDmaBurst data s
  | .dmaRequestFailure chan cause dest => Sys2Proof.Machine.execDmaRequestFailure chan cause dest s
  | .hostReset => Sys2Proof.Machine.execHostReset s
  | .busMasterDisable d3 => Sys2Proof.Machine.execBusMasterDisable d3 s
  | .bar0InvalidAccess write off => Sys2Proof.Machine.execBar0InvalidAccess write off s
  | .registerWrite off val teller => Sys2Proof.Machine.execRegisterWrite off val teller s
  | .rngNudge val => Sys2Proof.Machine.execRngNudge val s
  | .ringConfigWrite off val => Sys2Proof.Machine.execRingConfigWrite off val s
  | .dmaCtlEnWrite val => Sys2Proof.Machine.execDmaCtlEnWrite val s
  | .dmaBurstRequest val => Sys2Proof.Machine.execDmaBurstRequest val s
  | .dmaResume chan val => Sys2Proof.Machine.execDmaResume chan val s
  | .dmaFlush chan val => Sys2Proof.Machine.execDmaFlush chan val s
  | .tsySnap val => Sys2Proof.Machine.execTsySnap val s
  | .tsyAdj val teller => Sys2Proof.Machine.execTsyAdj val teller s
  | .tsyRateWrite val => Sys2Proof.Machine.execTsyRateWrite val s
  | .tsySlewmaxWrite val => Sys2Proof.Machine.execTsySlewmaxWrite val s
  | .tsyKey val => Sys2Proof.Machine.execTsyKey val s
  | .servoenClear val => Sys2Proof.Machine.execServoenClear val s
  | .tcmpTimeWrite n val => Sys2Proof.Machine.execTcmpTimeWrite n val s
  | .tcmpCtlWrite n val => Sys2Proof.Machine.execTcmpCtlWrite n val s
  | .netCfgWrite port val => Sys2Proof.Machine.execNetCfgWrite port val s
  | .netCntclr val => Sys2Proof.Machine.execNetCntclr val s
  | .fioCntLoad k val => Sys2Proof.Machine.execFioCntLoad k val s
  | .fioCsnap val => Sys2Proof.Machine.execFioCsnap val s
  | .fioArm c val => Sys2Proof.Machine.execFioArm c val s
  | .groupFaultClear g val => Sys2Proof.Machine.execGroupFaultClear g val s
  | .anaMmclr k val => Sys2Proof.Machine.execAnaMmclr k val s
  | .fioCntclr val => Sys2Proof.Machine.execFioCntclr val s
  | .latchIgnClear j val => Sys2Proof.Machine.execLatchIgnClear j val s
  | .motCntclr val => Sys2Proof.Machine.execMotCntclr val s
  | .motEcfgWrite e val => Sys2Proof.Machine.execMotEcfgWrite e val s
  | .mktClkWrite m val => Sys2Proof.Machine.execMktClkWrite m val s
  | .spctlWrite val => Sys2Proof.Machine.execSpctlWrite val s
  | .stlCntclr val => Sys2Proof.Machine.execStlCntclr val s
  | .wdgSvc val teller => Sys2Proof.Machine.execWdgSvc val teller s
  | .wdgKey val => Sys2Proof.Machine.execWdgKey val s
  | .prsBudgetWrite val => Sys2Proof.Machine.execPrsBudgetWrite val s
  | .prsCntclr val => Sys2Proof.Machine.execPrsCntclr val s
  | .sysEcntclr val => Sys2Proof.Machine.execSysEcntclr val s
  | .sysRstctl val => Sys2Proof.Machine.execSysRstctl val s
  | .rtcSetsecWrite val => Sys2Proof.Machine.execRtcSetsecWrite val s
  | .rtcShiftWrite val => Sys2Proof.Machine.execRtcShiftWrite val s
  | .rtcCalWrite val => Sys2Proof.Machine.execRtcCalWrite val s
  | .rtcWriteApply => Sys2Proof.Machine.execRtcWriteApply s
  | .nvsLockKey val => Sys2Proof.Machine.execNvsLockKey val s
  | .nvsCntclr val => Sys2Proof.Machine.execNvsCntclr val s
  | .redCntclr val => Sys2Proof.Machine.execRedCntclr val s
  | .modeEffect => Sys2Proof.Machine.execModeEffect s
  | .stallAwake stall => Sys2Proof.Machine.execStallAwake stall s
  | .purseGrant => Sys2Proof.Machine.execPurseGrant s
  | .purseTimeout => Sys2Proof.Machine.execPurseTimeout s
  | .windowOpen m => Sys2Proof.Machine.execWindowOpen m s
  | .windowClose m => Sys2Proof.Machine.execWindowClose m s
  | .windowTimeout m => Sys2Proof.Machine.execWindowTimeout m s
  | .tickBoundary => Sys2Proof.Machine.execTickBoundary s
  | .timeComparatorFire n => Sys2Proof.Machine.execTimeComparatorFire n s
  | .slewEnd => Sys2Proof.Machine.execSlewEnd s
  | .forcedStepTimeout => Sys2Proof.Machine.execForcedStepTimeout s
  | .setwaitExpiry => Sys2Proof.Machine.execSetwaitExpiry s
  | .ptpMessageReceive port msg => Sys2Proof.Machine.execPtpMessageReceive port msg s
  | .syncReceiptTimeout => Sys2Proof.Machine.execSyncReceiptTimeout s
  | .gclChange port => Sys2Proof.Machine.execGclChange port s
  | .portLinkChange port up spd bad => Sys2Proof.Machine.execPortLinkChange port up spd bad s
  | .cycleFrameReceive port stamp frame => Sys2Proof.Machine.execCycleFrameReceive port stamp frame s
  | .unsupportedFrame port fcsError => Sys2Proof.Machine.execUnsupportedFrame port fcsError s
  | .receiveWindowClose entry => Sys2Proof.Machine.execReceiveWindowClose entry s
  | .transmitGather entry => Sys2Proof.Machine.execTransmitGather entry s
  | .frameTransmit entry => Sys2Proof.Machine.execFrameTransmit entry s
  | .motionCycle e => Sys2Proof.Machine.execMotionCycle e s
  | .motionHandoff e => Sys2Proof.Machine.execMotionHandoff e s
  | .motionDeadline e unfinished => Sys2Proof.Machine.execMotionDeadline e unfinished s
  | .fieldInputEdge c level => Sys2Proof.Machine.execFieldInputEdge c level s
  | .debounceExpiry c => Sys2Proof.Machine.execDebounceExpiry c s
  | .reflexPulseEnd e => Sys2Proof.Machine.execReflexPulseEnd e s
  | .fieldInputTime => Sys2Proof.Machine.execFieldInputTime s
  | .fieldGatherStart => Sys2Proof.Machine.execFieldGatherStart s
  | .fieldOutputTime => Sys2Proof.Machine.execFieldOutputTime s
  | .generatorEdge c => Sys2Proof.Machine.execGeneratorEdge c s
  | .staggeredSwitch => Sys2Proof.Machine.execStaggeredSwitch s
  | .outputTrip c thermal => Sys2Proof.Machine.execOutputTrip c thermal s
  | .outputRetry c => Sys2Proof.Machine.execOutputRetry c s
  | .lplusUvChange g level => Sys2Proof.Machine.execLplusUvChange g level s
  | .fieldSag g => Sys2Proof.Machine.execFieldSag g s
  | .fieldCutoff g => Sys2Proof.Machine.execFieldCutoff g s
  | .analogSample k => Sys2Proof.Machine.execAnalogSample k s
  | .analogConversionDone k code => Sys2Proof.Machine.execAnalogConversionDone k code s
  | .watchdogExpire => Sys2Proof.Machine.execWatchdogExpire s
  | .hardTimerEnd => Sys2Proof.Machine.execHardTimerEnd s
  | .eraseSuspensionLimit => Sys2Proof.Machine.execEraseSuspensionLimit s
  | .fatalError cause => Sys2Proof.Machine.execFatalError cause s
  | .fatalResetTimer => Sys2Proof.Machine.execFatalResetTimer s
  | .powerLoss source => Sys2Proof.Machine.execPowerLoss source s
  | .saveCommitDeadline => Sys2Proof.Machine.execSaveCommitDeadline s
  | .retentiveSave => Sys2Proof.Machine.execRetentiveSave s
  | .powerLossReset => Sys2Proof.Machine.execPowerLossReset s
  | .railBelowReset aonLost => Sys2Proof.Machine.execRailBelowReset aonLost s
  | .resetPin low => Sys2Proof.Machine.execResetPin low s
  | .backupSwitchover toVbat => Sys2Proof.Machine.execBackupSwitchover toVbat s
  | .backupPowerUp => Sys2Proof.Machine.execBackupPowerUp s
  | .resetRelease pbud recov brdid => Sys2Proof.Machine.execResetRelease pbud recov brdid s
  | .pllRetry => Sys2Proof.Machine.execPllRetry s
  | .ready fail => Sys2Proof.Machine.execReady fail s
  | .flashProgramDone ok => Sys2Proof.Machine.execFlashProgramDone ok s
  | .flashEraseDone => Sys2Proof.Machine.execFlashEraseDone s
  | .recorderFlush => Sys2Proof.Machine.execRecorderFlush s
  | .trendSample ch => Sys2Proof.Machine.execTrendSample ch s
  | .retentionCheck => Sys2Proof.Machine.execRetentionCheck s
  | .marginScan sectors => Sys2Proof.Machine.execMarginScan sectors s
  | .opsecCopy => Sys2Proof.Machine.execOpsecCopy s
  | .rtcSyncCheck => Sys2Proof.Machine.execRtcSyncCheck s
  | .engineSwap cls => Sys2Proof.Machine.execEngineSwap cls s
  | .mailboxWrite off len data => Sys2Proof.Machine.execMailboxWrite off len data s
  | .mailboxVerify => Sys2Proof.Machine.execMailboxVerify s
  | .mailboxBoot => Sys2Proof.Machine.execMailboxBoot s
  | .mailboxAbort => Sys2Proof.Machine.execMailboxAbort s
  | .recoveryWrite tool xid off data => Sys2Proof.Machine.execRecoveryWrite tool xid off data s
  | .recoveryVerify tool xid => Sys2Proof.Machine.execRecoveryVerify tool xid s
  | .recoveryBoot tool xid => Sys2Proof.Machine.execRecoveryBoot tool xid s
  | .recoveryHello tool xid => Sys2Proof.Machine.execRecoveryHello tool xid s
  | .heartbeatInterval => Sys2Proof.Machine.execHeartbeatInterval s
  | .heartbeat lane mseq n hb epoch => Sys2Proof.Machine.execHeartbeat lane mseq n hb epoch s
  | .inputPiece lane mseq relnum task off last data => Sys2Proof.Machine.execInputPiece lane mseq relnum task off last data s
  | .eventPiece lane mseq relnum task evt => Sys2Proof.Machine.execEventPiece lane mseq relnum task evt s
  | .journal lane mseq relnum task entries => Sys2Proof.Machine.execJournal lane mseq relnum task entries s
  | .motionPiece lane mseq count engine data => Sys2Proof.Machine.execMotionPiece lane mseq count engine data s
  | .hashMessage lane mseq relnum w0 w1 => Sys2Proof.Machine.execHashMessage lane mseq relnum w0 w1 s
  | .verdict lane mseq relnum task reproduced => Sys2Proof.Machine.execVerdict lane mseq relnum task reproduced s
  | .control lane mseq n data => Sys2Proof.Machine.execControl lane mseq n data s
  | .stateCopy lane mseq addr data => Sys2Proof.Machine.execStateCopy lane mseq addr data s
  | .epochcopy lane mseq n closing data => Sys2Proof.Machine.execEpochcopy lane mseq n closing data s
  | .abdicate lane mseq n cause => Sys2Proof.Machine.execAbdicate lane mseq n cause s
  | .leave lane mseq => Sys2Proof.Machine.execLeave lane mseq s
  | .linkMessageDiscard lane => Sys2Proof.Machine.execLinkMessageDiscard lane s
  | .laneDown lane => Sys2Proof.Machine.execLaneDown lane s
  | .peerWatchWindow seen => Sys2Proof.Machine.execPeerWatchWindow seen s
  | .takeover => Sys2Proof.Machine.execTakeover s
  | .settleTimeout stall => Sys2Proof.Machine.execSettleTimeout stall s
  | .mirroredEpoch => Sys2Proof.Machine.execMirroredEpoch s
  | .autorsTimer peer => Sys2Proof.Machine.execAutorsTimer peer s
  | .confirmExpiry => Sys2Proof.Machine.execConfirmExpiry s
  | .pairFormTimeout => Sys2Proof.Machine.execPairFormTimeout s
  | .undefinedInstruction t word => Sys2Proof.Machine.execUndefinedInstruction t word s
  | .busMasterEnable d0 => Sys2Proof.Machine.execBusMasterEnable d0 s
  | .ptpMessageTransmit port kind stamp => Sys2Proof.Machine.execPtpMessageTransmit port kind stamp s
  | .crystalEdge => Sys2Proof.Machine.execCrystalEdge s
  | .wdgWindowOpen => Sys2Proof.Machine.execWdgWindowOpen s
  | .cbRecoveryResetTimeout entry => Sys2Proof.Machine.execCbRecoveryResetTimeout entry s
  | .preemptionVerification port what => Sys2Proof.Machine.execPreemptionVerification port what s
  | .resetSaveDeadline => Sys2Proof.Machine.execResetSaveDeadline s

end Sys2Proof.Machine
end

