-- ==== Sys2Proof/Machine/Step.lean ====
section
/-!
DEFINITION. The step of the block: the command at the front of the queue is carried out; on an empty queue 1 ns passes.
-/
namespace Sys2Proof.Machine

/-- One step: the command at the front of the queue, or 1 ns of idle time on an empty queue (log 1). -/
def step (s : State) : Host.Outcome State Fault Refusal :=
  match s.pending with
  | [] => .next (passTime 1 s)
  | c :: rest => exec c { s with pending := rest }

/-- The command that a word spells put at the front of the queue; the table gives no row any bits, so no word spells one (log 16). -/
def State.withFetchWord (s : State) (nbits w : Nat) : State :=
  match Sys2Proof.decodeTableWord nbits w with
  | some c => { s with pending := c :: s.pending }
  | none => s

end Sys2Proof.Machine
end

