-- ==== Sys2Proof/Safety.lean ====
section
/-!
DEFINITION. The words that statements use: when a Till may issue an instruction, the explicit next states of simple commands, when a ring has begun a command, and the rows of the ALU, FPU, load, store, Lane and branch groups with the results that the manual gives them.
-/
namespace Sys2Proof.Safety

open Sys2Proof.Machine

/-- The next state of a command that is carried out. -/
abbrev next (s : State) : Out := Host.Outcome.next s

/-! ### Tally -/

/-- A Till issues the instruction at its PC: it may run, no breakpoint is due, and the program word is undamaged (R46, R68, R106, R166). -/
def issues (s : State) (t : TillId) : Prop :=
  runnable s t = true ∧ breakHere s t = none ∧ fetchFault s t = none

/-- PC is aligned and not the last word of the program store, so that PC + 4 is an instruction address (R120, R136). -/
def fallsOk (s : State) (t : TillId) : Prop :=
  (tillAt s t).pc.toNat % 4 = 0 ∧ (tillAt s t).pc ≠ 0xFFFFC

/-- A jump target that is no release end address and no trap: aligned and below the release end address (R136). -/
def targetOk (x : Word) : Prop := x.toNat % 4 = 0 ∧ x.toNat < endAddress

/-- The instruction retires with a next PC: PC moves, the breakpoint of the old PC is passed, a step is over (R70, R166). -/
def movedTo (t : TillId) (pc : BitVec 20) (s : State) : State :=
  modTill t (fun k => { k with pc := pc, passBreak := false, stepping := false }) s

/-- The instruction writes rd (w0 discards the write) and PC advances by 4 (R119, R120). -/
def wrote (t : TillId) (rd : RegNo) (v : Word) (s : State) : State :=
  modTill t (fun k => { k with regs := putReg k.regs rd v, pc := k.pc + 4, passBreak := false, stepping := false }) s

/-- A result of two register operands, as R126 words it. -/
structure AluRow where
  row : TillId → RegNo → RegNo → RegNo → Instr
  result : Word → Word → Word

/-- Signed less-than of two words. -/
def sless (a b : Word) : Bool := decide (a.toInt < b.toInt)

/-- Unsigned less-than of two words. -/
def uless (a b : Word) : Bool := decide (a.toNat < b.toNat)

/-- 1 or 0. -/
def oneIf (b : Bool) : Word := if b then 1 else 0

/-- The two-operand rows of the ALU group, without the divisions (R126). -/
def aluRows : List AluRow :=
  [⟨.add, fun a b => BitVec.ofNat 64 (a.toNat + b.toNat)⟩,
   ⟨.sub, fun a b => BitVec.ofInt 64 (a.toInt - b.toInt)⟩,
   ⟨.and, fun a b => a &&& b⟩,
   ⟨.or, fun a b => a ||| b⟩,
   ⟨.xor, fun a b => a ^^^ b⟩,
   ⟨.andc, fun a b => a &&& ~~~b⟩,
   ⟨.orc, fun a b => a ||| ~~~b⟩,
   ⟨.shl, fun a b => BitVec.ofNat 64 (a.toNat * 2 ^ (b.toNat % 64))⟩,
   ⟨.shru, fun a b => BitVec.ofNat 64 (a.toNat / 2 ^ (b.toNat % 64))⟩,
   ⟨.shrs, fun a b => BitVec.ofInt 64 (a.toInt / 2 ^ (b.toNat % 64))⟩,
   ⟨.rotr, fun a b => (a >>> (b.toNat % 64)) ||| (a <<< (64 - b.toNat % 64))⟩] ++
  [⟨.clts, fun a b => oneIf (sless a b)⟩,
   ⟨.cltu, fun a b => oneIf (uless a b)⟩,
   ⟨.ceq, fun a b => oneIf (decide (a = b))⟩,
   ⟨.mins, fun a b => if sless a b then a else b⟩,
   ⟨.maxs, fun a b => if sless a b then b else a⟩,
   ⟨.minu, fun a b => if uless a b then a else b⟩,
   ⟨.maxu, fun a b => if uless a b then b else a⟩,
   ⟨.mul, fun a b => BitVec.ofNat 64 (a.toNat * b.toNat)⟩,
   ⟨.mulhs, fun a b => BitVec.ofInt 64 (a.toInt * b.toInt / 2 ^ 64)⟩,
   ⟨.mulhu, fun a b => BitVec.ofNat 64 (a.toNat * b.toNat / 2 ^ 64)⟩,
   ⟨.bitget, fun a b => oneIf (a.getLsbD (b.toNat % 64))⟩,
   ⟨.bitset, fun a b => a ||| BitVec.ofNat 64 (2 ^ (b.toNat % 64))⟩,
   ⟨.bitclr, fun a b => a &&& ~~~BitVec.ofNat 64 (2 ^ (b.toNat % 64))⟩,
   ⟨.bitflp, fun a b => a ^^^ BitVec.ofNat 64 (2 ^ (b.toNat % 64))⟩]

/-- The divisions of the ALU group, for a divisor that is not 0 (R126, R127). -/
def divRows : List AluRow :=
  [⟨.divs, fun a b => BitVec.ofInt 64 (a.toInt.tdiv b.toInt)⟩,
   ⟨.divu, fun a b => BitVec.ofNat 64 (a.toNat / b.toNat)⟩,
   ⟨.mods, fun a b => BitVec.ofInt 64 (a.toInt.tmod b.toInt)⟩,
   ⟨.modu, fun a b => BitVec.ofNat 64 (a.toNat % b.toNat)⟩]

/-- Bits `[n-1..0]` of a word read as a signed number (R126). -/
def signedLow (n : Nat) (a : Word) : Word :=
  let u := a.toNat % 2 ^ n
  if u < 2 ^ (n - 1) then BitVec.ofNat 64 u else BitVec.ofInt 64 ((u : Int) - 2 ^ n)

/-- Number of set bits of a word among the lowest `n`. -/
def onesBelow (a : Word) : Nat → Nat
  | 0 => 0
  | n + 1 => (a.getLsbD n).toNat + onesBelow a n

/-- The unary rows of the ALU group whose result R126 gives by a formula. -/
def unaryRows : List AluRow :=
  [⟨.exts8, fun a _ => signedLow 8 a⟩,
   ⟨.exts16, fun a _ => signedLow 16 a⟩,
   ⟨.exts32, fun a _ => signedLow 32 a⟩,
   ⟨.extu8, fun a _ => BitVec.ofNat 64 (a.toNat % 2 ^ 8)⟩,
   ⟨.extu16, fun a _ => BitVec.ofNat 64 (a.toNat % 2 ^ 16)⟩,
   ⟨.extu32, fun a _ => BitVec.ofNat 64 (a.toNat % 2 ^ 32)⟩,
   ⟨.popc, fun a _ => BitVec.ofNat 64 (onesBelow a 64)⟩]

/-- The FPU group (R130); `unary` rows have a reserved rs2 field. -/
structure FpuRow where
  row : TillId → RegNo → RegNo → RegNo → Instr
  unary : Bool
  result : Word → Word → Word

/-- The FPU group with the exact operation of each row and its one rounding (R130, R131). -/
def fpuRows : List FpuRow :=
  [⟨.dadd, false, fadd⟩, ⟨.dsub, false, fsub⟩, ⟨.dmul, false, fmul⟩, ⟨.ddiv, false, fdivide⟩,
   ⟨.dsqrt, true, fun a _ => fsqrt a⟩, ⟨.dmin, false, fmin⟩, ⟨.dmax, false, fmax⟩,
   ⟨.dceq, false, fun a b => oneIf (feq a b)⟩, ⟨.dclt, false, fun a b => oneIf (flt a b)⟩,
   ⟨.dcle, false, fun a b => oneIf (fle a b)⟩, ⟨.itod, true, fun a _ => itod a⟩,
   ⟨.dtoi, true, fun a _ => dtoiWith false a⟩, ⟨.dtoiz, true, fun a _ => dtoiWith true a⟩,
   ⟨.dtos, true, fun a _ => dtos a⟩, ⟨.stod, true, fun a _ => stod a⟩]

/-- A result of a register and a constant (R128). -/
structure ConstRow where
  row : TillId → RegNo → RegNo → BitVec 12 → Instr
  result : Word → Word → Word

/-- The ALUI group but for SHK; the second argument is sext(imm12) (R128). -/
def constRows : List ConstRow :=
  [⟨.addk, fun a b => BitVec.ofNat 64 (a.toNat + b.toNat)⟩, ⟨.cltsk, fun a b => oneIf (sless a b)⟩,
   ⟨.cltuk, fun a b => oneIf (uless a b)⟩, ⟨.andk, fun a b => a &&& b⟩, ⟨.ork, fun a b => a ||| b⟩,
   ⟨.xork, fun a b => a ^^^ b⟩, ⟨.ceqk, fun a b => oneIf (decide (a = b))⟩]

/-- A result of a register and an amount (R128, SHK). -/
structure ShiftRow where
  row : TillId → RegNo → RegNo → BitVec 6 → Instr
  result : Word → Nat → Word

/-- The sub-functions of SHK (R128). -/
def shiftRows : List ShiftRow :=
  [⟨.shlk, fun a n => BitVec.ofNat 64 (a.toNat * 2 ^ n)⟩, ⟨.shruk, fun a n => BitVec.ofNat 64 (a.toNat / 2 ^ n)⟩,
   ⟨.shrsk, fun a n => BitVec.ofInt 64 (a.toInt / 2 ^ n)⟩, ⟨.rotrk, fun a n => (a >>> n) ||| (a <<< (64 - n))⟩,
   ⟨.bitgetk, fun a n => oneIf (a.getLsbD n)⟩, ⟨.bitsetk, fun a n => a ||| BitVec.ofNat 64 (2 ^ n)⟩,
   ⟨.bitclrk, fun a n => a &&& ~~~BitVec.ofNat 64 (2 ^ n)⟩, ⟨.bitflpk, fun a n => a ^^^ BitVec.ofNat 64 (2 ^ n)⟩]

/-- A load: its row, width in bytes, and whether it extends the sign (R138). -/
structure LoadRow where
  row : TillId → RegNo → RegNo → BitVec 12 → Instr
  width : Nat
  signed : Bool

/-- The LOAD group (R138). -/
def loadRows : List LoadRow :=
  [⟨.ldD, 8, false⟩, ⟨.ldW, 4, true⟩, ⟨.ldH, 2, true⟩, ⟨.ldB, 1, true⟩, ⟨.ldWu, 4, false⟩, ⟨.ldHu, 2, false⟩,
   ⟨.ldBu, 1, false⟩]

/-- A store: its row and width in bytes (R138). -/
structure StoreRow where
  row : TillId → RegNo → RegNo → BitVec 12 → Instr
  width : Nat

/-- The STORE group (R138). -/
def storeRows : List StoreRow := [⟨.stD, 8⟩, ⟨.stW, 4⟩, ⟨.stH, 2⟩, ⟨.stB, 1⟩]

/-- The word that a load of a byte string makes: little-endian, extended with sign or zero (R3, R138). -/
def loaded (signed : Bool) (l : List Byte) : Word :=
  if signed then signedLow (8 * l.length) (BitVec.ofNat 64 (natOfBytes l)) else BitVec.ofNat 64 (natOfBytes l)

/-- The effective address of a load or store (R138). -/
def effAddr (s : State) (t : TillId) (rs1 : RegNo) (imm : BitVec 12) : Word := reg s t rs1 + imm.signExtend 64

/-- An address of an `n`-byte access, aligned and wholly inside `[lo, hi)` (R136). -/
def accessIn (a : Word) (n lo hi : Nat) : Prop := a.toNat % n = 0 ∧ lo ≤ a.toNat ∧ a.toNat + n ≤ hi

/-- No word of a memory range holds an uncorrectable error (R24). -/
def undamaged (s : State) (a n : Nat) : Prop := ueIn s a n = none

/-- A Lane row and its operation on rd, the image word and the mask (R142). -/
structure LaneRow where
  row : TillId → RegNo → RegNo → RegNo → BitVec 6 → Instr
  result : Word → Word → Word → Word

/-- The Lane reads: what rd becomes (R142). -/
def laneReads : List LaneRow :=
  [⟨.lget, fun r i m => (i &&& m) ||| (r &&& ~~~m)⟩, ⟨.land, fun r i m => (r &&& i &&& m) ||| (r &&& ~~~m)⟩,
   ⟨.lor, fun r i m => r ||| (i &&& m)⟩, ⟨.lxor, fun r i m => r ^^^ (i &&& m)⟩,
   ⟨.landn, fun r i m => r &&& ~~~(i &&& m)⟩, ⟨.lcnt, fun _ i m => BitVec.ofNat 64 (onesBelow (i &&& m) 64)⟩]

/-- The Lane writes: what the image word becomes (R142). -/
def laneWrites : List LaneRow :=
  [⟨.lput, fun r i m => (r &&& m) ||| (i &&& ~~~m)⟩, ⟨.lsetb, fun r i m => i ||| (r &&& m)⟩,
   ⟨.lclrb, fun r i m => i &&& ~~~(r &&& m)⟩, ⟨.linv, fun r i m => i ^^^ (r &&& m)⟩]

/-- The mask of a Lane operation: register rm, or all ones for w0 (R142). -/
def maskOf (s : State) (t : TillId) (rm : RegNo) : Word := if rm = 0 then ~~~(0 : Word) else reg s t rm

/-- The address of a Lane operation: rs1 + off6 x 8 (R142). -/
def laneAt (s : State) (t : TillId) (rs1 : RegNo) (off : BitVec 6) : Word := reg s t rs1 + BitVec.ofNat 64 (8 * off.toNat)

/-- The output word of the bank that a Till of Market m sees for an offset in its output half (R53). -/
def bankOut (s : State) (t : TillId) (off : Nat) : Word := readWord s (outBase (marketOf t.stall).val + off)

/-- The comparison that cond names (R132). -/
def condition (cond : BitVec 3) (a b : Word) : Bool :=
  if cond = 0 then decide (a = b) else if cond = 1 then decide (a ≠ b)
  else if cond = 2 then sless a b else if cond = 3 then decide (b.toInt ≤ a.toInt)
  else if cond = 4 then uless a b else if cond = 5 then decide (b.toNat ≤ a.toNat)
  else if cond = 6 then sless b a else decide (a.toInt ≤ b.toInt)

/-- imm5 of BCI as cond extends it (R132). -/
def immFive (cond : BitVec 3) (imm : BitVec 5) : Word :=
  if cond = 4 ∨ cond = 5 then BitVec.ofNat 64 imm.toNat else BitVec.ofInt 64 imm.toInt

/-- PC as a word (R120). -/
def pcOf (s : State) (t : TillId) : Word := BitVec.ofNat 64 (tillAt s t).pc.toNat

/-- Where a compare-and-branch goes: PC + sext(disp12) x 4 when taken, else PC + 4 (R133, R141). -/
def branchTo (s : State) (t : TillId) (taken : Bool) (disp : BitVec 12) : Word :=
  if taken then pcOf s t + BitVec.ofInt 64 (4 * disp.toInt) else pcOf s t + 4

/-- A Till runs a non-speculative release that is not replayed (R84, R107). -/
def plain (s : State) (t : TillId) : Prop := isSpec s t = false ∧ replayOf s t = none

/-- A Till runs a speculative release that is not replayed (R84). -/
def speculating (s : State) (t : TillId) : Prop := isSpec s t = true ∧ replayOf s t = none

/-- A Till whose release faults under FAULTREACT HOLD: dispatched, with that reaction in its task's entry (R48, R71). -/
def holdsOnFault (s : State) (t : TillId) : Prop := isLive (tillAt s t) = true ∧ (tillEntry s t).faultReact = 3

/-- The speculative part of a trap: the release waits with stall cause 9 and keeps what the trap reports (R95, R167). -/
def deferred (t : TillId) (cause : Nat) (word : BitVec 32) (addr : Word) (s : State) : State :=
  modTill t (fun k => { k with stallCause := 9, trap := some { cause := cause, pc := k.pc, word := word, addr := addr } }) s

/-- A speculative release stops before an instruction with a stall cause, and its running time is counted (R89). -/
def stalled (t : TillId) (cause : Nat) (s : State) : State :=
  modTill t (fun k => { k with stallCause := cause, spent := k.spent + (s.mono - k.runSince), runSince := s.mono }) s

/-- The register-only rows with three register fields, and whether the rs2 field is reserved (R126, R130). -/
def registerRows : List ((TillId → RegNo → RegNo → RegNo → Instr) × Bool) :=
  aluRows.map (fun r => (r.row, false)) ++ unaryRows.map (fun r => (r.row, true)) ++ [(.lzc, true), (.tzc, true)] ++
    fpuRows.map (fun r => (r.row, r.unary))

/-! ### Ring commands and registers -/

/-- A ring has begun a command of an opcode and knows it as its own (R347). -/
def atRing (s : State) (ring : Fin 16) (op : Nat) (c : Cmd) : Prop := begun s ring.val op = some c ∧ c.ring = ring.val

/-- The command has finished with a status and results: its completion waits to be handed over, and the ring no longer works on it (R348). -/
def answered (s q : State) (c : Cmd) (status : Nat) (r0 r1 : Word) : Prop :=
  q.host.finished = s.host.finished ++ [{ cmd := c, status := status, result0 := r0, result1 := r1 }] ∧
    (cmdRing q c.ring).cur = none

/-- A descriptor without a non-zero reserved operand bit (R349). -/
def clean (c : Cmd) (masks : List Word) : Prop := reservedZero c masks = true

/-- A DMA channel serves a command's transfer: the engine is on, the channel is neither halted nor taken by earlier commands, and requests may be issued (R337, R365, R370, R371). -/
def transfers (s : State) (n : Nat) : Prop := s.dma.en = true ∧ chanTaken s n = false ∧ canReq s = true

/-- The unit is in no pair (R381). -/
def alone (s : State) : Prop := s.red.role = .solo ∧ s.red.pstate = .none ∧ s.red.adjudication = none

/-- A ring command waits for its effect instant: its ring is busy with it, and the action joins the waiting ones (R64). -/
def waitsFor (s q : State) (c : Cmd) (a : ModeAction) : Prop :=
  (cmdRing q c.ring).busy = some c ∧ (cmdRing q c.ring).cur = none ∧
    q.ctl.waits = s.ctl.waits ++ [{ ring := c.ring, action := a, wakes := [], ready := some (localT s + 2000) }] ∧
    q.ctl.mode = s.ctl.mode ∧ q.ctl.armed = s.ctl.armed

/-- The device has entered a reset with a cause: held, without tasks, its SRAM zero (R532, R535). -/
def inResetAs (q : State) (c : ResetCause) : Prop :=
  (∃ n, q.power.inReset = some { cause := c, entered := n }) ∧ q.power.cause = c ∧ q.power.ready = false ∧
    q.ctl.mode = .held ∧ q.ctl.armed = false ∧ q.tasks = [] ∧ ∀ a, a < flashBase → readByte q a = 0

/-- No other cause overrides the one that enters a reset (R529, R530). -/
def plainReset (s : State) : Prop := s.power.aonLost = false ∧ s.power.loss = none ∧ s.errs.fatalAt = none

/-! ### Time, network, motion and field -/

/-- Boundary n releases a cyclic task or is one of an entry's: n - PHASE is a multiple of PERIOD (R44, R287). -/
def fallsAt (periodM1 phase n : Nat) : Bool := decide (((n : Int) - phase) % (periodM1 + 1) = 0)

/-- The number of the boundary that fires next: the first one after the setting of the clock, else TICKNUM + 1 (R274, R276). -/
def boundaryNext (s : State) : Nat := s.clock.firstBoundary.getD (s.clock.ticknum + 1)

/-- TIME - T of comparator n for a target (R278). -/
def ahead (s : State) (time : Word) : Int := (time - localT s).toInt

/-- The input data of a received frame that go to one Market: addresses in SRAM and bytes (R292). -/
def framePart (blocks : List (Nat × Nat × List Byte)) (m : MarketId) : List (Nat × List Byte) :=
  (blocks.filter (fun b => b.1 == m.val)).map (fun b => (imageBase m.val + b.2.1, b.2.2))

/-! ### Flash and the parameter store -/

/-- No flash operation waits or runs. -/
def flashIdle (s : State) : Prop := s.nvs.job = none ∧ s.nvs.queue = []

/-- The first operation of an idle flash die is taken up and asks the Purse for its tokens (R427, R471). -/
def asksFor (s q : State) (j : FlashJob) : Prop :=
  q.nvs.job = some j ∧ q.purse.waiting = s.purse.waiting ++
    [{ src := flashSrc j.op, tokens := flashTokens j.op, who := 0, made := q.mono }]

/-- A record of a key and a SEQ has been accepted for an issuer (R485). -/
def accepted (s q : State) (who : NvsWaiter) (rtype rid : Nat) : Prop :=
  q.nvs.nextSeq = s.nvs.nextSeq + 1 ∧ ∃ a ∈ q.nvs.append.toList ++ q.nvs.waiting,
    a.who = who ∧ a.record.rtype = rtype ∧ a.record.rid = rid ∧ a.record.seq = s.nvs.nextSeq

/-- Every sample of the open segment of a trend lies within TOL of the line from its anchor to its last sample (R464). -/
def lineFits (t : Trend) : Prop :=
  match t.anchor, t.seg.getLast? with
  | some (na, xa), some (nb, x) => ∀ p ∈ t.seg,
      (xa + (x - xa) * ((p.1 : Int) - na) / ((nb : Int) - na) - p.2).natAbs ≤ t.tol
  | _, _ => True

/-- The sample numbers of a trend's open segment lie between its anchor and its next sample (R464). -/
def segmentOrdered (t : Trend) : Prop :=
  (∀ a, t.anchor = some a → a.1 < t.next ∧ ∀ p ∈ t.seg, a.1 < p.1) ∧ ∀ p ∈ t.seg, p.1 < t.next

/-! ### Project, change and firmware -/

/-- No Till runs ahead (R84). -/
def noSpeculation (s : State) : Prop := ∀ t, (tillAt s t).area ≠ .speculative

/-- The completion of a command with a status and RESULT0 waits to be handed over (R348). -/
def finishedWith (q : State) (c : Cmd) (status : Nat) (r0 : Word) : Prop :=
  ∃ r1, ({ cmd := c, status := status, result0 := r0, result1 := r1 } : Done) ∈ q.host.finished

/-! ### The pair -/

/-- The first copy of a message arrives on a powered lane while the link is not lost (R376, R377). -/
def firstCopy (s : State) (lane : Fin 2) (mseq : BitVec 32) : Prop :=
  (Sys2Proof.Machine.laneAt s lane.val).granted = true ∧ s.red.linkLost = false ∧ mseq ∉ s.red.seenSeq

/-- Only what concerns the pair has changed: memory, Stalls, Markets, tasks, field and host interface are as before. -/
def pairOnly (s q : State) : Prop :=
  q.mem = s.mem ∧ q.stalls = s.stalls ∧ q.markets = s.markets ∧ q.tasks = s.tasks ∧ q.field = s.field ∧ q.host = s.host ∧
    q.clock = s.clock ∧ q.mono = s.mono

/-- The pair has gone to DETACHED with a reason (R381, R405). -/
def detachedWith (q : State) (reason : Nat) : Prop := q.red.pstate = .detached ∧ q.red.reason = reason

/-- The pair works: COPYING, CONFIRMING or SYNCED (R381). -/
def paired (s : State) : Prop := s.red.pstate = .copying ∨ s.red.pstate = .confirming ∨ s.red.pstate = .synced

/-- The unit has no mandate and follows nobody (R381, R405). -/
def isCandidate (q : State) : Prop := q.red.role = .candidate ∧ q.red.pstate = .none ∧ q.red.mandate = false

end Sys2Proof.Safety
end

