-- ==== Sys2Proof/WellFormed.lean ====
section
/-!
DEFINITION. When the operands of a command are such as the manual lets arrive: field ranges that the operand types do not already bound, lengths of data, and reserved fields. The meanings are total all the same and judge an ill-formed operand as their rules say.
-/
namespace Sys2Proof

/-- The operands of a command lie in the ranges that the manual gives them (R122, R126, R130, R148, R247, R287, R291, R343, R346, R377, R395, R476, R485, R499 to R501, R514, R515, R542). -/
def Instr.wellFormed (i : Instr) : Bool :=
  match i with
  | .add _ _ _ _ => true
  | .sub _ _ _ _ => true
  | .and _ _ _ _ => true
  | .or _ _ _ _ => true
  | .xor _ _ _ _ => true
  | .andc _ _ _ _ => true
  | .orc _ _ _ _ => true
  | .shl _ _ _ _ => true
  | .shru _ _ _ _ => true
  | .shrs _ _ _ _ => true
  | .rotr _ _ _ _ => true
  | .clts _ _ _ _ => true
  | .cltu _ _ _ _ => true
  | .ceq _ _ _ _ => true
  | .mins _ _ _ _ => true
  | .maxs _ _ _ _ => true
  | .minu _ _ _ _ => true
  | .maxu _ _ _ _ => true
  | .mul _ _ _ _ => true
  | .mulhs _ _ _ _ => true
  | .mulhu _ _ _ _ => true
  | .divs _ _ _ _ => true
  | .divu _ _ _ _ => true
  | .mods _ _ _ _ => true
  | .modu _ _ _ _ => true
  | .exts8 _ _ _ rs2 => rs2 == 0
  | .exts16 _ _ _ rs2 => rs2 == 0
  | .exts32 _ _ _ rs2 => rs2 == 0
  | .extu8 _ _ _ rs2 => rs2 == 0
  | .extu16 _ _ _ rs2 => rs2 == 0
  | .extu32 _ _ _ rs2 => rs2 == 0
  | .lzc _ _ _ rs2 => rs2 == 0
  | .tzc _ _ _ rs2 => rs2 == 0
  | .popc _ _ _ rs2 => rs2 == 0
  | .bitget _ _ _ _ => true
  | .bitset _ _ _ _ => true
  | .bitclr _ _ _ _ => true
  | .bitflp _ _ _ _ => true
  | .addk _ _ _ _ => true
  | .cltsk _ _ _ _ => true
  | .cltuk _ _ _ _ => true
  | .andk _ _ _ _ => true
  | .ork _ _ _ _ => true
  | .xork _ _ _ _ => true
  | .shlk _ _ _ _ => true
  | .shruk _ _ _ _ => true
  | .shrsk _ _ _ _ => true
  | .rotrk _ _ _ _ => true
  | .bitgetk _ _ _ _ => true
  | .bitsetk _ _ _ _ => true
  | .bitclrk _ _ _ _ => true
  | .bitflpk _ _ _ _ => true
  | .ceqk _ _ _ _ => true
  | .lup _ _ _ => true
  | .dadd _ _ _ _ => true
  | .dsub _ _ _ _ => true
  | .dmul _ _ _ _ => true
  | .ddiv _ _ _ _ => true
  | .dsqrt _ _ _ rs2 => rs2 == 0
  | .dmin _ _ _ _ => true
  | .dmax _ _ _ _ => true
  | .dceq _ _ _ _ => true
  | .dclt _ _ _ _ => true
  | .dcle _ _ _ _ => true
  | .itod _ _ _ rs2 => rs2 == 0
  | .dtoi _ _ _ rs2 => rs2 == 0
  | .dtoiz _ _ _ rs2 => rs2 == 0
  | .dtos _ _ _ rs2 => rs2 == 0
  | .stod _ _ _ rs2 => rs2 == 0
  | .ldD _ _ _ _ => true
  | .ldW _ _ _ _ => true
  | .ldH _ _ _ _ => true
  | .ldB _ _ _ _ => true
  | .ldWu _ _ _ _ => true
  | .ldHu _ _ _ _ => true
  | .ldBu _ _ _ _ => true
  | .stD _ _ _ _ => true
  | .stW _ _ _ _ => true
  | .stH _ _ _ _ => true
  | .stB _ _ _ _ => true
  | .lget _ _ _ _ _ => true
  | .land _ _ _ _ _ => true
  | .lor _ _ _ _ _ => true
  | .lxor _ _ _ _ _ => true
  | .landn _ _ _ _ _ => true
  | .lcnt _ _ _ _ _ => true
  | .lput _ _ _ _ _ => true
  | .lsetb _ _ _ _ _ => true
  | .lclrb _ _ _ _ _ => true
  | .linv _ _ _ _ _ => true
  | .bcr _ _ _ _ _ => true
  | .bci _ _ _ _ _ => true
  | .bbs _ _ _ _ => true
  | .bbc _ _ _ _ => true
  | .edgeR _ _ _ _ => true
  | .edgeF _ _ _ _ => true
  | .edgeB _ _ _ _ => true
  | .lrD _ _ _ rs2 => rs2 == 0
  | .scD _ _ _ _ => true
  | .tas _ _ _ rs2 => rs2 == 0
  | .sysCall _ _ _ _ => true
  | .fence _ _ _ _ => true
  | .fenceComplete _ => true
  | .tmrq _ _ _ _ => true
  | .nop _ _ _ _ => true
  | .jmp _ _ _ => true
  | .call _ _ _ => true
  | .callr _ _ _ _ => true
  | .jr _ _ _ _ => true
  | .ret _ _ _ _ => true
  | .breakpointReached _ => true
  | .reservationTimeout _ => true
  | .transientFault _ _ _ => true
  | .releaseSignalArrival _ => true
  | .dispatch _ => true
  | .speculationStart _ => true
  | .comparisonComplete _ => true
  | .verificationReplayDone _ => true
  | .eventTriggerArrival _ => true
  | .directOutputWord => true
  | .bankTransactionStart _ => true
  | .bankAgeing _ => true
  | .bankTransactionEnd _ => true
  | .imageRoute _ => true
  | .scrub _ => true
  | .nopCommand _ => true
  | .fenceDescriptor _ => true
  | .dmaCopy _ => true
  | .dmaWrite _ => true
  | .arm _ => true
  | .disarm _ => true
  | .runCommand _ => true
  | .stopCommand _ => true
  | .continueTask _ => true
  | .stepTask _ => true
  | .breakSet _ => true
  | .breakClear _ => true
  | .taskStatus _ => true
  | .taskClear _ => true
  | .dbgState _ => true
  | .projectLoad _ data => decide (data.length < 2 ^ 32)
  | .changeLoad _ data => decide (data.length < 2 ^ 32)
  | .changeApply _ => true
  | .changeAbort _ => true
  | .xwrite _ data => decide (data.length < 2 ^ 18)
  | .forceSet _ => true
  | .forceClear _ => true
  | .forceList _ => true
  | .camLoad _ data => decide (data.length < 2 ^ 32)
  | .timeConfig _ => true
  | .timeStatus _ => true
  | .blockArm _ => true
  | .blockCancel _ => true
  | .rtcGet _ => true
  | .rtcSetsec _ => true
  | .rtcSetdate _ => true
  | .rtcShift _ => true
  | .rtcCal _ => true
  | .calToDate _ => true
  | .dateToCal _ => true
  | .recRead _ => true
  | .recFlush _ => true
  | .trendConfig _ => true
  | .trendRead _ => true
  | .nvsPut _ data => decide (data.length ≤ 8192)
  | .nvsGet _ => true
  | .nvsCompact _ => true
  | .fwLoad _ data => decide (data.length < 2 ^ 32)
  | .fwActivate _ => true
  | .fwAccept _ => true
  | .projectStore _ data => decide (data.length < 2 ^ 32)
  | .attest _ data => data.length == 32
  | .secProvision _ data => data.length == 128
  | .secKeyload _ data => data.length == 132
  | .idRead _ => true
  | .wdgCheckin _ => true
  | .pairForm _ _ => true
  | .pairSwitch _ => true
  | .pairLeave _ => true
  | .pairStatus _ => true
  | .sendBlock _ => true
  | .logEvent _ => true
  | .wdgCheckinService _ => true
  | .nvsPutService _ => true
  | .nvsGetService _ => true
  | .calConvert _ => true
  | .commandCompletion _ _ => true
  | .doorbellPoll => true
  | .pollDataArrival ok data => !ok || data.length == 512
  | .descriptorArrival _ _ data => data.length % 64 == 0
  | .ownTimeout _ => true
  | .hostLost => true
  | .eventBacklogWrite => true
  | .interruptModeration _ => true
  | .dmaBurst _ => true
  | .dmaRequestFailure _ cause _ => cause != 0
  | .hostReset => true
  | .busMasterDisable _ => true
  | .bar0InvalidAccess _ _ => true
  | .registerWrite off _ _ => off.toNat % 8 == 0
  | .rngNudge _ => true
  | .ringConfigWrite off _ => off.toNat % 8 == 0
  | .dmaCtlEnWrite _ => true
  | .dmaBurstRequest _ => true
  | .dmaResume _ _ => true
  | .dmaFlush _ _ => true
  | .tsySnap _ => true
  | .tsyAdj _ _ => true
  | .tsyRateWrite _ => true
  | .tsySlewmaxWrite _ => true
  | .tsyKey _ => true
  | .servoenClear _ => true
  | .tcmpTimeWrite _ _ => true
  | .tcmpCtlWrite _ _ => true
  | .netCfgWrite _ _ => true
  | .netCntclr _ => true
  | .fioCntLoad _ _ => true
  | .fioCsnap _ => true
  | .fioArm _ _ => true
  | .groupFaultClear _ _ => true
  | .anaMmclr _ _ => true
  | .fioCntclr _ => true
  | .latchIgnClear _ _ => true
  | .motCntclr _ => true
  | .motEcfgWrite _ _ => true
  | .mktClkWrite _ _ => true
  | .spctlWrite _ => true
  | .stlCntclr _ => true
  | .wdgSvc _ _ => true
  | .wdgKey _ => true
  | .prsBudgetWrite _ => true
  | .prsCntclr _ => true
  | .sysEcntclr _ => true
  | .sysRstctl _ => true
  | .rtcSetsecWrite _ => true
  | .rtcShiftWrite _ => true
  | .rtcCalWrite _ => true
  | .rtcWriteApply => true
  | .nvsLockKey _ => true
  | .nvsCntclr _ => true
  | .redCntclr _ => true
  | .modeEffect => true
  | .stallAwake _ => true
  | .purseGrant => true
  | .purseTimeout => true
  | .windowOpen _ => true
  | .windowClose _ => true
  | .windowTimeout _ => true
  | .tickBoundary => true
  | .timeComparatorFire _ => true
  | .slewEnd => true
  | .forcedStepTimeout => true
  | .setwaitExpiry => true
  | .ptpMessageReceive _ _ => true
  | .syncReceiptTimeout => true
  | .gclChange _ => true
  | .portLinkChange _ _ _ _ => true
  | .cycleFrameReceive _ _ frame => decide (46 ≤ frame.length) && decide (frame.length ≤ 1996)
  | .unsupportedFrame _ _ => true
  | .receiveWindowClose entry => decide (entry < 65536)
  | .transmitGather entry => decide (entry < 65536)
  | .frameTransmit entry => decide (entry < 65536)
  | .motionCycle _ => true
  | .motionHandoff _ => true
  | .motionDeadline _ unfinished => unfinished.all (fun x => decide (x < 128))
  | .fieldInputEdge _ _ => true
  | .debounceExpiry _ => true
  | .reflexPulseEnd _ => true
  | .fieldInputTime => true
  | .fieldGatherStart => true
  | .fieldOutputTime => true
  | .generatorEdge _ => true
  | .staggeredSwitch => true
  | .outputTrip _ _ => true
  | .outputRetry _ => true
  | .lplusUvChange _ _ => true
  | .fieldSag _ => true
  | .fieldCutoff _ => true
  | .analogSample _ => true
  | .analogConversionDone _ _ => true
  | .watchdogExpire => true
  | .hardTimerEnd => true
  | .eraseSuspensionLimit => true
  | .fatalError _ => true
  | .fatalResetTimer => true
  | .powerLoss _ => true
  | .saveCommitDeadline => true
  | .retentiveSave => true
  | .powerLossReset => true
  | .railBelowReset _ => true
  | .resetPin _ => true
  | .backupSwitchover _ => true
  | .backupPowerUp => true
  | .resetRelease _ _ _ => true
  | .pllRetry => true
  | .ready _ => true
  | .flashProgramDone _ => true
  | .flashEraseDone => true
  | .recorderFlush => true
  | .trendSample _ => true
  | .retentionCheck => true
  | .marginScan sectors => sectors.all (fun x => decide (x < 2048))
  | .opsecCopy => true
  | .rtcSyncCheck => true
  | .engineSwap _ => true
  | .mailboxWrite _ len data => decide (len.toNat ≤ 61440) && data.length == len.toNat
  | .mailboxVerify => true
  | .mailboxBoot => true
  | .mailboxAbort => true
  | .recoveryWrite _ _ _ data => decide (data.length ≤ 1024)
  | .recoveryVerify _ _ => true
  | .recoveryBoot _ _ => true
  | .recoveryHello _ _ => true
  | .heartbeatInterval => true
  | .heartbeat _ _ _ hb _ => hb.toNat / 2 ^ 22 == 0
  | .inputPiece _ _ _ _ _ _ data => decide (data.length ≤ 4072)
  | .eventPiece _ _ _ _ evt => evt.length == 8
  | .journal _ _ _ _ entries => entries.length % 2 == 0 && decide (entries.length ≤ 510)
  | .motionPiece _ _ _ _ data => data.length % 8 == 0 && decide (data.length ≤ 4096)
  | .hashMessage _ _ _ _ _ => true
  | .verdict _ _ _ _ _ => true
  | .control _ _ _ data => data.length % 8 == 0 && decide (data.length ≤ 4096)
  | .stateCopy _ _ _ data => data.length % 8 == 0 && decide (data.length ≤ 4088)
  | .epochcopy _ _ _ _ data => data.length % 8 == 0 && decide (data.length ≤ 4096)
  | .abdicate _ _ _ cause => decide (2 ≤ cause.toNat) && decide (cause.toNat ≤ 5)
  | .leave _ _ => true
  | .linkMessageDiscard _ => true
  | .laneDown _ => true
  | .peerWatchWindow _ => true
  | .takeover => true
  | .settleTimeout _ => true
  | .mirroredEpoch => true
  | .autorsTimer _ => true
  | .confirmExpiry => true
  | .pairFormTimeout => true
  | .undefinedInstruction _ _ => true
  | .busMasterEnable _ => true
  | .ptpMessageTransmit _ _ _ => true
  | .crystalEdge => true
  | .wdgWindowOpen => true
  | .cbRecoveryResetTimeout entry => decide (entry < 65536)
  | .preemptionVerification _ _ => true
  | .resetSaveDeadline => true

end Sys2Proof
end

