-- ==== Sys2Proof/Certificates/Slice0/Obligations.lean ====
section
/-!
DEFINITION. The statements for the provers, each formalising rules of the manual as its docstring says.
-/
namespace Sys2Proof

open Sys2Proof.Machine Sys2Proof.Safety

/-! ### The block -/

/-- A step with command c at the front of the queue is exec of c on the state with the rest of the queue. -/
def Claims.StepRunsTheFrontCommand : Prop :=
  ∀ (c : Instr) (rest : List Instr) (s : State), s.pending = c :: rest → step s = exec c { s with pending := rest }

/-- On an empty queue 1 ns passes: the always-on time base and, outside a reset, F advance by one (log 1, the model's choice). -/
def Claims.EmptyQueueIdles : Prop :=
  ∀ s : State, s.pending = [] → ∃ q, step s = next q ∧ q.mono = s.mono + 1 ∧
    (s.power.inReset = none → q.clock.f = s.clock.f + 1) ∧ (s.power.inReset ≠ none → q.clock.f = s.clock.f) ∧
    q = { s with mono := q.mono, clock := { s.clock with f := q.clock.f } }

/-! ### Tally: ALU and FPU (R126 to R131) -/

/-- Every two-operand row of the ALU group writes its result into rd and PC advances by 4; nothing else changes (R126). -/
def Claims.AluResults : Prop :=
  ∀ r ∈ aluRows, ∀ (t : TillId) (rd rs1 rs2 : RegNo) (s : State), issues s t → fallsOk s t →
    exec (r.row t rd rs1 rs2) s = next (wrote t rd (r.result (reg s t rs1) (reg s t rs2)) s)

/-- DIVS, DIVU, MODS and MODU give the quotient or remainder for a divisor other than 0, also for the most negative dividend; a zero divisor raises DIVZERO with rd unwritten, which a speculative release defers (R126, R127, R164, R167). -/
def Claims.DivisionResults : Prop :=
  (∀ r ∈ divRows, ∀ (t : TillId) (rd rs1 rs2 : RegNo) (s : State), issues s t → fallsOk s t → reg s t rs2 ≠ 0 →
    exec (r.row t rd rs1 rs2) s = next (wrote t rd (r.result (reg s t rs1) (reg s t rs2)) s)) ∧
  (∀ r ∈ divRows, ∀ (t : TillId) (rd rs1 rs2 : RegNo) (s : State), issues s t → fallsOk s t → reg s t rs2 = 0 →
    (isSpec s t = true → ∃ w, exec (r.row t rd rs1 rs2) s = next (deferred t 4 w 0 s)) ∧
    (holdsOnFault s t → ∃ q, exec (r.row t rd rs1 rs2) s = next q ∧
      (∀ x, reg q t x = reg s t x) ∧ (tillAt q t).pc = (tillAt s t).pc ∧
      (tillAt q t).frozen = some { cause := 4, fault := true, scopeAll := false })) ∧
  (∀ (t : TillId) (rd rs1 rs2 : RegNo) (s : State), issues s t → fallsOk s t →
    reg s t rs1 = 0x8000_0000_0000_0000 → reg s t rs2 = 0xFFFF_FFFF_FFFF_FFFF →
    exec (.divs t rd rs1 rs2) s = next (wrote t rd 0x8000_0000_0000_0000 s) ∧
    exec (.mods t rd rs1 rs2) s = next (wrote t rd 0 s))

/-- The unary rows of the ALU group; LZC and TZC count the zero bits above the highest and below the lowest 1 bit; a non-zero rs2 field raises ILLEGAL (R126, R162). -/
def Claims.UnaryResults : Prop :=
  (∀ r ∈ unaryRows, ∀ (t : TillId) (rd rs1 : RegNo) (s : State), issues s t → fallsOk s t →
    exec (r.row t rd rs1 0) s = next (wrote t rd (r.result (reg s t rs1) 0) s)) ∧
  (∀ (t : TillId) (rd rs1 : RegNo) (s : State), issues s t → fallsOk s t →
    ∃ n ≤ 64, exec (.lzc t rd rs1 0) s = next (wrote t rd (BitVec.ofNat 64 n) s) ∧
      (∀ i < n, (reg s t rs1).getLsbD (63 - i) = false) ∧ (n < 64 → (reg s t rs1).getLsbD (63 - n) = true)) ∧
  (∀ (t : TillId) (rd rs1 : RegNo) (s : State), issues s t → fallsOk s t →
    ∃ n ≤ 64, exec (.tzc t rd rs1 0) s = next (wrote t rd (BitVec.ofNat 64 n) s) ∧
      (∀ i < n, (reg s t rs1).getLsbD i = false) ∧ (n < 64 → (reg s t rs1).getLsbD n = true)) ∧
  (∀ r ∈ unaryRows.map AluRow.row ++ [Instr.lzc, Instr.tzc] ++ (fpuRows.filter FpuRow.unary).map FpuRow.row,
    ∀ (t : TillId) (rd rs1 rs2 : RegNo) (s : State), issues s t → rs2 ≠ 0 → isSpec s t = true →
    ∃ w, exec (r t rd rs1 rs2) s = next (deferred t 1 w 0 s))

/-- The ALUI group computes rd from rs1 and the constant (R128). -/
def Claims.ConstantResults : Prop :=
  (∀ r ∈ constRows, ∀ (t : TillId) (rd rs1 : RegNo) (imm : BitVec 12) (s : State), issues s t → fallsOk s t →
    exec (r.row t rd rs1 imm) s = next (wrote t rd (r.result (reg s t rs1) (BitVec.ofInt 64 imm.toInt)) s)) ∧
  (∀ r ∈ shiftRows, ∀ (t : TillId) (rd rs1 : RegNo) (amt : BitVec 6) (s : State), issues s t → fallsOk s t →
    exec (r.row t rd rs1 amt) s = next (wrote t rd (r.result (reg s t rs1) amt.toNat) s))

/-- LUP writes sext(imm20) x 4,096 into rd (R129). -/
def Claims.LupResult : Prop :=
  ∀ (t : TillId) (rd : RegNo) (imm : BitVec 20) (s : State), issues s t → fallsOk s t →
    exec (.lup t rd imm) s = next (wrote t rd (BitVec.ofInt 64 (imm.toInt * 4096)) s)

/-- The FPU group writes its result into rd and never traps on its operands (R130). -/
def Claims.FpuResults : Prop :=
  ∀ r ∈ fpuRows, ∀ (t : TillId) (rd rs1 rs2 : RegNo) (s : State), issues s t → fallsOk s t → (r.unary = true → rs2 = 0) →
    exec (r.row t rd rs1 rs2) s = next (wrote t rd (r.result (reg s t rs1) (reg s t rs2)) s)

/-- The special results of the FPU group: the one NaN, division by zero, comparisons with a NaN, equal zeros, minimum and maximum with a NaN or with zeros of both signs, and the saturation of DTOI and DTOIZ (R131). -/
def Claims.FpuSpecialResults : Prop :=
  (∀ f ∈ [fadd, fsub, fmul, fdivide, fun x _ => fsqrt x, fun x _ => stod x], ∀ x y : Word,
    isNan (f x y) = true → f x y = 0x7FF8_0000_0000_0000) ∧
  (∀ x : Word, isNan x = true → dtos x = 0x7FC0_0000) ∧
  (∀ x : Word, isNan x = false → x &&& 0x7FFF_FFFF_FFFF_FFFF ≠ 0 →
    fdivide x 0 = (if x.getLsbD 63 then 0xFFF0_0000_0000_0000 else 0x7FF0_0000_0000_0000) ∧
    fdivide x 0x8000_0000_0000_0000 = (if x.getLsbD 63 then 0x7FF0_0000_0000_0000 else 0xFFF0_0000_0000_0000)) ∧
  (∀ x y : Word, x &&& 0x7FFF_FFFF_FFFF_FFFF = 0 → y &&& 0x7FFF_FFFF_FFFF_FFFF = 0 →
    fdivide x y = 0x7FF8_0000_0000_0000 ∧ feq x y = true) ∧
  (∀ x y : Word, isNan x = true ∨ isNan y = true → feq x y = false ∧ flt x y = false ∧ fle x y = false) ∧
  (∀ x y : Word, isNan x = true → isNan y = false → fmin x y = y ∧ fmax x y = y ∧ fmin y x = y ∧ fmax y x = y) ∧
  (∀ x y : Word, isNan x = true → isNan y = true → fmin x y = 0x7FF8_0000_0000_0000 ∧ fmax x y = 0x7FF8_0000_0000_0000) ∧
  (fmin 0x8000_0000_0000_0000 0 = 0x8000_0000_0000_0000 ∧ fmin 0 0x8000_0000_0000_0000 = 0x8000_0000_0000_0000 ∧
    fmax 0x8000_0000_0000_0000 0 = 0 ∧ fmax 0 0x8000_0000_0000_0000 = 0) ∧
  (∀ (x : Word) (z : Bool), isNan x = true → dtoiWith z x = 0) ∧
  (∀ (x : Word) (z : Bool), 0x43E0_0000_0000_0000 ≤ x.toNat → x.toNat ≤ 0x7FF0_0000_0000_0000 →
    dtoiWith z x = 0x7FFF_FFFF_FFFF_FFFF) ∧
  (∀ (x : Word) (z : Bool), 0xC3E0_0000_0000_0000 ≤ x.toNat → x.toNat ≤ 0xFFF0_0000_0000_0000 →
    dtoiWith z x = 0x8000_0000_0000_0000)

/-- w0 reads as 0, a write to w0 is discarded, and a write to another register is read back and leaves the rest alone (R119). -/
def Claims.WordRegisters : Prop :=
  ∀ (t : TillId) (r : RegNo) (v : Word) (s : State),
    reg s t 0 = 0 ∧ setReg t 0 v s = s ∧ (r ≠ 0 → reg (setReg t r v s) t r = v) ∧
    (∀ x, x ≠ r → reg (setReg t r v s) t x = reg s t x)

/-- The frame of the register-only instructions: registers other than rd, every other Till, every other part of the device and all of memory are unchanged (R126, R130). -/
def Claims.RegisterRowsFrame : Prop :=
  ∀ r ∈ registerRows, ∀ (t : TillId) (rd rs1 rs2 : RegNo) (s : State), issues s t → fallsOk s t → (r.2 = true → rs2 = 0) →
    ∃ q, exec (r.1 t rd rs1 rs2) s = next q ∧ (∀ x, x ≠ rd → reg q t x = reg s t x) ∧
      (∀ u, u ≠ t → tillAt q u = tillAt s u) ∧ (∀ a, readByte q a = readByte s a) ∧
      (tillAt q t = { tillAt s t with
        regs := (tillAt q t).regs, pc := (tillAt s t).pc + 4, passBreak := false, stepping := false }) ∧
      q = { s with stalls := q.stalls }

/-! ### Tally: memory (R29 to R30, R51 to R57, R138 to R145, R148) -/

/-- A load from local data or from the task's instance area writes the little-endian value, extended with sign or zero, and changes nothing else (R29, R138). -/
def Claims.LoadResults : Prop :=
  ∀ r ∈ loadRows, ∀ (t : TillId) (rd rs1 : RegNo) (imm : BitVec 12) (s : State), issues s t → fallsOk s t →
    replayOf s t = none →
    (accessIn (effAddr s t rs1 imm) r.width 0x10_0000 0x14_0000 →
      undamaged s (localBase t.stall.val + ((effAddr s t rs1 imm).toNat - 0x10_0000)) r.width →
      exec (r.row t rd rs1 imm) s = next (wrote t rd (loaded r.signed
        (readBytes s (localBase t.stall.val + ((effAddr s t rs1 imm).toNat - 0x10_0000)) r.width)) s)) ∧
    (accessIn (effAddr s t rs1 imm) r.width (0x100_0000 + (tillEntry s t).instOff)
        (0x100_0000 + (tillEntry s t).instOff + (tillEntry s t).instLen) →
      (effAddr s t rs1 imm).toNat + r.width ≤ 0x140_0000 → fenceHolds s t 1 = false →
      undamaged s (marketSys t (effAddr s t rs1 imm).toNat) r.width →
      exec (r.row t rd rs1 imm) s = next (wrote t rd (loaded r.signed
        (readBytes s (marketSys t (effAddr s t rs1 imm).toNat) r.width)) s))

/-- A load from the input section of a release that is not speculative reads the latched Daybook, and a load from the output section reads the bank where the release has written nothing (R52, R53). -/
def Claims.SectionLoads : Prop :=
  ∀ r ∈ loadRows, ∀ (t : TillId) (rd rs1 : RegNo) (imm : BitVec 12) (s : State), issues s t → fallsOk s t → plain s t →
    (tillEntry s t).event = false → fenceHolds s t 0 = false →
    (accessIn (effAddr s t rs1 imm) r.width (0x200_0000 + (tillEntry s t).inOff)
        (0x200_0000 + (tillEntry s t).inOff + (tillEntry s t).inLen) →
      (effAddr s t rs1 imm).toNat + r.width ≤ 0x204_0000 →
      undamaged s (dayBase t.stall.val + ((effAddr s t rs1 imm).toNat - 0x200_0000 - (tillEntry s t).inOff)) r.width →
      exec (r.row t rd rs1 imm) s = next (wrote t rd (loaded r.signed (readBytes s
        (dayBase t.stall.val + ((effAddr s t rs1 imm).toNat - 0x200_0000 - (tillEntry s t).inOff)) r.width)) s)) ∧
    (accessIn (effAddr s t rs1 imm) r.width (0x204_0000 + (tillEntry s t).outOff)
        (0x204_0000 + (tillEntry s t).outOff + (tillEntry s t).outLen) →
      (effAddr s t rs1 imm).toNat + r.width ≤ 0x208_0000 → (tillAt s t).held = [] →
      undamaged s (outBase (marketOf t.stall).val + ((effAddr s t rs1 imm).toNat - 0x204_0000)) r.width →
      exec (r.row t rd rs1 imm) s = next (wrote t rd (loaded r.signed (readBytes s
        (outBase (marketOf t.stall).val + ((effAddr s t rs1 imm).toNat - 0x204_0000)) r.width)) s))

/-- A store to local data puts the low bytes of rs2 at the address and leaves every other byte of memory and every register alone (R29, R138). -/
def Claims.LocalStores : Prop :=
  ∀ r ∈ storeRows, ∀ (t : TillId) (rs1 rs2 : RegNo) (imm : BitVec 12) (s : State), issues s t → fallsOk s t →
    replayOf s t = none → accessIn (effAddr s t rs1 imm) r.width 0x10_0000 0x14_0000 →
    undamaged s (localBase t.stall.val + ((effAddr s t rs1 imm).toNat - 0x10_0000)) r.width →
    ∃ q, exec (r.row t rs1 rs2 imm) s = next q ∧
      (∀ i, i < r.width →
        readByte q (localBase t.stall.val + ((effAddr s t rs1 imm).toNat - 0x10_0000) + i) =
          BitVec.ofNat 8 ((reg s t rs2).toNat / 256 ^ i)) ∧
      (∀ a, a < localBase t.stall.val + ((effAddr s t rs1 imm).toNat - 0x10_0000) ∨
          localBase t.stall.val + ((effAddr s t rs1 imm).toNat - 0x10_0000) + r.width ≤ a →
        readByte q a = readByte s a) ∧
      (∀ x, reg q t x = reg s t x) ∧ (tillAt q t).pc = (tillAt s t).pc + 4 ∧
      q = { s with mem := q.mem, ue := q.ue, stalls := q.stalls }

/-- A store to the output section is held in the Till: memory keeps every byte, and a whole word reads back from the Till (R53). -/
def Claims.OutputStoresAreHeld : Prop :=
  (∀ r ∈ storeRows, ∀ (t : TillId) (rs1 rs2 : RegNo) (imm : BitVec 12) (s : State), issues s t → fallsOk s t →
    accessIn (effAddr s t rs1 imm) r.width (0x204_0000 + (tillEntry s t).outOff)
      (0x204_0000 + (tillEntry s t).outOff + (tillEntry s t).outLen) →
    (effAddr s t rs1 imm).toNat + r.width ≤ 0x208_0000 → fenceHolds s t 0 = false →
    undamaged s (outBase (marketOf t.stall).val + 8 * (((effAddr s t rs1 imm).toNat - 0x204_0000) / 8)) 8 →
    ∃ q, exec (r.row t rs1 rs2 imm) s = next q ∧ (∀ a, readByte q a = readByte s a) ∧
      (∀ x, reg q t x = reg s t x) ∧ (tillAt q t).pc = (tillAt s t).pc + 4 ∧
      (∀ c ∈ (tillAt s t).held, c.1 < 8 * (((effAddr s t rs1 imm).toNat - 0x204_0000) / 8) ∨
          8 * (((effAddr s t rs1 imm).toNat - 0x204_0000) / 8) + 8 ≤ c.1 → c ∈ (tillAt q t).held) ∧
      q = { s with stalls := q.stalls }) ∧
  (∀ (t : TillId) (rs1 rs2 : RegNo) (imm : BitVec 12) (s : State), issues s t → fallsOk s t →
    accessIn (effAddr s t rs1 imm) 8 (0x204_0000 + (tillEntry s t).outOff)
      (0x204_0000 + (tillEntry s t).outOff + (tillEntry s t).outLen) →
    (effAddr s t rs1 imm).toNat + 8 ≤ 0x208_0000 → fenceHolds s t 0 = false →
    ∃ q, exec (.stD t rs1 rs2 imm) s = next q ∧
      ∀ i, i < 8 → ((effAddr s t rs1 imm).toNat - 0x204_0000 + i, BitVec.ofNat 8 ((reg s t rs2).toNat / 256 ^ i))
        ∈ (tillAt q t).held)

/-- A misaligned load or store raises ALIGN with the address, and an aligned one outside the Stall's permitted ranges raises ACCESS; a speculative release defers the trap, and nothing of memory changes (R136, R140, R163, R167). -/
def Claims.DataAddressTraps : Prop :=
  (∀ r ∈ loadRows, ∀ (t : TillId) (rd rs1 : RegNo) (imm : BitVec 12) (s : State), issues s t → isSpec s t = true →
    ((effAddr s t rs1 imm).toNat % r.width ≠ 0 →
      ∃ w, exec (r.row t rd rs1 imm) s = next (deferred t 3 w (effAddr s t rs1 imm) s)) ∧
    ((effAddr s t rs1 imm).toNat % r.width = 0 → (effAddr s t rs1 imm).toNat < 0x10_0000 →
      ∃ w, exec (r.row t rd rs1 imm) s = next (deferred t 2 w (effAddr s t rs1 imm) s))) ∧
  (∀ r ∈ storeRows, ∀ (t : TillId) (rs1 rs2 : RegNo) (imm : BitVec 12) (s : State), issues s t → isSpec s t = true →
    ((effAddr s t rs1 imm).toNat % r.width ≠ 0 →
      ∃ w, exec (r.row t rs1 rs2 imm) s = next (deferred t 3 w (effAddr s t rs1 imm) s)) ∧
    ((effAddr s t rs1 imm).toNat % r.width = 0 →
      ((effAddr s t rs1 imm).toNat < 0x10_0000 ∨
        0x200_0000 ≤ (effAddr s t rs1 imm).toNat ∧ (effAddr s t rs1 imm).toNat < 0x204_0000 ∨
        0x300_0000 ≤ (effAddr s t rs1 imm).toNat) →
      ∃ w, exec (r.row t rs1 rs2 imm) s = next (deferred t 2 w (effAddr s t rs1 imm) s)))

/-- A Lane read combines rd with the masked image word and writes rd; a Lane write puts the combined word among the held output words and writes no register (R142, R143). -/
def Claims.LaneResults : Prop :=
  (∀ r ∈ laneReads, ∀ (t : TillId) (rd rs1 rm : RegNo) (off : BitVec 6) (s : State), issues s t → fallsOk s t →
    accessIn (laneAt s t rs1 off) 8 (0x204_0000 + (tillEntry s t).outOff)
      (0x204_0000 + (tillEntry s t).outOff + (tillEntry s t).outLen) →
    (laneAt s t rs1 off).toNat + 8 ≤ 0x208_0000 → fenceHolds s t 0 = false → (tillAt s t).held = [] →
    undamaged s (outBase (marketOf t.stall).val + ((laneAt s t rs1 off).toNat - 0x204_0000)) 8 →
    exec (r.row t rd rs1 rm off) s = next (wrote t rd
      (r.result (reg s t rd) (bankOut s t ((laneAt s t rs1 off).toNat - 0x204_0000)) (maskOf s t rm)) s)) ∧
  (∀ r ∈ laneWrites, ∀ (t : TillId) (rd rs1 rm : RegNo) (off : BitVec 6) (s : State), issues s t → fallsOk s t →
    accessIn (laneAt s t rs1 off) 8 (0x204_0000 + (tillEntry s t).outOff)
      (0x204_0000 + (tillEntry s t).outOff + (tillEntry s t).outLen) →
    (laneAt s t rs1 off).toNat + 8 ≤ 0x208_0000 → fenceHolds s t 0 = false → (tillAt s t).held = [] →
    undamaged s (outBase (marketOf t.stall).val + ((laneAt s t rs1 off).toNat - 0x204_0000)) 8 →
    ∃ q, exec (r.row t rd rs1 rm off) s = next q ∧ (∀ x, reg q t x = reg s t x) ∧ (∀ a, readByte q a = readByte s a) ∧
      (tillAt q t).pc = (tillAt s t).pc + 4 ∧
      ∀ i, i < 8 → ((laneAt s t rs1 off).toNat - 0x204_0000 + i,
        BitVec.ofNat 8 ((r.result (reg s t rd) (bankOut s t ((laneAt s t rs1 off).toNat - 0x204_0000))
          (maskOf s t rm)).toNat / 256 ^ i)) ∈ (tillAt q t).held)

/-- EDGE.R, EDGE.F and EDGE.B write 1 into rd when bit 0 of rd rose, fell or changed against the bit of instance data that imm6 names, and store bit 0 of rd there, every other bit of the word kept (R144). -/
def Claims.EdgeResults : Prop :=
  ∀ (t : TillId) (rd rs1 : RegNo) (w b : BitVec 6) (s : State), issues s t → fallsOk s t → plain s t →
    undamaged s (marketSys t (laneAt s t rs1 w).toNat) 8 → fenceHolds s t 1 = false →
    (∀ u, (tillAt s u).area ≠ .speculative) →
    accessIn (laneAt s t rs1 w) 8 (0x100_0000 + (tillEntry s t).instOff)
      (0x100_0000 + (tillEntry s t).instOff + (tillEntry s t).instLen) →
    (laneAt s t rs1 w).toNat + 8 ≤ 0x140_0000 →
    ∀ row ∈ [(Instr.edgeR, fun (c p : Bool) => c && !p), (Instr.edgeF, fun c p => p && !c), (Instr.edgeB, fun c p => c != p)],
      ∃ q, exec (row.1 t rd rs1 (w ++ b)) s = next q ∧
        reg q t rd = (if rd = 0 then 0 else oneIf (row.2 ((reg s t rd).getLsbD 0)
          ((readWord s (marketSys t (laneAt s t rs1 w).toNat)).getLsbD b.toNat))) ∧
        (∀ x, x ≠ rd → reg q t x = reg s t x) ∧
        (∀ i, i < 64 → (readWord q (marketSys t (laneAt s t rs1 w).toNat)).getLsbD i =
          if i = b.toNat then (reg s t rd).getLsbD 0
          else (readWord s (marketSys t (laneAt s t rs1 w).toNat)).getLsbD i)

/-- LR.D loads the word and reserves its address; SC.D without the reservation stores nothing, answers 0 and leaves no reservation; all three stop a speculative release with cause 2 (R89, R148, R149). -/
def Claims.AtomicResults : Prop :=
  ∀ (t : TillId) (rd rs1 rs2 : RegNo) (s : State), issues s t → fallsOk s t → fenceHolds s t 1 = false →
    (accessIn (reg s t rs1) 8 0x100_0000 0x140_0000 → plain s t → undamaged s (marketSys t (reg s t rs1).toNat) 8 →
      exec (.lrD t rd rs1 0) s = next (wrote t rd (readWord s (marketSys t (reg s t rs1).toNat))
        (journalEffect t (readWord s (marketSys t (reg s t rs1).toNat))
          (modTill t (fun k => { k with resv := some (reg s t rs1).toNat, resvAt := s.mono }) s)))) ∧
    (accessIn (reg s t rs1) 8 0x100_0000 0x140_0000 → plain s t → (tillAt s t).resv ≠ some (reg s t rs1).toNat →
      exec (.scD t rd rs1 rs2) s = next (wrote t rd 0
        (journalEffect t 0 (modTill t (fun k => { k with resv := none }) s)))) ∧
    (accessIn (reg s t rs1) 8 0x100_0000 0x140_0000 → plain s t → (tillAt s t).resv = some (reg s t rs1).toNat →
      ∀ v q, storeAt t (reg s t rs1) 8 (reg s t rs2) s = .done v q →
      exec (.scD t rd rs1 rs2) s = next (wrote t rd 1
        (journalEffect t 1 (modTill t (fun k => { k with resv := none }) q)))) ∧
    (accessIn (reg s t rs1) 1 0x100_0000 0x140_0000 → plain s t → undamaged s (marketSys t (reg s t rs1).toNat) 1 →
      ∀ v q, storeAt t (reg s t rs1) 1 1 s = .done v q →
      exec (.tas t rd rs1 0) s = next (wrote t rd
        (BitVec.ofNat 64 (readByte s (marketSys t (reg s t rs1).toNat)).toNat)
        (journalEffect t (BitVec.ofNat 64 (readByte s (marketSys t (reg s t rs1).toNat)).toNat) q))) ∧
    (isSpec s t = true → accessIn (reg s t rs1) 8 0x100_0000 0x140_0000 →
      exec (.lrD t rd rs1 0) s = next (stalled t 2 s) ∧ exec (.scD t rd rs1 rs2) s = next (stalled t 2 s) ∧
      exec (.tas t rd rs1 0) s = next (stalled t 2 s))

/-! ### Tally: control transfer and the rest (R132 to R135, R141, R146, R152 to R154) -/

/-- BCR and BCI move PC by their displacement when the comparison that cond names holds, else by 4, and write no register (R132, R133). -/
def Claims.BranchResults : Prop :=
  ∀ (t : TillId) (cond : BitVec 3) (rs1 rs2 : RegNo) (imm : BitVec 5) (disp : BitVec 12) (s : State), issues s t →
    (tillAt s t).pc ≠ 0xFFFFC →
    (targetOk (branchTo s t (condition cond (reg s t rs1) (reg s t rs2)) disp) →
      exec (.bcr t cond rs1 rs2 disp) s = next (movedTo t
        (BitVec.ofNat 20 (branchTo s t (condition cond (reg s t rs1) (reg s t rs2)) disp).toNat) s)) ∧
    (targetOk (branchTo s t (condition cond (reg s t rs1) (immFive cond imm)) disp) →
      exec (.bci t cond rs1 imm disp) s = next (movedTo t
        (BitVec.ofNat 20 (branchTo s t (condition cond (reg s t rs1) (immFive cond imm)) disp).toNat) s))

/-- BBS and BBC branch on a bit of the word at rs1 in local data, 1 for BBS and 0 for BBC, and change no register and no memory (R141). -/
def Claims.BitBranchResults : Prop :=
  ∀ (t : TillId) (rs1 : RegNo) (b : BitVec 6) (disp : BitVec 12) (s : State), issues s t → replayOf s t = none →
    accessIn (reg s t rs1) 8 0x10_0000 0x14_0000 →
    undamaged s (localBase t.stall.val + ((reg s t rs1).toNat - 0x10_0000)) 8 →
    ∀ v, v = (readWord s (localBase t.stall.val + ((reg s t rs1).toNat - 0x10_0000))).getLsbD b.toNat →
    (targetOk (branchTo s t v disp) →
      exec (.bbs t rs1 b disp) s = next (movedTo t (BitVec.ofNat 20 (branchTo s t v disp).toNat) s)) ∧
    (targetOk (branchTo s t (!v) disp) →
      exec (.bbc t rs1 b disp) s = next (movedTo t (BitVec.ofNat 20 (branchTo s t (!v) disp).toNat) s))

/-- JMP, JR and RET move PC to their target, RET restoring w29 from w28; CALL and CALLR outside speculation set w28, w29 and w30 and jump (R134). -/
def Claims.JumpResults : Prop :=
  ∀ (t : TillId) (rd rs1 : RegNo) (imm : BitVec 20) (k : BitVec 12) (s : State), issues s t →
    (targetOk (pcOf s t + BitVec.ofInt 64 (4 * imm.toInt)) →
      exec (.jmp t 0 imm) s = next (movedTo t (BitVec.ofNat 20 (pcOf s t + BitVec.ofInt 64 (4 * imm.toInt)).toNat) s)) ∧
    (targetOk (reg s t rs1 + BitVec.ofInt 64 k.toInt) →
      exec (.jr t 0 rs1 k) s = next (movedTo t (BitVec.ofNat 20 (reg s t rs1 + BitVec.ofInt 64 k.toInt).toNat) s)) ∧
    (targetOk (reg s t 30) →
      exec (.ret t 0 0 0) s = next (movedTo t (BitVec.ofNat 20 (reg s t 30).toNat) (setReg t 29 (reg s t 28) s))) ∧
    (isSpec s t = false → targetOk (pcOf s t + BitVec.ofInt 64 (4 * imm.toInt)) →
      exec (.call t rd imm) s = next (movedTo t (BitVec.ofNat 20 (pcOf s t + BitVec.ofInt 64 (4 * imm.toInt)).toNat)
        (setReg t 30 (pcOf s t + 4) (setReg t 29 (reg s t rd) (setReg t 28 (reg s t 29) s))))) ∧
    (isSpec s t = true → targetOk (pcOf s t + BitVec.ofInt 64 (4 * imm.toInt)) → (tillAt s t).ckpts.length < 256 →
      ∃ q c, exec (.call t rd imm) s = next q ∧ (tillAt q t).ckpts = (tillAt s t).ckpts ++ [c] ∧
        (tillAt q t).pc = BitVec.ofNat 20 (pcOf s t + BitVec.ofInt 64 (4 * imm.toInt)).toNat ∧ c.pc = (tillAt q t).pc ∧
        c.regs = (tillAt q t).regs ∧ reg q t 30 = pcOf s t + 4 ∧ reg q t 29 = reg s t rd ∧ reg q t 28 = reg s t 29) ∧
    (isSpec s t = false → targetOk (reg s t rs1 + BitVec.ofInt 64 k.toInt) →
      exec (.callr t rd rs1 k) s = next (movedTo t (BitVec.ofNat 20 (reg s t rs1 + BitVec.ofInt 64 k.toInt).toNat)
        (setReg t 30 (pcOf s t + 4) (setReg t 29 (reg s t rd) (setReg t 28 (reg s t 29) s)))))

/-- A transfer target that is not a multiple of 4 raises ALIGN, one outside the program store ACCESS, with the target as the address; an instruction at the last word of the store whose next PC would be the first address after it raises ACCESS before it has any effect (R135, R136). -/
def Claims.ControlTransferTraps : Prop :=
  ∀ (t : TillId) (rs1 : RegNo) (k : BitVec 12) (imm : BitVec 20) (s : State), issues s t → isSpec s t = true →
    ((reg s t rs1 + BitVec.ofInt 64 k.toInt).toNat % 4 ≠ 0 →
      ∃ w, exec (.jr t 0 rs1 k) s = next (deferred t 3 w (reg s t rs1 + BitVec.ofInt 64 k.toInt) s)) ∧
    ((reg s t rs1 + BitVec.ofInt 64 k.toInt).toNat % 4 = 0 → endAddress < (reg s t rs1 + BitVec.ofInt 64 k.toInt).toNat →
      ∃ w, exec (.jr t 0 rs1 k) s = next (deferred t 2 w (reg s t rs1 + BitVec.ofInt 64 k.toInt) s)) ∧
    ((pcOf s t + BitVec.ofInt 64 (4 * imm.toInt)).toNat % 4 = 0 →
      endAddress ≤ (pcOf s t + BitVec.ofInt 64 (4 * imm.toInt)).toNat →
      ∃ w, exec (.jmp t 0 imm) s = next (deferred t 2 w (pcOf s t + BitVec.ofInt 64 (4 * imm.toInt)) s)) ∧
    ((tillAt s t).pc = 0xFFFFC → ∀ r ∈ aluRows, ∀ (rd rs2 : RegNo), ∃ w,
      exec (r.row t rd rs1 rs2) s = next (deferred t 2 w (BitVec.ofNat 64 endAddress) s))

/-- A RET or JR to the release end address ends the task body: a speculative release waits, and the live release of a periodic task asks its bank for the commit and loses its reservation (R54, R77, R135). -/
def Claims.BodyEnds : Prop :=
  ∀ (t : TillId) (s : State), issues s t → reg s t 30 = BitVec.ofNat 64 endAddress →
    (isSpec s t = true → ∃ q, exec (.ret t 0 0 0) s = next q ∧ (tillAt q t).waiting = true ∧
      q = { s with stalls := q.stalls }) ∧
    (isLive (tillAt s t) = true → (tillEntry s t).event = false → earlierPosted s t = false →
      ∃ q, exec (.ret t 0 0 0) s = next q ∧ (tillAt q t).committing = true ∧ (tillAt q t).resv = none ∧
        q.markets[marketOf t.stall].queue = s.markets[marketOf t.stall].queue ++
          [{ kind := .commit t, len := (tillEntry s t).outLen, since := s.mono, aged := false, start := 0, data := [] }] ∧
        ∀ a, readByte q a = readByte s a)

/-- NOP advances PC by 4 and changes nothing else (R153). -/
def Claims.NopAdvancesPc : Prop :=
  ∀ (t : TillId) (s : State), issues s t → fallsOk s t →
    exec (.nop t 0 0 0) s = next (movedTo t ((tillAt s t).pc + 4) s)

/-- TMRQ writes the release instant, the tick number or the period in ns of a periodic release into rd (R146). -/
def Claims.TmrqResults : Prop :=
  ∀ (t : TillId) (rd : RegNo) (s : State), issues s t → fallsOk s t → (tillEntry s t).event = false →
    exec (.tmrq t rd 0 0) s = next (wrote t rd (tillAt s t).rel.instant s) ∧
    exec (.tmrq t rd 0 1) s = next (wrote t rd (BitVec.ofNat 64 (tillAt s t).rel.tick) s) ∧
    exec (.tmrq t rd 0 2) s = next (wrote t rd (BitVec.ofNat 64 (((tillEntry s t).periodM1 + 1) * 31250)) s)

/-- SYS places a request in the Teller queue of its Market and answers the ticket with STATUS 0; an unknown service answers STATUS 2 and queues nothing; speculation stops with cause 1 (R89, R154). -/
def Claims.SysCallResults : Prop :=
  ∀ (t : TillId) (rd rs1 : RegNo) (imm : BitVec 12) (s : State), issues s t → fallsOk s t → following s = false →
    (plain s t → imm ∈ ([1, 2, 4, 5, 6] : List (BitVec 12)) → 0x100_0000 ≤ (reg s t rs1).toNat →
      (reg s t rs1).toNat < 0x140_0000 → s.markets[marketOf t.stall].sysQueue.length < 32 →
      ∃ q, exec (.sysCall t rd rs1 imm) s = next q ∧
        q.markets[marketOf t.stall].sysQueue = s.markets[marketOf t.stall].sysQueue ++
          [{ service := imm, arg := reg s t rs1, stall := t.stall, task := (tillAt s t).rel.task,
             ticket := s.stalls[t.stall].ticket }] ∧
        q.stalls[t.stall].ticket = s.stalls[t.stall].ticket + 1 ∧
        (rd ≠ 0 → reg q t rd = BitVec.ofNat 64 s.stalls[t.stall].ticket.toNat) ∧ ∀ a, readByte q a = readByte s a) ∧
    (plain s t → imm.toNat = 0 ∨ 7 ≤ imm.toNat →
      ∃ q, exec (.sysCall t rd rs1 imm) s = next q ∧ q.markets = s.markets ∧
        q.stalls[t.stall].ticket = s.stalls[t.stall].ticket ∧ (rd ≠ 0 → (reg q t rd).toNat / 2 ^ 56 = 2)) ∧
    (isSpec s t = true → exec (.sysCall t rd rs1 imm) s = next (stalled t 1 s))

/-- FENCE with nothing outstanding in its classes only advances PC; FENCE_COMPLETE ends a fence whose accesses have been performed; classes NET and HST stop speculation with cause 3 (R38, R89, R152). -/
def Claims.FenceResults : Prop :=
  ∀ (t : TillId) (m : BitVec 6) (s : State), 
    (issues s t → fallsOk s t → isSpec s t = false → s.stalls[t.stall].fence = none →
      fenceWaits s t.stall { mask := m, tickets := openTickets s t.stall m } = false →
      exec (.fence t 0 0 (0#6 ++ m)) s = next (movedTo t ((tillAt s t).pc + 4) s)) ∧
    (issues s t → fallsOk s t → isSpec s t = false → s.stalls[t.stall].fence = none →
      fenceWaits s t.stall { mask := m, tickets := openTickets s t.stall m } = true →
      ∃ q, exec (.fence t 0 0 (0#6 ++ m)) s = next q ∧ (tillAt q t).pc = (tillAt s t).pc + 4 ∧
        q.stalls[t.stall].fence = some { mask := m, tickets := openTickets s t.stall m } ∧ q = { s with stalls := q.stalls }) ∧
    (issues s t → isSpec s t = true → (tillAt s t).pc ≠ 0xFFFFC → m.getLsbD 3 = true ∨ m.getLsbD 4 = true →
      exec (.fence t 0 0 (0#6 ++ m)) s = next (stalled t 3 s)) ∧
    (∀ f, s.stalls[t.stall].fence = some f → fenceWaits s t.stall f = false →
      exec (.fenceComplete t) s = next (modStall t.stall (fun k => { k with fence := none }) s))

/-! ### Till events, releases and speculation (R46 to R60, R68, R75 to R96, R106 to R114, R149) -/

/-- A breakpoint freezes the task of a non-speculative release and a project in RUN enters HOLD, a speculative one stops with cause 10 (R68, R89); 1,024 Market cycles after LR.D the reservation is empty (R149); a word that spells no instruction raises ILLEGAL (R125). -/
def Claims.TillEvents : Prop :=
  (∀ (t : TillId) (b : Breakpoint) (s : State), runnable s t = true → breakHere s t = some b →
    (isSpec s t = true → exec (.breakpointReached t) s = next (stalled t 10 s)) ∧
    (isSpec s t = false → ∃ q, exec (.breakpointReached t) s = next q ∧
      (tillAt q t).frozen = some { cause := 0, fault := false, scopeAll := b.scopeAll } ∧
      (tillAt q t).regs = (tillAt s t).regs ∧ (tillAt q t).pc = (tillAt s t).pc ∧
      (s.ctl.mode = .run → q.ctl.mode = .hold ∧ q.ctl.ftask = (tillAt s t).rel.task) ∧ ∀ a, readByte q a = readByte s a)) ∧
  (∀ (t : TillId) (a : Nat) (s : State), (tillAt s t).resv = some a →
    ∃ q, exec (.reservationTimeout t) s = next q ∧ (tillAt q t).resv = none ∧
      q.mono = max s.mono ((tillAt s t).resvAt + cyclesNs s.markets[marketOf t.stall] 1024)) ∧
  (∀ (t : TillId) (w : BitVec 32) (s : State), decodeTally t w = none → issues s t →
    (isSpec s t = true → exec (.undefinedInstruction t w) s = next (deferred t 1 w 0 s)) ∧
    (holdsOnFault s t → ∃ q, exec (.undefinedInstruction t w) s = next q ∧
      (tillAt q t).frozen = some { cause := 1, fault := true, scopeAll := false } ∧
      (tillAt q t).pc = (tillAt s t).pc ∧ (∀ x, reg q t x = reg s t x)))

/-- A transient fault in a live release that may be replayed starts a recovery replay from its task's entry; in a speculative release that is not dispatched it squashes the release (R107, R112). -/
def Claims.TransientFaults : Prop :=
  ∀ (t : TillId) (kind : Fin 4) (addr : BitVec 40) (s : State), runnable s t = true →
    (isLive (tillAt s t) = true → (tillAt s t).replayed = false → (tillAt s t).unprot = false → bit s.spctl 1 = true →
      ∃ q r, exec (.transientFault t kind addr) s = next q ∧ (tillAt q t).replay = some r ∧ r.verify = false ∧
        r.base = (tillAt s t).journal.length ∧ (tillAt q t).replayed = true ∧ (tillAt q t).held = [] ∧
        (tillAt q t).pc = BitVec.ofNat 20 (tillEntry s t).entry ∧ (tillAt q t).regs = (tillAt s t).regw) ∧
    (isSpec s t = true → (tillAt s t).dispatched = false →
      ∃ q, exec (.transientFault t kind addr) s = next q ∧ tillAt q t = Till.idle ∧
        q.stalls[t.stall].spsq = (s.stalls[t.stall].spsq + 1) % 2 ^ 64)

/-- A release signal of a running project makes the release pending while the Stall is taken, with RELNUM one above RELCNT, and is skipped and counted while the task's release is uncommitted (R47, R59, R60). -/
def Claims.ReleaseSignals : Prop :=
  ∀ (task : TaskId) (g : RelSignal) (x : Task) (s : State), s.signals.find? (fun y => y.task == task) = some g →
    taskOf s task = some x → s.ctl.mode = .run → s.red.role = .solo → s.red.adjudication = none → x.stopped = false →
    taskFrozen s task = false →
    (uncommitted s task = false → s.stalls[x.e.stall].running ≠ none →
      ∃ q, exec (.releaseSignalArrival task) s = next q ∧
        q.stalls[x.e.stall].pend = s.stalls[x.e.stall].pend ++
          [{ task := task, instant := BitVec.ofNat 64 (g.tick * 31250), tick := g.tick, relnum := x.relcnt + 1,
             arrived := s.mono, evt := [] }] ∧
        taskOf q task = some { x with relcnt := (x.relcnt + 1) % 2 ^ 64 } ∧ ∀ a, readByte q a = readByte s a) ∧
    (uncommitted s task = true → x.e.ovrlim = 0 →
      ∃ q y, exec (.releaseSignalArrival task) s = next q ∧ taskOf q task = some y ∧ y.run = x.run + 1 ∧
        y.relcnt = (x.relcnt + 1) % 2 ^ 64 ∧ (x.ovrcnt < 2 ^ 32 → y.ovrcnt = min (x.ovrcnt + 1) (2 ^ 32 - 1)) ∧
        q.stalls = s.stalls ∧ ∀ a, readByte q a = readByte s a)

/-- A free Stall dispatches its pending release of highest priority into a free Till, with the start registers, and asks its bank for the input latch (R46, R52, R121). -/
def Claims.DispatchStartsRelease : Prop :=
  ∀ (k : StallId) (r : Release) (t : TillId) (x : Task) (s : State), minBy (releaseKey s) s.stalls[k].pend = some r →
    dispatchable s k r = true → specTill s k = none → pickTill s k = some t → taskOf s r.task = some x →
    x.freezeNext = none → mirrorOf s r = none → x.e.event = false → x.e.inLen ≠ 0 →
    ∃ q, exec (.dispatch k) s = next q ∧
      tillAt q t = { startTill x.e r .live s.mono with dispatched := true } ∧
      q.stalls[k].running = some t.till ∧
      q.stalls[k].pend = s.stalls[k].pend.filter (fun y => !(y.task == r.task && y.relnum == r.relnum)) ∧
      q.markets[marketOf k].queue = s.markets[marketOf k].queue ++
        [{ kind := .latch t, len := x.e.inLen, since := s.mono, aged := false, start := 0, data := [] }] ∧
      (∀ a, readByte q a = readByte s a)

/-- The registers of a Till at the start of a release: w29 the instance area, w30 the release end address, w31 the top of local data, every other register 0 (R121). -/
def Claims.StartRegisters : Prop :=
  ∀ (e : TaskEntry) (r : Release) (a : AreaState) (now : Nat) (x : RegNo),
    getReg (startTill e r a now) x =
      if x = 29 then BitVec.ofNat 64 (0x100_0000 + e.instOff) else if x = 30 then BitVec.ofNat 64 0x10_0000
      else if x = 31 then BitVec.ofNat 64 0x14_0000 else 0

/-- A free Stall starts a speculative release of the eligible task with the earliest next instant (R83, R84). -/
def Claims.SpeculationStarts : Prop :=
  ∀ (k : StallId) (t : TillId) (x : Task) (s : State), s.stalls[k].awake = true → stallFree s k = true →
    s.stalls[k].pend = [] → specTill s k = none → windowOpen s k = false → s.red.role = .solo →
    s.red.adjudication = none → pickTill s k = some t →
    minBy (fun x => (nextInstant s x.e * 16 + x.e.prio) * 128 + x.e.id.toNat)
      (s.tasks.filter (fun x => x.e.stall == k && eligible s x)) = some x →
    exec (.speculationStart k) s = next (modStall k (fun y => { y with sprun := (y.sprun + 1) % 2 ^ 64 })
      (modTill t (fun _ => startTill x.e
        { task := x.e.id, instant := BitVec.ofNat 64 (nextInstant s x.e * 31250), tick := nextInstant s x.e,
          relnum := x.relcnt + 1, arrived := 0, evt := [] } .speculative s.mono) s))

/-- A run-ahead comparison without a change makes the release live with its work kept; a change rolls it back to the checkpoint of the earliest changed interval (R93, R94). A verification replay that ends leaves its Till retained and reports its own verdict (R114, R392). -/
def Claims.ComparisonEnds : Prop :=
  (∀ (t : TillId) (s : State), (tillAt s t).area = .speculative → (tillAt s t).dispatched = true →
    (tillAt s t).latched = true → lowestChange s t = none → (tillAt s t).waiting = false → (tillAt s t).trap = none →
    (tillAt s t).frozen = none →
    ∃ q, exec (.comparisonComplete t) s = next q ∧
      tillAt q t = { tillAt s t with area := .live, image := [], watch := [], stallCause := 0 } ∧
      q.stalls[t.stall].sphit = (s.stalls[t.stall].sphit + 1) % 2 ^ 64 ∧ ∀ a, readByte q a = readByte s a) ∧
  (∀ (t : TillId) (c : Nat) (p : Checkpoint) (s : State), (tillAt s t).area = .speculative →
    (tillAt s t).dispatched = true → (tillAt s t).latched = true → lowestChange s t = some c →
    (tillAt s t).ckpts[c]? = some p →
    ∃ q, exec (.comparisonComplete t) s = next q ∧ (tillAt q t).area = .live ∧ (tillAt q t).regs = p.regs ∧
      (tillAt q t).pc = p.pc ∧ (tillAt q t).held = p.held ∧ (tillAt q t).ckpts = (tillAt s t).ckpts.take (c + 1) ∧
      q.stalls[t.stall].sprb = (s.stalls[t.stall].sprb + 1) % 2 ^ 64) ∧
  (∀ (t : TillId) (r : Replay) (s : State), (tillAt s t).area = .retained → (tillAt s t).waiting = true →
    (tillAt s t).replay = some r → r.verify = true →
    (s.red.adjudication = none → exec (.verificationReplayDone t) s =
      next (modTill t (fun k => { k with waiting := false, replay := none, held := [] }) s)) ∧
    (∀ a, s.red.adjudication = some a → a.peerVerdict = none → ∃ q v, exec (.verificationReplayDone t) s = next q ∧
      q.red.adjudication = some { a with ownVerdict := some v } ∧
      ((tillAt s t).trap ≠ none → v = false) ∧ (tillAt q t).replay = none))

/-- A trigger of an event task becomes a pending release with its event record while its Stall is taken, or is dropped and counted while one is pending; a direct output word sets the event level of the masked channels that its task owns (R75, R76, R77, R320). -/
def Claims.EventTasks : Prop :=
  (∀ (task : TaskId) (g : Trigger) (x : Task) (s : State), s.trigs.find? (fun y => y.task == task) = some g →
    taskOf s task = some x → s.ctl.mode = .run → s.red.role = .solo → x.stopped = false →
    (s.stalls[x.e.stall].pend.any (fun r => r.task == task) = false → s.stalls[x.e.stall].running ≠ none →
      ∃ q, exec (.eventTriggerArrival task) s = next q ∧ q.trigs = dropFirst (fun y => y.task == task) s.trigs ∧
        q.stalls[x.e.stall].pend = s.stalls[x.e.stall].pend ++
          [{ task := task, instant := g.t, tick := 0, relnum := x.relcnt + 1, arrived := s.mono,
             evt := eventRecord g x.evSeq x.evDropped }]) ∧
    (s.stalls[x.e.stall].pend.any (fun r => r.task == task) = true → x.evDropped < 2 ^ 32 - 1 →
      ∃ q y, exec (.eventTriggerArrival task) s = next q ∧ q.trigs = dropFirst (fun y => y.task == task) s.trigs ∧
        taskOf q task = some y ∧ y.evDropped = x.evDropped + 1 ∧ y.evSeq = x.evSeq + 1 ∧ q.stalls = s.stalls)) ∧
  (∀ (id : TaskId) (w : Word) (rest : List (TaskId × Word)) (s : State), s.directs = (id, w) :: rest →
    ∃ q, exec .directOutputWord s = next q ∧ q.directs = rest ∧
      ∀ n, n < 32 → (channelAt q n).eventOn =
        if isOutput (channelAt s n) && outSrc (channelAt s n) == 1 && bits (channelAt s n).cfg 26 20 == id.toNat &&
            w.getLsbD (32 + n) && !heldOpen s n then w.getLsbD n
        else (channelAt s n).eventOn)

/-! ### Image banks, routes and the scrubber (R26, R33 to R35, R52 to R55) -/

/-- An idle bank starts the waiting transaction of highest priority; one that has waited 8 us is raised; a route's gather is asked for after its source commits (R33, R34, R55). -/
def Claims.BankOrder : Prop :=
  (∀ (m : MarketId) (x : BankTx) (s : State), s.markets[m].active = none → pickTx s m = some x →
    ∃ q d, exec (.bankTransactionStart m) s = next q ∧
      q.markets[m].active = some { x with start := s.mono, data := d } ∧
      q.markets[m].queue = dropFirst (fun y => decide (y = x)) s.markets[m].queue ∧ ∀ a, readByte q a = readByte s a) ∧
  (∀ (m : MarketId) (x : BankTx) (s : State),
    minBy BankTx.since (s.markets[m].queue.filter (fun x => !x.aged)) = some x →
    ∃ q, exec (.bankAgeing m) s = next q ∧ q.mono = max s.mono (x.since + 8000) ∧
      q.markets[m].queue = s.markets[m].queue.map (fun y => if y.since + 8000 ≤ q.mono then { y with aged := true } else y) ∧
      ∀ a, readByte q a = readByte s a) ∧
  (∀ (i : Fin 32) (r : Route) (s : State), s.routeJobs.contains i.val = true → s.project.routes[i.val]? = some r →
    ∃ q, exec (.imageRoute i) s = next q ∧ q.routeJobs = dropFirst (fun j => j == i.val) s.routeJobs ∧
      q.markets[(entryOf s r.srcTask).market].queue = s.markets[(entryOf s r.srcTask).market].queue ++
        [{ kind := .gather (.route r.srcTask i.val) [(r.srcOff, r.len)], len := r.len, since := s.mono, aged := false,
           start := 0, data := [] }] ∧ ∀ a, readByte q a = readByte s a)

/-- A bank transaction that ends frees the bank 64 bytes per Market cycle after its start: a write stores its bytes, a field gather hands its bytes to the field die in time, and an input latch makes the Daybook valid (R33, R35, R52, R303). -/
def Claims.BankTransactionsEnd : Prop :=
  ∀ (m : MarketId) (x : BankTx) (s : State), s.markets[m].active = some x →
    (∀ (a : Nat) (bs : List Byte), x.kind = .fieldSample [(a, bs)] → s.ue = [] →
      ∃ q, exec (.bankTransactionEnd m) s = next q ∧ q.markets[m].active = none ∧
        q.mono = max s.mono (x.start + cyclesNs s.markets[m] (ceilDiv x.len 64)) ∧
        (∀ i, i < bs.length → some (readByte q (a + i)) = bs[i]?) ∧
        (∀ b, b < a ∨ a + bs.length ≤ b → readByte q b = readByte s b)) ∧
    (∀ (rs : List (Nat × Nat)), x.kind = .gather .field rs →
      ∃ q, exec (.bankTransactionEnd m) s = next q ∧ q.markets[m].active = none ∧ q.field.gathering = none ∧
        (∀ n, s.field.gathering = some n → q.field.gathered = if nowT q + 50 ≤ n then some x.data else none) ∧
        ∀ b, readByte q b = readByte s b) ∧
    (∀ t : TillId, x.kind = .latch t → ∃ q, exec (.bankTransactionEnd m) s = next q ∧ (tillAt q t).latched = true ∧
      q.markets[m].active = none) ∧
    (∀ e : Fin 8, x.kind = .motionRead e.val → ∃ q, exec (.bankTransactionEnd m) s = next q ∧
      q.markets[m].active = none ∧ ∀ c, (s.engines[e]).cycle = some c → ∃ d, (q.engines[e]).cycle = some d ∧
        d.waiting = c.waiting.filter (fun y => y != m.val))

/-- A commit writes every word that the release wrote into the output section at once, retains the Till and frees the Stall (R54, R60, R73, R104). -/
def Claims.CommitsWriteSections : Prop :=
  ∀ (m : MarketId) (t : TillId) (x : Task) (b : BankTx) (s : State), s.markets[m].active = some b → b.kind = .commit t →
    marketOf t.stall = m → taskOf s (tillAt s t).rel.task = some x → x.afterCommit = .none → s.forces = [] → s.ue = [] →
    s.red.role = .solo → s.ctl.mode = .run → s.stalls[t.stall].running = some t.till → x.e.stall = t.stall →
    (tillAt s t).frozen = none → (tillAt s t).area = .live →
    ∃ q, exec (.bankTransactionEnd m) s = next q ∧ (tillAt q t).area = .retained ∧ (tillAt q t).committing = false ∧
      (tillAt q t).regs = (tillAt s t).regs ∧ q.stalls[t.stall].running = none ∧
      (∃ y, taskOf q (tillAt s t).rel.task = some y ∧ y.commitcnt = (x.commitcnt + 1) % 2 ^ 64 ∧ y.run = 0) ∧
      (∀ i, i < x.e.outLen / 8 → inCells (tillAt s t).held (x.e.outOff + 8 * i) = true →
        readWord q (outBase m.val + x.e.outOff + 8 * i) =
          valueAt (overlay (tillAt s t).held (fun _ => 0) (x.e.outOff + 8 * i) 8)) ∧
      (∀ a, a < outBase m.val + x.e.outOff ∨ outBase m.val + x.e.outOff + x.e.outLen ≤ a → readByte q a = readByte s a)

/-! ### The host interface (R333 to R361) -/

/-- The poll timer and a nudge send one read of the doorbell page; a nudge while a poll is outstanding asks for one more; a poll that returns is counted and ends HOST_LOST, and one that fails is not (R344, R358). -/
def Claims.Polling : Prop :=
  ∀ s : State, polls s = true →
    (s.host.pollOut = false → ∃ q, exec .doorbellPoll s = next q ∧ q.host.pollOut = true ∧
      q.host.posted = s.host.posted ++ [.read ((s.host.dbbase.toNat / 4096) * 4096) 512] ∧
      q.host.lastPoll = some q.mono ∧ (∀ t, s.host.lastPoll = some t → q.mono = max s.mono (t + s.host.dbper * 1000))) ∧
    (∀ v, s.host.pollOut = false → ∃ q, exec (.rngNudge v) s = next q ∧ q.host.pollOut = true ∧ q.mono = s.mono ∧
      q.host.posted = s.host.posted ++ [.read ((s.host.dbbase.toNat / 4096) * 4096) 512]) ∧
    (∀ v, s.host.pollOut = true → exec (.rngNudge v) s = next { s with host := { s.host with nudged := true } }) ∧
    (∀ d, s.host.pollOut = true → s.host.nudged = false → s.host.lastPoll = some s.mono → 0 < s.host.dbper →
      exec (.pollDataArrival false d) s = next { s with host := { s.host with pollOut := false } }) ∧
    (∀ d, s.host.pollOut = true → ∃ q, exec (.pollDataArrival true d) s = next q ∧
      q.host.polls = (s.host.polls + 1) % 2 ^ 64 ∧ q.host.lastGood = s.mono ∧ q.host.hostLost = false)

/-- Fetched descriptors that the host has handed over join their ring's list in order, and a failed fetch or a descriptor that stays unowned for 1 ms halts the ring with its cause (R347, R350). -/
def Claims.DescriptorFetch : Prop :=
  ∀ (ring : Fin 16) (start count : Nat) (d : List Byte) (s : State),
    ((cmdRing s ring.val).fetching = some (start, count) → (cmdRing s ring.val).cur ≠ none →
      ∃ q, exec (.descriptorArrival ring true d) s = next q ∧ (cmdRing q ring.val).fetched =
        (cmdRing s ring.val).fetched ++ (descsOf start count d).takeWhile (fun x => bit x.w[7] 63)) ∧
    ((cmdRing s ring.val).fetching = some (start, count) → (cmdRing s ring.val).halt = false →
      ∃ q, exec (.descriptorArrival ring false d) s = next q ∧ (cmdRing q ring.val).halt = true ∧
        (cmdRing q ring.val).hcause = 3 ∧ (cmdRing q ring.val).fetched = []) ∧
    (∀ t, (cmdRing s ring.val).notOwned = some t → (cmdRing s ring.val).halt = false →
      ∃ q, exec (.ownTimeout ring) s = next q ∧ (cmdRing q ring.val).halt = true ∧ (cmdRing q ring.val).hcause = 2 ∧
        q.mono = max s.mono (t + 1000000))

/-- A ring's turn begins the command of its oldest descriptor: CONS moves on, and a defined opcode with a clean header becomes the ring's command (R346, R347). -/
def Claims.CommandsBegin : Prop :=
  ∀ (ring : Fin 16) (d : Desc) (rest : List Desc) (s : State), (cmdRing s ring.val).fetched = d :: rest →
    slotState s ring.val d ≠ 0 → opcodeDefined (bits d.w[0] 7 0) = true → headerClean d = true →
    (cmdRing (takeTurn ring.val s) ring.val).cur = some (cmdOf ring.val d) ∧
    (cmdRing (takeTurn ring.val s) ring.val).fetched = rest ∧
    (cmdRing (takeTurn ring.val s) ring.val).cons = ((cmdRing s ring.val).cons + 1) % 65536

/-- A finished command is written back, status first and OWN = 0 last, and leaves the list of those that wait; a failing write-back halts the ring with cause 3 (R348, R350). -/
def Claims.CommandCompletion : Prop :=
  ∀ (ring : Fin 16) (d : Done) (s : State), firstDone s ring.val = some d → canReq s = true →
    (∃ q l p, exec (.commandCompletion ring false) s = next q ∧
      q.host.finished = dropFirst (fun x => x.cmd.ring == ring.val) s.host.finished ++ l ∧
      q.host.posted = s.host.posted ++
        [.write (entryAddr (cmdRing s ring.val).base (cmdRing s ring.val).cfg d.cmd.idx + 48)
          (bytesOfWord (BitVec.ofNat 64 d.status ||| (BitVec.ofNat 64 (d.result0.toNat % 2 ^ 32) <<< 16))),
         .write (entryAddr (cmdRing s ring.val).base (cmdRing s ring.val).cfg d.cmd.idx + 56) (List.replicate 8 0)] ++ p) ∧
    ((cmdRing s ring.val).halt = false → ∃ q, exec (.commandCompletion ring true) s = next q ∧
      (cmdRing q ring.val).halt = true ∧ (cmdRing q ring.val).hcause = 3)

/-- A backlogged event is written to the event ring as soon as it takes entries; an entry left without a message is announced IMOD us after the last message; HOSTTMO ms without a poll raise HOST_LOST; an access to no register is reported (R335, R356, R357, R358, R435). -/
def Claims.HostEvents : Prop :=
  ∀ s : State,
    (∀ e f rest, s.host.backlog = e :: f :: rest → outReady s 16 = true →
      ∃ q p, exec .eventBacklogWrite s = next q ∧ q.host.backlog = f :: rest ∧
        q.host.ev.prod = (s.host.ev.prod + 1) % 65536 ∧
        q.host.posted = s.host.posted ++
          [.write (entryAddr s.host.ev.base s.host.ev.cfg s.host.ev.prod) (fitBytes 56 (bytesOfWords (eventWords e))),
           .write (entryAddr s.host.ev.base s.host.ev.cfg s.host.ev.prod + 56) (bytesOfWord 0x8000_0000_0000_0000)] ++ p) ∧
    (∀ (n : Fin 17) t, (outRing s n.val).announce = true → (outRing s n.val).lastMsg = some t →
      ∃ q, exec (.interruptModeration n) s = next q ∧ (outRing q n.val).announce = false ∧
        (outRing q n.val).lastMsg = some q.mono ∧ q.mono = max s.mono (t + bits (outRing s n.val).cfg 20 11 * 1000)) ∧
    (bits s.host.ctl 22 7 ≠ 0 → s.host.hostLost = false → ∃ q, exec .hostLost s = next q ∧ q.host.hostLost = true ∧
      q.host.evSeq = s.host.evSeq + 1 ∧ q.mono = max s.mono (s.host.lastGood + bits s.host.ctl 22 7 * 1000000)) ∧
    (∀ (w : Bool) (off : BitVec 18), ∃ q, exec (.bar0InvalidAccess w off) s = next q ∧ q.errs.accbar = true ∧
      (s.errs.accbar = false → s.errs.accsys = false →
        q.errs.erraddr = BitVec.ofNat 64 off.toNat ∧ q.errs.write = w ∧ q.errs.agent = 0) ∧
      q = { s with errs := q.errs })

/-- A host reset puts the rings, the mailboxes and the DMA engine at their reset values and keeps the event backlog; Bus Master Enable off stops polling and halts every data channel, and on lets requests leave again (R337, R339, R370). -/
def Claims.HostResets : Prop :=
  ∀ s : State,
    (∃ q, exec .hostReset s = next q ∧ q.host.rings = Vector.replicate 16 CmdRing.reset ∧
      q.host.comps = Vector.replicate 16 OutRing.reset ∧ q.host.mailboxes = Vector.replicate 64 [] ∧ q.host.bme = false ∧
      q.host.finished = [] ∧ q.host.backlog = s.host.backlog ∧ q.host.evSeq = s.host.evSeq ∧
      q.dma.en = false ∧ q.dma.chans = Vector.replicate 8 DmaChan.reset ∧ q.ctl.mode = s.ctl.mode ∧
      ∀ a, readByte q a = readByte s a) ∧
    (∃ q, exec (.busMasterDisable false) s = next q ∧ canReq q = false ∧ q.host.bme = false ∧ q.host.pollOut = false ∧
      ∀ n, n < 7 → (chanAt q n).halted = true) ∧
    (∃ q, exec (.busMasterDisable true) s = next q ∧ canReq q = false ∧ q.host.d3 = true ∧ q.host.bme = s.host.bme) ∧
    (∃ q, exec (.busMasterEnable false) s = next q ∧ q.host.bme = true ∧ q.host.d3 = s.host.d3) ∧
    (∃ q, exec (.busMasterEnable true) s = next q ∧ q.host.d3 = false ∧ q.host.bme = s.host.bme)

/-- A finished command is one completion more, and the ring's place for it is free (R347, R348). -/
def Claims.FinishAnswersOnce : Prop :=
  ∀ (c : Cmd) (st : Nat) (r0 r1 : Word) (s : State), c.ring < 16 →
    ((cmdRing s c.ring).cur = some c ∨ (cmdRing s c.ring).busy = some c →
      (finish c st r0 r1 s).host.finished = s.host.finished ++ [{ cmd := c, status := st, result0 := r0, result1 := r1 }] ∧
      (cmdRing (finish c st r0 r1 s) c.ring).cur ≠ some c ∧ (cmdRing (finish c st r0 r1 s) c.ring).busy ≠ some c) ∧
    (knowsCmd s c = false → finish c st r0 r1 s = s)

/-! ### Ring commands of the rings and the DMA engine (R351, R362 to R371) -/

/-- NOP and a FENCE with nothing to wait for complete with OK, a reserved bit with BAD_DESC, and a FENCE behind earlier accesses waits (R39, R349, R351). -/
def Claims.NopAndFence : Prop :=
  (∀ (ring : Fin 16) (c : Cmd) (s : State), atRing s ring 0x00 c →
    (clean c [] → ∃ q, exec (.nopCommand ring) s = next q ∧ answered s q c 0 0 0) ∧
    (¬ clean c [] → ∃ q, exec (.nopCommand ring) s = next q ∧ answered s q c 2 0 0)) ∧
  (∀ (ring : Fin 16) (c : Cmd) (s : State), atRing s ring 0x01 c → clean c [0x3F] →
    (ringFenceWaits s ring.val (bits (opnd c 1) 5 0) = false →
      ∃ q, exec (.fenceDescriptor ring) s = next q ∧ answered s q c 0 0 0) ∧
    (ringFenceWaits s ring.val (bits (opnd c 1) 5 0) = true → exec (.fenceDescriptor ring) s = next s))

/-- DMA_COPY and DMA_WRITE with good descriptors and ranges join their channel, are turned away with BAD_ADDRESS where R27 does not permit the range, and with ABORTED while the engine is off (R351, R364, R366, R371). -/
def Claims.DmaCommands : Prop :=
  (∀ (ring : Fin 16) (c : Cmd) (n ch : Nat) (s : State), atRing s ring 0x02 c → alone s →
    opnd c 3 = BitVec.ofNat 64 (n + ch * 2 ^ 36 + 5 * 2 ^ 32) → 1 ≤ n → n ≤ 2 ^ 24 → ch ≤ 5 → opnd c 4 = 0 → opnd c 5 = 0 →
    (opnd c 1).toNat < 2 ^ 40 → (opnd c 2).toNat < 2 ^ 40 →
    (s.dma.en = false → ∃ q, exec (.dmaCopy ring) s = next q ∧ answered s q c 5 0 0) ∧
    (s.dma.en = true → sysRangeOk s (opnd c 1).toNat n false = false →
      ∃ q, exec (.dmaCopy ring) s = next q ∧ answered s q c 3 0 0) ∧
    (s.dma.en = true → sysRangeOk s (opnd c 1).toNat n false = true → sysRangeOk s (opnd c 2).toNat n true = true →
      ∃ q, exec (.dmaCopy ring) s = next q ∧ (chanAt q ch).queue = (chanAt s ch).queue ++
        [{ cmd := c, src := (opnd c 1).toNat, dst := (opnd c 2).toNat, len := n, srcSys := true, dstSys := true,
           val := none, done := 0 }] ∧ ∀ a, readByte q a = readByte s a)) ∧
  (∀ (ring : Fin 16) (c : Cmd) (ch : Nat) (s : State), atRing s ring 0x03 c → alone s → s.dma.en = true →
    opnd c 3 = BitVec.ofNat 64 (8 + 16 + ch * 64) → ch ≤ 5 → opnd c 4 = 0 → opnd c 5 = 0 →
    (opnd c 1).toNat < 2 ^ 40 → (opnd c 1).toNat % 8 = 0 → sysRangeOk s (opnd c 1).toNat 8 true = true →
    ∃ q, exec (.dmaWrite ring) s = next q ∧ (chanAt q ch).queue = (chanAt s ch).queue ++
      [{ cmd := c, src := 0, dst := (opnd c 1).toNat, len := 8, srcSys := false, dstSys := true,
         val := some (bytesOfNat 8 (opnd c 2).toNat), done := 0 }])

/-- A burst of a copy between two ranges of local data moves its bytes and leaves the rest of memory alone; a failing request halts its channel with the cause and address latched; RESUME lets the queued commands run, FLUSH empties the queue, and EN = 0 empties every channel (R365, R369, R370, R371). -/
def Claims.DmaChannels : Prop :=
  (∀ (n : Nat) (c : DmaCmd) (k l e f : Nat) (d : List Byte) (s : State), s.dma.en = true → pickChan s = some n →
    chanNext s n = some c → alone s → s.ue = [] → c.srcSys = true → c.dstSys = true → c.val = none → c.done = 0 → c.len ≤ 4096 →
    locate c.src = some (.local_ k, e) → c.src + c.len ≤ e → locate c.dst = some (.local_ l, f) → c.dst + c.len ≤ f →
    c.src + c.len ≤ c.dst ∨ c.dst + c.len ≤ c.src →
    ∃ q, exec (.dmaBurst d) s = next q ∧ (∀ i, i < c.len → readByte q (c.dst + i) = readByte s (c.src + i)) ∧
      (∀ a, a < c.dst ∨ c.dst + c.len ≤ a → readByte q a = readByte s a)) ∧
  (∀ (n : Fin 8) (cause : BitVec 3) (c : DmaCmd) (s : State), n.val < 7 → cause ∈ ([1, 2, 3, 4] : List (BitVec 3)) →
    chanNext s n.val = some c → c.srcSys = false → c.val = none →
    ∃ q, exec (.dmaRequestFailure n cause false) s = next q ∧ (chanAt q n.val).halted = true ∧
      (chanAt q n.val).cause = cause.toNat ∧ (chanAt q n.val).addr = BitVec.ofNat 64 (c.src + burstOff c) ∧
      (chanAt q n.val).active = none) ∧
  (∀ (n : Fin 7) (v : Word) (s : State), v.getLsbD 0 = true → ∃ q, exec (.dmaResume n v) s = next q ∧
    (chanAt q n.val).halted = false ∧ (chanAt q n.val).queue = (chanAt s n.val).queue) ∧
  (∀ (n : Fin 7) (v : Word) (s : State), v.getLsbD 1 = true → (chanAt s n.val).halted = true →
    ∃ q, exec (.dmaFlush n v) s = next q ∧ (chanAt q n.val).halted = false ∧ (chanAt q n.val).queue = []) ∧
  (∀ (v : Word) (s : State), (v.getLsbD 0 = true → ∃ q, exec (.dmaCtlEnWrite v) s = next q ∧ q.dma.en = true) ∧
    (v.getLsbD 0 = false → s.dma.en = true → ∃ q, exec (.dmaCtlEnWrite v) s = next q ∧ q.dma.en = false ∧
      ∀ n, n < 7 → (chanAt q n).queue = [] ∧ (chanAt q n).active = none)) ∧
  (∀ (v : Word) (s : State), v.getLsbD 1 = true → v.getLsbD 0 = s.dma.en → s.dma.burstOn = false →
    s.purse.waiting.any (fun r => r.src == 7) = false →
    ∃ q, exec (.dmaBurstRequest v) s = next q ∧ q.dma.burst = true ∧ q.purse.waiting = s.purse.waiting ++
      [{ src := 7, tokens := 5, who := 0, made := s.mono }])

/-- BLOCK_ARM arms a buffer of a mailbox that is not full, BLOCK_CANCEL empties a mailbox, and a task's block that fits goes to the oldest armed buffer (R362, R363). -/
def Claims.Mailboxes : Prop :=
  (∀ (ring : Fin 16) (c : Cmd) (s : State), atRing s ring 0x38 c → clean c [~~~0, 0x3F_FFFF_FFFF] →
    (opnd c 1).toNat + bits (opnd c 2) 31 0 ≤ 2 ^ 64 →
    (vget s.host.mailboxes (bits (opnd c 2) 37 32) []).length < 16 →
    ∃ q, exec (.blockArm ring) s = next q ∧ vget q.host.mailboxes (bits (opnd c 2) 37 32) [] =
      vget s.host.mailboxes (bits (opnd c 2) 37 32) [] ++
        [{ cmd := c, addr := opnd c 1, len := bits (opnd c 2) 31 0 }]) ∧
  (∀ (ring : Fin 16) (c : Cmd) (s : State), atRing s ring 0x39 c → clean c [0x3F] →
    (∀ a ∈ vget s.host.mailboxes (bits (opnd c 1) 5 0) [], a.cmd ≠ c) →
    ∃ q l k, exec (.blockCancel ring) s = next q ∧ vget q.host.mailboxes (bits (opnd c 1) 5 0) [] = [] ∧
      k = (vget s.host.mailboxes (bits (opnd c 1) 5 0) []).length ∧
      q.host.finished = s.host.finished ++ l ++
        [{ cmd := c, status := 0, result0 := BitVec.ofNat 64 k, result1 := 0 }]) ∧
  (∀ (m : MarketId) (r : SysReq) (a b n k : Nat) (buf : Armed) (rest : List Armed) (s : State), reqFor s m 1 = some r →
    marketOf r.stall = m → s.ue = [] → transfers s 6 → marketRange r r.arg.toNat 24 = some a →
    marketRange r (readWord s a).toNat n = some b → readWord s (a + 8) = BitVec.ofNat 64 (n + k * 2 ^ 17) →
    8 ≤ n → n ≤ 65536 → n % 8 = 0 → k < 64 → vget s.host.mailboxes k [] = buf :: rest → n ≤ buf.len →
    knowsCmd s buf.cmd = true →
    ∃ q, exec (.sendBlock m) s = next q ∧ vget q.host.mailboxes k [] = rest ∧
      q.host.posted = s.host.posted ++ [.write buf.addr.toNat (readBytes s b n)] ∧
      q.markets[m].sysQueue = dropFirst (fun x => x == r) s.markets[m].sysQueue ∧
      ∃ w, q.host.finished = s.host.finished ++
        [{ cmd := buf.cmd, status := 0, result0 := BitVec.ofNat 64 n, result1 := w }])

/-! ### Operating mode and debugging (R20, R62 to R74) -/

/-- ARM and STOP complete at once where there is nothing to change, ARM without a project with NO_PROJECT, and otherwise ARM, DISARM, STOP and RUN wait for the first base tick boundary at least 2 us later (R63, R64, R82). -/
def Claims.ModeCommands : Prop :=
  (∀ (ring : Fin 16) (c : Cmd) (s : State), alone s → s.ctl.mode ≠ .held →
    (atRing s ring 0x08 c → clean c [] →
      (s.ctl.mode ≠ .stop → ∃ q, exec (.arm ring) s = next q ∧ answered s q c 0 0 0) ∧
      (s.ctl.mode = .stop → s.project.loaded = false → ∃ q, exec (.arm ring) s = next q ∧ answered s q c 0x10 0 0) ∧
      (s.ctl.mode = .stop → s.project.loaded = true → ∃ q, exec (.arm ring) s = next q ∧ waitsFor s q c .arm)) ∧
    (atRing s ring 0x09 c → clean c [] → ∃ q, exec (.disarm ring) s = next q ∧ waitsFor s q c .disarm) ∧
    (atRing s ring 0x0B c → clean c [] →
      (s.ctl.mode = .stop → ∃ q, exec (.stopCommand ring) s = next q ∧ answered s q c 0 0 0) ∧
      (s.ctl.mode ≠ .stop → ∃ q, exec (.stopCommand ring) s = next q ∧ waitsFor s q c .stop)) ∧
    (atRing s ring 0x0A c → clean c [3] → ∀ k, startKind (bits (opnd c 1) 1 0) = some k →
      (runRefusal s k = 0 → sleepers s = [] → ∃ q, exec (.runCommand ring) s = next q ∧ waitsFor s q c (.run k)) ∧
      (runRefusal s k ≠ 0 → ∃ q, exec (.runCommand ring) s = next q ∧ answered s q c (runRefusal s k) 0 0))) ∧
  (∀ (ring : Fin 16) (c : Cmd) (s : State), alone s → s.ctl.mode = .held →
    (atRing s ring 0x08 c → clean c [] → ∃ q, exec (.arm ring) s = next q ∧ answered s q c 6 0 0) ∧
    (atRing s ring 0x09 c → clean c [] → ∃ q, exec (.disarm ring) s = next q ∧ answered s q c 6 0 0) ∧
    (atRing s ring 0x0B c → clean c [] → ∃ q, exec (.stopCommand ring) s = next q ∧ answered s q c 6 0 0))

/-- At its boundary a waiting ARM sets ARMED, DISARM clears it and stops, STOP stops the project, and an accepted RUN starts it; the command leaves the waiting ones (R62 to R66, R82). A Stall is awake 10 us after its grant (R20). -/
def Claims.ModeEffects : Prop :=
  (∀ (w : ModeWait) (s : State), nextEffect s = some w → s.clock.set = true → s.power.loss = none → s.power.inReset = none →
    effectBoundary s (w.ready.getD 0) = nextBoundary s.clock → alone s →
    (w.action = .arm → s.ctl.mode = .stop → s.project.loaded = true →
      ∃ q, exec .modeEffect s = next q ∧ q.ctl.armed = true ∧ q.ctl.mode = .stop) ∧
    (w.action = .disarm → s.ctl.mode ≠ .held →
      ∃ q, exec .modeEffect s = next q ∧ q.ctl.armed = false ∧ q.ctl.mode = .stop) ∧
    (w.action = .stop → s.ctl.mode = .run ∨ s.ctl.mode = .hold →
      ∃ q, exec .modeEffect s = next q ∧ q.ctl.mode = .stop ∧ q.ctl.reason = 1 ∧ q.signals = [] ∧ q.trigs = []) ∧
    (w.action = .run .cold → s.ctl.mode = .stop → s.ctl.armed = true →
      ∃ q, exec .modeEffect s = next q ∧ q.ctl.mode = .run ∧ q.ctl.ranSinceReset = true ∧ q.ctl.armed = true)) ∧
  (∀ (k : StallId) (g : Nat) (s : State), s.stalls[k].wakeGrant = some g →
    ∃ q, exec (.stallAwake k) s = next q ∧ q.stalls[k].awake = true ∧ q.stalls[k].wakeGrant = none ∧
      q.mono = max s.mono (g + 10000) ∧ q.purse.use[2] = s.purse.use[2] - 4)

/-- CONTINUE lets a task that a breakpoint froze run on and STEP lets it execute one instruction; a task that is not frozen answers NOT_FROZEN; BREAK_SET fills a slot and BREAK_CLEAR empties the task's slots (R68, R70, R353). -/
def Claims.DebugCommands : Prop :=
  ∀ (ring : Fin 16) (c : Cmd) (id : TaskId) (s : State), alone s → s.ctl.mode ≠ .held →
    id = BitVec.ofNat 7 (bits (opnd c 1) 6 0) → taskOf s id ≠ none →
    (∀ t f, atRing s ring 0x0C c → clean c [0x7F] → taskFrozen s id = true → frozenTill s id = some t →
      (tillAt s t).frozen = some f → f.fault = false → (tillAt s t).waiting = false →
      ∃ q, exec (.continueTask ring) s = next q ∧ answered s q c 0 0 0 ∧
        (tillAt q t).frozen = none ∧ (tillAt q t).passBreak = true ∧ (tillAt q t).regs = (tillAt s t).regs) ∧
    (∀ t f, atRing s ring 0x0D c → clean c [0x7F] → taskFrozen s id = true → frozenTill s id = some t →
      (tillAt s t).frozen = some f → f.fault = false →
      ∃ q, exec (.stepTask ring) s = next q ∧ answered s q c 0 0 0 ∧
        (tillAt q t).stepping = true ∧ (tillAt q t).frozen = some f) ∧
    (atRing s ring 0x0C c → clean c [0x7F] → taskFrozen s id = false →
      ∃ q, exec (.continueTask ring) s = next q ∧ answered s q c 0x16 0 0) ∧
    (∀ i, atRing s ring 0x0E c → clean c [0xFFF_FFFF] → codeAddress s (entryOf s id).stall (bits (opnd c 1) 27 8) = true →
      breakSlot s (entryOf s id).stall id (BitVec.ofNat 20 (bits (opnd c 1) 27 8)) = some i →
      ∃ q, exec (.breakSet ring) s = next q ∧ answered s q c 0 (BitVec.ofNat 64 i) 0 ∧
        (i < 4 → vget q.stalls[(entryOf s id).stall].bps i none = some
          ⟨id, BitVec.ofNat 20 (bits (opnd c 1) 27 8), (opnd c 1).getLsbD 7⟩)) ∧
    (atRing s ring 0x0F c → clean c [0xFFF_FF7F] →
      ∃ q v, exec (.breakClear ring) s = next q ∧ answered s q c 0 v 0 ∧
        ∀ b, some b ∈ q.stalls[(entryOf s id).stall].bps.toList →
          ¬ (b.task = id ∧ b.addr = BitVec.ofNat 20 (bits (opnd c 1) 27 8)))

/-- TASK_STATUS and DBG_STATE give the host their records, and TASK_CLEAR sets the clearable counts of a task to 0 and leaves the others (R73, R74, R354). -/
def Claims.TaskRecords : Prop :=
  ∀ (ring : Fin 16) (c : Cmd) (x : Task) (s : State), taskOf s (BitVec.ofNat 7 (bits (opnd c 1) 6 0)) = some x →
    (atRing s ring 0x10 c → clean c [0x7F, ~~~0] → (opnd c 2).toNat % 64 = 0 → (opnd c 2).toNat + 64 ≤ 2 ^ 64 → transfers s 0 →
      ∃ q, exec (.taskStatus ring) s = next q ∧ answered s q c 0 0 0 ∧
        q.host.posted = s.host.posted ++ [.write (opnd c 2).toNat (taskRecord s x)]) ∧
    (atRing s ring 0x11 c → clean c [0x7F] →
      ∃ q, exec (.taskClear ring) s = next q ∧ answered s q c 0 0 0 ∧
        taskOf q x.e.id = some { x with ovrcnt := 0, hskip := 0, faultcnt := 0, maxexec := 0, maxdisp := 0 }) ∧
    (atRing s ring 0x12 c → clean c [0x7F, ~~~0] → (opnd c 2).toNat % 64 = 0 → (opnd c 2).toNat + 320 ≤ 2 ^ 64 → transfers s 0 →
      taskFrozen s x.e.id = true →
      ∃ q, exec (.dbgState ring) s = next q ∧ answered s q c 0 0 0 ∧
        q.host.posted = s.host.posted ++ [.write (opnd c 2).toNat (debugRecord s x)])

/-! ### Watchdog and fatal errors (R409 to R422, R434 to R437) -/

/-- A key pair served between WOPEN and EXPIRE begins a new period and is counted, a wrong key or a service too early fails with its cause and starts the hard timer (R410, R411, R416, R418). -/
def Claims.WatchdogServices : Prop :=
  ∀ (v : Word) (b : Bool) (s : State), wdgRuns s = true → bit s.wdg.cfg 2 = false → bit s.wdg.cfg 3 = !b →
    (bits v 15 0 = 0x5A3C → s.wdg.key1 = false →
      exec (.wdgSvc v b) s = next { s with wdg := { s.wdg with key1 := true } }) ∧
    (bits v 15 0 = 0xC3A5 → s.wdg.key1 = true → wdgOpen s ≤ wdgCount s → wdgCount s < wdgExpire s →
      ∃ q, exec (.wdgSvc v b) s = next q ∧ q.wdg.svccnt = (s.wdg.svccnt + 1) % 2 ^ 64 ∧ q.wdg.base = 0 ∧
        q.wdg.since = s.mono ∧ q.wdg.key1 = false ∧ q.wdg.expired = false ∧ q = { s with wdg := q.wdg }) ∧
    (bits v 15 0 = 0xC3A5 → s.wdg.key1 = true → wdgCount s < wdgOpen s →
      ∃ q, exec (.wdgSvc v b) s = next q ∧ q.wdg.expired = true ∧ q.wdg.expCause = 2 ∧ q.wdg.hard = some s.mono) ∧
    (bits v 15 0 ≠ 0x5A3C → bits v 15 0 ≠ 0xC3A5 →
      ∃ q, exec (.wdgSvc v b) s = next q ∧ q.wdg.expired = true ∧ q.wdg.expCause = 3 ∧ q.wdg.hard = some s.mono) ∧
    (exec (.wdgSvc v (!b)) s = next { s with wdg := { s.wdg with foreign := true } })

/-- A count that reaches EXPIRE in a period that was not complete fails with cause 1; check-ins of their owners satisfy enabled slots, and the window of an unfinished period lets it run on; the erase limit lets the count run again (R410, R412, R413, R420, R437). -/
def Claims.WatchdogPeriods : Prop :=
  ∀ s : State, wdgRuns s = true →
    (s.wdg.susp = none → s.power.loss = none → bit s.wdg.cfg 2 = false ∨
      periodComplete (untilMono (s.wdg.since + (wdgOpen s - s.wdg.base) * 1000) s) = false →
      ∃ q, exec .watchdogExpire s = next q ∧ q.wdg.expired = true ∧
      q.wdg.expCause = 1 ∧ q.wdg.expValid = true ∧ q.wdg.hard = some q.mono ∧
      q.mono = max s.mono (s.wdg.since + (wdgExpire s - s.wdg.base) * 1000)) ∧
    (∀ (ring : Fin 16) (c : Cmd) (k : Nat), atRing s ring 0x80 c → clean c [0x1F] → k = bits (opnd c 1) 4 0 →
      wdgCheckMode s = true → s.wdg.sloten.getLsbD k = true → slotOwner s k = 126 → s.wdg.chk.getLsbD k = false →
      wdgMissing { s with wdg := { s.wdg with chk := s.wdg.chk ||| BitVec.ofNat 32 (2 ^ k) } } (wdgCount s) ≠ 0 →
      ∃ q, exec (.wdgCheckin ring) s = next q ∧ answered s q c 0 0 0 ∧
        q.wdg = { s.wdg with chk := s.wdg.chk ||| BitVec.ofNat 32 (2 ^ k) }) ∧
    (∀ (m : MarketId) (r : SysReq) (k : Nat), reqFor s m 3 = some r → marketOf r.stall = m → k = bits r.arg 4 0 →
      wdgCheckMode s = true → s.wdg.sloten.getLsbD k = true → slotOwner s k = r.task.toNat →
      s.wdg.chk.getLsbD k = false →
      wdgMissing { s with wdg := { s.wdg with chk := s.wdg.chk ||| BitVec.ofNat 32 (2 ^ k) } } (wdgCount s) ≠ 0 →
      ∃ q, exec (.wdgCheckinService m) s = next q ∧
        q.markets[m].sysQueue = dropFirst (fun x => x == r) s.markets[m].sysQueue ∧
        q.wdg = { s.wdg with chk := s.wdg.chk ||| BitVec.ofNat 32 (2 ^ k) }) ∧
    (wdgCheckMode s = true → s.wdg.susp = none → s.power.loss = none → s.wdg.sloten = 0 →
      ∃ q, exec .wdgWindowOpen s = next q ∧ q.wdg = s.wdg ∧
        q.mono = max s.mono (s.wdg.since + (wdgOpen s - s.wdg.base) * 1000)) ∧
    (∀ p, wdgCheckMode s = true → s.wdg.susp = none → s.power.loss = none →
      p = untilMono (s.wdg.since + (wdgOpen s - s.wdg.base) * 1000) s → periodComplete p = true →
      wdgOpen s ≤ wdgCount p → wdgCount p < wdgExpire s → ∃ q, exec .wdgWindowOpen s = next q ∧
        q.wdg.svccnt = (s.wdg.svccnt + 1) % 2 ^ 64 ∧ q.wdg.chk = 0 ∧ q.wdg.base = 0 ∧ q.wdg.since = p.mono) ∧
    (∀ t u, s.nvs.eraseFrom = some t → s.wdg.susp = some u → ∃ q, exec .eraseSuspensionLimit s = next q ∧
      q.wdg.susp = none ∧ q.wdg.since = q.mono ∧ q.mono = max s.mono (t + 10 ^ 9))

/-- The watchdog's control sequences enable, disable and lock it, and a locked watchdog is not disabled (R421). -/
def Claims.WatchdogKeys : Prop :=
  ∀ (v : Word) (s : State),
    (s.wdg.keyFirst = none → bits v 15 0 ∈ [0xE1A7, 0xD15A, 0x10C4] →
      exec (.wdgKey v) s = next { s with wdg := { s.wdg with keyFirst := some (bits v 15 0) } }) ∧
    (s.wdg.keyFirst = some 0xE1A7 → bits v 15 0 = 0x7A1E → bit s.wdg.cfg 2 = false → ∃ q, exec (.wdgKey v) s = next q ∧
      q.wdg.en = true ∧ q.wdg.keyFirst = none ∧ q.wdg.base = 0 ∧ q.wdg.since = s.mono) ∧
    (s.wdg.keyFirst = some 0xD15A → bits v 15 0 = 0xA5D1 → s.wdg.lock = false → s.wdg.expired = false →
      ∃ q, exec (.wdgKey v) s = next q ∧ q.wdg.en = false ∧ q.wdg.keyFirst = none) ∧
    (s.wdg.keyFirst = some 0xD15A → bits v 15 0 = 0xA5D1 → s.wdg.lock = true →
      ∃ q, exec (.wdgKey v) s = next q ∧ q.wdg.en = s.wdg.en ∧ q.wdg.cfgbad = true) ∧
    (s.wdg.keyFirst = some 0x10C4 → bits v 15 0 = 0xC401 →
      exec (.wdgKey v) s = next { s with wdg := { s.wdg with lock := true, keyFirst := none } })

/-! ### The Purse and the registers that only clear or select (R19, R115 to R118, R426 to R436, R408) -/

/-- The Purse grants its head request when the free tokens cover it, and withdraws one whose timeout has come, counting both; the budget is set up to STRAP and a larger one refused (R426, R428, R430, R435). -/
def Claims.PurseRequests : Prop :=
  (∀ (r : PurseReq) (s : State), purseHead s.purse.waiting = some r → s.purse.refusing = false →
    r.tokens ≤ purseFree s.purse → ∃ q, exec .purseGrant s = next q ∧ q.purse.grants = (s.purse.grants + 1) % 2 ^ 64 ∧
      q.purse.waiting = s.purse.waiting.filter (fun x => x != r) ∧
      (r.src < 8 → vget q.purse.use r.src 0 = vget s.purse.use r.src 0 + r.tokens) ∧
      q.mono = max s.mono (r.made + 150) ∧ (r.src = 7 → q.dma.burstOn = true)) ∧
  (∀ (r : PurseReq) (s : State), minBy (fun (r : PurseReq) => r.made + purseTimeout r.src) s.purse.waiting = some r →
    s.purse.refusing = false → r.src = 3 ∨ r.src = 7 →
    ∃ q, exec .purseTimeout s = next q ∧ q.errs.purse = true ∧ q.purse.waiting = s.purse.waiting.filter (fun x => x != r) ∧
      (s.purse.fails < 2 ^ 32 → q.purse.fails = min (s.purse.fails + 1) (2 ^ 32 - 1)) ∧
      q.mono = max s.mono (r.made + purseTimeout r.src) ∧
      (r.src = 3 → q.field.nogrant = true) ∧ (r.src = 7 → q.dma.burstFail = true)) ∧
  (∀ (v : Word) (s : State),
    (8 ≤ bits v 5 0 → bits v 5 0 ≤ s.purse.strap →
      exec (.prsBudgetWrite v) s = next { s with purse := { s.purse with tokens := bits v 5 0 } }) ∧
    (s.purse.strap < bits v 5 0 → exec (.prsBudgetWrite v) s = next { s with purse := { s.purse with budref := true } }) ∧
    (v.getLsbD 0 = true → exec (.prsCntclr v) s = next { s with purse := { s.purse with fails := 0, maxwait := 0 } }))

/-- Counters clear when their bit is written 1: the SRAM error counts, the counts of a selected Stall, and the redundancy counts; a Market clock is taken only while its Stalls are held; RAEN and RPEN follow SPCTL, and an access to no register is reported (R19, R115, R118, R408, R436, R547). -/
def Claims.SelectionRegisters : Prop :=
  (∀ (v : Word) (s : State), v.getLsbD 0 = true →
    (∃ q, exec (.sysEcntclr v) s = next q ∧ q.errs = { s.errs with ces := Vector.replicate 68 0, ues := Vector.replicate 68 0 } ∧
      q.power.rstKey = false) ∧
    (∃ q, exec (.redCntclr v) s = next q ∧ q.red.cmpok = 0 ∧ q.red.cmpbad = 0 ∧ q.red.unsettled = 0 ∧ q.red.takeovers = 0 ∧
      q.red.detach = 0 ∧ (∀ l : Fin 2, q.red.lanes[l].errs = 0) ∧ q.red.role = s.red.role)) ∧
  (∀ (v : Word) (s : State), ∃ q, exec (.stlCntclr v) s = next q ∧ (∀ k : StallId,
    (v.getLsbD k.val = true → q.stalls[k].sprun = 0 ∧ q.stalls[k].sphit = 0 ∧ q.stalls[k].rply = 0 ∧ q.stalls[k].spflt = 0) ∧
    (v.getLsbD k.val = false → q.stalls[k] = s.stalls[k]) ∧ q.stalls[k].tills = s.stalls[k].tills)) ∧
  (∀ (m : MarketId) (v : Word) (s : State),
    (marketHeld s m = true → ∃ q, exec (.mktClkWrite m v) s = next q ∧ q.markets[m].clk = BitVec.ofNat 64 (bits v 1 0)) ∧
    (marketHeld s m = false → exec (.mktClkWrite m v) s = next s)) ∧
  (∀ (v : Word) (s : State), ∃ q, exec (.spctlWrite v) s = next q ∧ q.spctl = BitVec.ofNat 64 (bits v 1 0) ∧
    (v.getLsbD 0 = false → ∀ t, (tillAt s t).dispatched = false → (tillAt q t).area ≠ .speculative)) ∧
  (∀ (off : BitVec 18) (v : Word) (b : Bool) (s : State), readReg s off.toNat = none →
    ∃ q, exec (.registerWrite off v b) s = next q ∧ q.errs.accbar = true ∧ q = { s with errs := q.errs }) ∧
  (∀ (v : Word) (b : Bool) (s : State), s.wdg.en = false → s.wdg.lock = false → bits v 23 0 ≠ 0 →
    bits v 23 0 < bits v 47 24 → exec (.registerWrite 0x2008 v b) s =
      next { s with wdg := { s.wdg with win := BitVec.ofNat 64 (bits v 47 0) } }) ∧
  (∀ (v : Word) (b : Bool) (s : State), s.wdg.en = true ∨ s.wdg.lock = true →
    exec (.registerWrite 0x2008 v b) s = next { s with wdg := { s.wdg with cfgen := true } })

/-- The scrubber moves on by one word, counts a corrected error at its owner, and leaves a sound word alone (R26, R436). -/
def Claims.Scrubbing : Prop :=
  ∀ s : State, wordBad s (rowAddr sramRows (8 * (s.scrubPos % sramWords))) = false →
    (exec (.scrub 0) s = next { s with scrubPos := (s.scrubPos + 1) % sramWords }) ∧
    (∃ q k, exec (.scrub 1) s = next q ∧ k = ownerOf (rowAddr sramRows (8 * (s.scrubPos % sramWords))) ∧
      q.errs.ce = true ∧ q.scrubPos = (s.scrubPos + 1) % sramWords ∧
      (k < 68 → vget s.errs.ces k 0 < 2 ^ 32 → vget q.errs.ces k 0 = min (vget s.errs.ces k 0 + 1) (2 ^ 32 - 1)) ∧
      ∀ a, readByte q a = readByte s a)

/-! ### Power and resets (R80, R416, R434, R438, R440, R492, R526 to R540) -/

/-- A power loss is declared once: the backup domain is locked, the Purse refuses, and a project in RUN or HOLD stops with REASON POWERFAIL; 2 ms later the commit deadline is over; the save goes into an erased area (R80, R439, R492, R526). -/
def Claims.PowerLoss : Prop :=
  (∀ (src : Fin 5) (s : State), s.power.loss = none → s.power.inReset = none →
    ∃ q l, exec (.powerLoss src) s = next q ∧ q.power.loss = some l ∧ l.tpf = localT s ∧ l.source = src.val ∧
      l.saveOk = false ∧ q.power.railsGood = false ∧ q.purse.refusing = true ∧ q.rtc.lockout = true ∧ q.rtc.write = none ∧
      (s.ctl.mode ≠ .held → q.ctl.mode = .stop ∧ q.ctl.reason = 3)) ∧
  (∀ (src : Fin 5) (s : State), s.power.loss ≠ none ∨ s.power.inReset ≠ none → exec (.powerLoss src) s = next s) ∧
  (∀ (n : Nat) (s : State), s.ctl.pfDeadline = some n → ∃ q, exec .saveCommitDeadline s = next q ∧
    q.ctl.pfDeadline = none ∧ q.mono = max s.mono n) ∧
  (∀ (c n a : Nat) (s : State), s.nvs.saving = some (c, n) → (∀ t, isLive (tillAt s t) = false) → flashRunning s = false →
    s.power.wanted = none → saveArea s = some a → ∃ q, exec .retentiveSave s = next q ∧ q.nvs.saving = none ∧
      vget q.nvs.saves a none = some (dueSave c n s) ∧
      ∀ l, s.power.loss = some l → ∃ k, q.power.loss = some k ∧ k.saveOk = (dueSave c n s).ended)

/-- The rows that enter a reset do so with their cause, at their instant, and leave SRAM zero; the software key pair requests one, and RESET_N high only ends the level (R416, R434, R527 to R533, R540). -/
def Claims.ResetEntries : Prop :=
  (∀ (l : Machine.PowerLoss) (s : State), s.power.loss = some l → s.power.aonLost = false →
    ∃ q, exec .powerLossReset s = next q ∧ inResetAs q .brownout ∧ q.power.pfseen = true ∧ q.power.saveok = l.saveOk) ∧
  (∀ s : State, s.power.inReset = none → s.power.aonLost = false → s.errs.fatalAt = none →
    (∃ q, exec (.railBelowReset false) s = next q ∧ inResetAs q .brownout ∧ q.power.railsGood = false) ∧
    (∃ q, exec (.railBelowReset true) s = next q ∧ inResetAs q .poweron ∧ q.power.resets = 0)) ∧
  (∀ s : State, plainReset s → s.power.inReset = none →
    ∃ q, exec (.resetPin true) s = next q ∧ inResetAs q .pin ∧ q.power.resetNLow = true ∧ q.mono = s.mono + 1000) ∧
  (∀ s : State, exec (.resetPin false) s =
    next { s with power := { s.power with resetNLow := false, resetNHighAt := s.mono } }) ∧
  (∀ (n : Nat) (s : State), plainReset s → s.wdg.hard = some n → ∃ q, exec .hardTimerEnd s = next q ∧
    inResetAs q .watchdog ∧ q.mono = max s.mono (n + bits s.wdg.cfg 12 5 * 1000000)) ∧
  (∀ (n : Nat) (s : State), s.power.aonLost = false → s.power.loss = none → s.errs.fatalAt = some n →
    ∃ q, exec .fatalResetTimer s = next q ∧ inResetAs q .fatal ∧ q.mono = max s.mono (n + 40000) ∧
      q.errs.fatalCause = s.errs.fatalCause) ∧
  (∀ (c : ResetCause) (n : Nat) (s : State), plainReset s → s.power.wanted = some (c, some n) →
    ∃ q, exec .resetSaveDeadline s = next q ∧ inResetAs q c ∧ q.mono = max s.mono n) ∧
  (∀ (c : Fin 5) (s : State), s.errs.fatalAt = none → s.power.inReset = none → s.red.role = .solo →
    exec (.fatalError c) s = next { s with errs := { s.errs with
      fatalCause := c.val + 1, fatalValid := true, fatalAt := some s.mono } }) ∧
  (∀ (v : Word) (s : State),
    (bits v 15 0 = 0xB007 → exec (.sysRstctl v) s = next { s with power := { s.power with rstKey := true } }) ∧
    (bits v 15 0 = 0x700B → s.power.rstKey = true → plainReset s → s.power.inReset = none → s.power.wanted = none →
      s.ctl.mode = .stop → ∃ q, exec (.sysRstctl v) s = next q ∧ inResetAs q .software) ∧
    (bits v 15 0 = 0x700B → s.power.rstKey = true → s.power.loss = none → s.power.inReset = none → s.power.wanted = none →
      s.ctl.mode = .run → ∃ q, exec (.sysRstctl v) s = next q ∧ q.power.wanted = some (.software, none) ∧
        q.ctl.mode = .run ∧ q.power.inReset = none))

/-- The release of a reset takes the straps of a power-on reset and shows the previous cause; PLLs that do not lock start again; READY ends start-up in STOP, or in recovery mode without a firmware slot that boots; the backup domain takes its reset values at its own power-up (R423, R435, R440, R513, R532 to R538). -/
def Claims.StartUp : Prop :=
  (∀ (p : BitVec 3) (b : BitVec 4) (r : InReset) (s : State), s.power.inReset = some r → s.power.resetNLow = false →
    ∃ q, exec (.resetRelease p false b) s = next q ∧ q.power.inReset = none ∧ q.power.t0 = q.mono ∧
      q.mono = max s.mono (releaseAt r s) ∧ q.rtc.lockout = false ∧ q.errs.wdgprev = (r.cause == .watchdog) ∧
      q.errs.fatalprev = (r.cause == .fatal) ∧
      (r.cause = .poweron → q.purse.strap = strapTokens p.toNat ∧ q.purse.tokens = strapTokens p.toNat ∧
        q.power.brdid = b.toNat)) ∧
  (∀ s : State, starting s = true → ∃ q, exec .pllRetry s = next q ∧ q.power.pllUnlocked = true ∧
    q.power.rstoutLow = true ∧ q.mono = max s.mono (s.power.t0 + 10000000) ∧ q.power.t0 = q.mono) ∧
  (∀ s : State, starting s = true → (bootSlot s).1 = none → ∃ q, exec (.ready 0) s = next q ∧
    q.nvs.recovery.active = true ∧ q.power.ready = s.power.ready) ∧
  (∀ (k : Nat) (s : State), starting s = true → (bootSlot s).1 = some k → ∃ q, exec (.ready 0) s = next q ∧
    q.power.ready = true ∧ q.power.done = true ∧ q.power.fail = 0 ∧ q.ctl.mode = .stop) ∧
  (∀ (k : Nat) (f : BitVec 6) (s : State), starting s = true → (bootSlot s).1 = some k → f ≠ 0 →
    ∃ q, exec (.ready f) s = next q ∧ q.power.done = true ∧ q.power.fail = f.toNat) ∧
  (∀ (b : Bool) (s : State), exec (.backupSwitchover b) s = next { s with rtc := { s.rtc with onVbat := b } }) ∧
  (∀ (n : Nat) (s : State), s.power.inReset = some { cause := .poweron, entered := n } →
    exec .backupPowerUp s = next { s with rtc := { Rtc.reset with lockout := s.rtc.lockout, onVbat := s.rtc.onVbat } })

/-! ### The backup domain and the calendar (R438 to R451, R467) -/

/-- An edge adds 1 to the count, 0 or 2 at an adjusting edge, nothing while a shift withholds it; a pending write takes effect at an edge; the register writes and the one-second comparison send theirs (R441 to R447). -/
def Claims.RtcCounting : Prop :=
  (∀ s : State, s.rtc.edges + 1 < 32768 → ∃ q, exec .crystalEdge s = next q ∧ q.rtc.edges = s.rtc.edges + 1 ∧
    q.rtc.opsec = s.rtc.opsec ∧
    (0 < s.rtc.shrem → q.rtc.count = s.rtc.count ∧ q.rtc.shrem = s.rtc.shrem - 1) ∧
    (s.rtc.shrem = 0 → adjusting s.rtc = false → q.rtc.count = (s.rtc.count + 1) % 2 ^ 48) ∧
    (s.rtc.shrem = 0 → adjusting s.rtc = true → 0 < s.rtc.cal → q.rtc.count = (s.rtc.count + 2) % 2 ^ 48) ∧
    (s.rtc.shrem = 0 → adjusting s.rtc = true → s.rtc.cal < 0 → q.rtc.count = s.rtc.count % 2 ^ 48)) ∧
  (∀ s : State, s.rtc.edges = 32767 → ∃ q, exec .crystalEdge s = next q ∧ q.rtc.edges = 0 ∧
    q.rtc.opsec = if s.rtc.onVbat then s.rtc.opsec else (s.rtc.opsec + 1) % 2 ^ 40) ∧
  (∀ (sec src : Nat) (s : State), s.rtc.write = some (.setsec sec src) → ∃ q, exec .rtcWriteApply s = next q ∧
    q.rtc.count = sec * 32768 % 2 ^ 48 ∧ q.rtc.tvalid = true ∧ q.rtc.wseq = (s.rtc.wseq + 1) % 2 ^ 16 ∧ q.rtc.shrem = 0 ∧
    q.rtc.write = none) ∧
  (∀ (c : Int) (s : State), s.rtc.write = some (.cal c) → ∃ q, exec .rtcWriteApply s = next q ∧ q.rtc.cal = c ∧
    q.rtc.write = none) ∧
  (∀ (v : Word) (s : State), s.rtc.lockout = false → s.rtc.write = none → s.rtc.shrem = 0 →
    exec (.rtcSetsecWrite v) s = next { s with rtc := { s.rtc with write := some (.setsec (bits v 32 0) 0) } } ∧
    (bits v 15 0 ≠ 0x8000 →
      exec (.rtcShiftWrite v) s = next { s with rtc := { s.rtc with write := some (.shift (sbits v 15 0)) } }) ∧
    (-537 ≤ sbits v 10 0 → sbits v 10 0 ≤ 537 →
      exec (.rtcCalWrite v) s = next { s with rtc := { s.rtc with write := some (.cal (sbits v 10 0)) } })) ∧
  (∀ (v : Word) (s : State), s.rtc.lockout = true →
    exec (.rtcSetsecWrite v) s = next { s with rtc := { s.rtc with lockdisc := true } }) ∧
  (∀ s : State, s.rtc.sync = true → s.clock.state = 2 → s.rtc.write = none → s.rtc.lockout = false →
    32767 < ((nowT s * 32768 / 10 ^ 9 : Nat) - (s.rtc.count : Int) : Int).natAbs →
    ∃ q, exec .rtcSyncCheck s = next q ∧ q.rtc.write = some (.setsec (nowT s * 32768 / 10 ^ 9 / 32768) 1))

/-- The RTC commands: RTC_GET returns count, operating seconds and power cycles, the writes go toward the backup domain or are turned away with RTC_BUSY, and the conversions return the date, the count or their error (R443 to R451, R467). -/
def Claims.RtcCommands : Prop :=
  ∀ (ring : Fin 16) (c : Cmd) (s : State),
    (atRing s ring 0x40 c → clean c [] → ∃ q, exec (.rtcGet ring) s = next q ∧
      answered s q c 0 (rtcCountWord s.rtc) (BitVec.ofNat 64 s.rtc.opsec ||| (BitVec.ofNat 64 s.rtc.pwrcyc <<< 40))) ∧
    (atRing s ring 0x41 c → clean c [0x1_FFFF_FFFF] → s.rtc.lockout = false →
      (s.rtc.write = none → ∃ q, exec (.rtcSetsec ring) s = next q ∧
        q.rtc.write = some (.setsec (bits (opnd c 1) 32 0) 0) ∧ (cmdRing q ring.val).busy = some c) ∧
      (s.rtc.write ≠ none → ∃ q, exec (.rtcSetsec ring) s = next q ∧ answered s q c 0xC2 0 0)) ∧
    (∀ v, atRing s ring 0x42 c → clean c [~~~0, 0xFFFF_FFFF] → bits (opnd c 1) 56 42 = 0 → s.rtc.lockout = false →
      s.rtc.write = none → dateToCount (opnd c 1) (sbits (opnd c 2) 31 0) = .ok v →
      ∃ q, exec (.rtcSetdate ring) s = next q ∧ q.rtc.write = some (.setsec (v.toNat / 32768) 2)) ∧
    (atRing s ring 0x43 c → clean c [0xFFFF] → bits (opnd c 1) 15 0 ≠ 0x8000 → s.rtc.lockout = false →
      s.rtc.write = none → s.rtc.shrem = 0 → ∃ q, exec (.rtcShift ring) s = next q ∧ answered s q c 0 0 0 ∧
        q.rtc.write = some (.shift (sbits (opnd c 1) 15 0))) ∧
    (atRing s ring 0x44 c → clean c [0x7FF] → -537 ≤ sbits (opnd c 1) 10 0 → sbits (opnd c 1) 10 0 ≤ 537 →
      s.rtc.lockout = false → s.rtc.write = none → ∃ q, exec (.rtcCal ring) s = next q ∧ answered s q c 0 0 0 ∧
        q.rtc.write = some (.cal (sbits (opnd c 1) 10 0))) ∧
    (atRing s ring 0x45 c → clean c [0xFFFF_FFFF_FFFF, 0xFFFF_FFFF] →
      (0 ≤ (bits (opnd c 1) 47 0 : Int) + sbits (opnd c 2) 31 0 * 32768 →
        (bits (opnd c 1) 47 0 : Int) + sbits (opnd c 2) 31 0 * 32768 < 2 ^ 48 →
        ∃ q, exec (.calToDate ring) s = next q ∧ answered s q c 0
          (dateOf ((bits (opnd c 1) 47 0 : Int) + sbits (opnd c 2) 31 0 * 32768).toNat) 0) ∧
      ((bits (opnd c 1) 47 0 : Int) + sbits (opnd c 2) 31 0 * 32768 < 0 →
        ∃ q, exec (.calToDate ring) s = next q ∧ answered s q c 0xC1 0 0)) ∧
    (atRing s ring 0x46 c → clean c [~~~0, 0xFFFF_FFFF] →
      (dateGood (opnd c 1) = false → ∃ q, exec (.dateToCal ring) s = next q ∧ answered s q c 0xC0 0 0) ∧
      (∀ v, dateToCount (opnd c 1) (sbits (opnd c 2) 31 0) = .ok v →
        ∃ q, exec (.dateToCal ring) s = next q ∧ answered s q c 0 v 0))

/-! ### Flash (R470 to R473) -/

/-- A program only clears bits of its bytes and returns its 2 tokens; an erase makes every byte of its sector 16#FF, counts it, and returns its 6 tokens; nothing else of memory changes (R470 to R473, R516). -/
def Claims.FlashOperations : Prop :=
  (∀ (j : FlashJob) (off : Nat) (bs : List Byte) (s : State), s.nvs.job = some j → j.op = .program off bs →
    j.granted = true → j.user = .other → s.nvs.queue = [] →
    ∃ q, exec (.flashProgramDone true) s = next q ∧ q.nvs.job = none ∧
      (∀ i b, bs[i]? = some b → readByte q (flashBase + off + i) = readByte s (flashBase + off + i) &&& b) ∧
      (∀ a, a < flashBase + off ∨ flashBase + off + bs.length ≤ a → readByte q a = readByte s a) ∧
      q.purse.use[5] = s.purse.use[5] - 2) ∧
  (∀ (j : FlashJob) (n : Nat) (s : State), s.nvs.job = some j → j.op = .erase n → j.granted = true → j.user = .other →
    s.nvs.queue = [] →
    ∃ q, exec .flashEraseDone s = next q ∧ q.nvs.job = none ∧ q.nvs.eraseFrom = none ∧
      (∀ a, flashBase + n * 65536 ≤ a → a < flashBase + (n + 1) * 65536 → readByte q a = 0xFF) ∧
      (∀ a, a < flashBase + n * 65536 ∨ flashBase + (n + 1) * 65536 ≤ a → readByte q a = readByte s a) ∧
      (∃ k, (n, k + 1) ∈ q.nvs.eraseCounts) ∧ q.purse.use[6] = s.purse.use[6] - 6 ∧ q.wdg.susp = none)

/-! ### Time and time triggers (R44, R257, R263 to R284, R352) -/

/-- Base tick boundary n fires when T reaches n x 31,250: TICKNUM becomes n, in RUN every cyclic task with (n - PHASE) MOD PERIOD = 0 is sent its release signal, and the receive windows of its entries become due; nothing fires while the clock is not set (R44, R47, R273, R274, R287). -/
def Claims.TickBoundaries : Prop :=
  (∀ s : State, s.clock.set = true → s.power.inReset = none → s.ctl.mode = .run → s.red.handover = none →
    ∃ q, exec .tickBoundary s = next q ∧ q.clock.ticknum = boundaryNext s ∧ q.clock.firstBoundary = none ∧
      q.signals = s.signals ++ (s.tasks.filter (fun x => !x.e.event && fallsAt x.e.periodM1 x.e.phase (boundaryNext s))).map
        (fun x => { task := x.e.id, tick := boundaryNext s }) ∧
      (∀ (i : Nat) (e : SchedEntry), s.net.sched[i]? = some e → e.rx = true → fallsAt e.periodM1 e.phase (boundaryNext s) = true →
        q.net.sched[i]? = some { e with due := some (boundaryNext s) }) ∧
      q.ctl = s.ctl ∧ q.mem = s.mem) ∧
  (∀ s : State, s.clock.set = false → exec .tickBoundary s = next s)

/-- A comparator that fires sets FIRED, stays armed only with a period, and drives its time output for TARGET 3; an arming write fires late, arms, or is refused with RANGE by the distance TIME - T (R277, R278, R279, R282, R284). -/
def Claims.TimeComparators : Prop :=
  (∀ (n : Fin 64) (s : State), (tcmpAt s n.val).armed = true → s.power.inReset = none →
    ∃ q, exec (.timeComparatorFire n) s = next q ∧ (tcmpAt q n.val).fired = true ∧
      ((tcmpAt s n.val).per = 0 → (tcmpAt q n.val).armed = false ∧ (tcmpAt q n.val).time = (tcmpAt s n.val).time) ∧
      ((tcmpAt s n.val).per ≠ 0 → (tcmpAt q n.val).armed = true) ∧
      (bits (tcmpAt s n.val).ctl 3 1 = 3 → (tcmpAt s n.val).ctl.getLsbD 4 = false →
        q.field.tout0 = (tcmpAt s n.val).ctl.getLsbD 5) ∧
      (bits (tcmpAt s n.val).ctl 3 1 = 3 → (tcmpAt s n.val).ctl.getLsbD 4 = true →
        q.field.tout1 = (tcmpAt s n.val).ctl.getLsbD 5)) ∧
  (∀ (n : Fin 64) (v : Word) (s : State), (tcmpAt s n.val).armed = false → bit (tcmpAt s n.val).ctl 0 = true →
    (0 < ahead s v → ahead s v < 2 ^ 39 → ∃ q, exec (.tcmpTimeWrite n v) s = next q ∧
      tcmpAt q n.val = { tcmpAt s n.val with time := v, armed := true } ∧ q = { s with tcmp := q.tcmp }) ∧
    (2 ^ 39 ≤ ahead s v ∨ ahead s v ≤ -2 ^ 39 → ∃ q, exec (.tcmpTimeWrite n v) s = next q ∧
      tcmpAt q n.val = { tcmpAt s n.val with time := v, range := true } ∧ q = { s with tcmp := q.tcmp }) ∧
    (-2 ^ 39 < ahead s v → ahead s v ≤ 0 → ∃ q, exec (.tcmpTimeWrite n v) s = next q ∧
      (tcmpAt q n.val).fired = true ∧ (tcmpAt q n.val).late = true ∧
      ((tcmpAt q n.val).lateness : Int) = -ahead s v)) ∧
  (∀ (n : Fin 64) (v : Word) (s : State), (tcmpAt s n.val).armed = false → bit (tcmpAt s n.val).ctl 0 = false →
    (∃ q, exec (.tcmpTimeWrite n v) s = next q ∧ tcmpAt q n.val = { tcmpAt s n.val with time := v } ∧
      q = { s with tcmp := q.tcmp }) ∧
    (v.getLsbD 0 = true → bits v 3 1 ≤ 3 → 0 < ahead s (tcmpAt s n.val).time → ahead s (tcmpAt s n.val).time < 2 ^ 39 →
      ∃ q, exec (.tcmpCtlWrite n v) s = next q ∧ (tcmpAt q n.val).armed = true ∧
        (∀ i, i ≤ 12 → (tcmpAt q n.val).ctl.getLsbD i = v.getLsbD i) ∧ q = { s with tcmp := q.tcmp }) ∧
    (v.getLsbD 0 = false → bits v 3 1 ≤ 3 → ∃ q, exec (.tcmpCtlWrite n v) s = next q ∧ (tcmpAt q n.val).armed = false ∧
      (∀ i, i ≤ 12 → (tcmpAt q n.val).ctl.getLsbD i = v.getLsbD i) ∧ q = { s with tcmp := q.tcmp }))

/-- A correction D sets a clock that was not set, steps T by D within JUMPLIM or after the key pair, and otherwise starts a slew of D and leaves T; JREF and STEPPED say which (R265, R268, R274). -/
def Claims.ClockCorrections : Prop :=
  ∀ (v : Word) (b : Bool) (s : State),
    (s.clock.set = false → ∃ q, exec (.tsyAdj v b) s = next q ∧ q.clock.set = true ∧ localT q = localT s + v ∧
      q.clock.firstBoundary = some (nowT q / 31250 + 1)) ∧
    (s.clock.set = true → v.toInt.natAbs ≤ s.clock.jumpLim → ∃ q, exec (.tsyAdj v b) s = next q ∧
      localT q = localT s + v ∧ q.clock.stepped = true ∧ q.clock.slewRem = s.clock.slewRem) ∧
    (s.clock.set = true → s.clock.jumpLim < v.toInt.natAbs → s.clock.keyArm = none →
      ∃ q, exec (.tsyAdj v b) s = next q ∧ localT q = localT s ∧ q.clock.jref = true ∧
        q.clock.slewRem = v.toInt * 2 ^ 40 ∧ q.clock.rate = s.clock.rate) ∧
    (bits v 15 0 = 0xC10C → ∃ q, exec (.tsyKey v) s = next q ∧ q.clock.keyFirst = true ∧ q.clock.keyArm = none ∧
      q = { s with clock := q.clock }) ∧
    (bits v 15 0 = 0x0C1C → s.clock.keyFirst = true → ∃ q, exec (.tsyKey v) s = next q ∧ q.clock.keyArm = some s.mono ∧
      q = { s with clock := q.clock }) ∧
    (∀ t, s.clock.keyArm = some t → ∃ q, exec .forcedStepTimeout s = next q ∧ q.clock.keyArm = none ∧
      q.mono = max s.mono (t + 1000000))

/-- RATE, SLEWMAX and the end of a slew change the rate from then on and never T itself; a snapshot captures T, SEC, NS and F of one instant; SERVOEN cleared with the clock unset sets it from the RTC (R263, R266, R267, R275). -/
def Claims.ClockRates : Prop :=
  ∀ (v : Word) (s : State),
    (∃ q, exec (.tsyRateWrite v) s = next q ∧ q.clock.rate = sbits v 31 0 ∧ localT q = localT s ∧ q.mono = s.mono) ∧
    (1 ≤ bits v 30 0 → bits v 30 0 ≤ 2 ^ 30 → ∃ q, exec (.tsySlewmaxWrite v) s = next q ∧ q.clock.slewMax = bits v 30 0 ∧
      localT q = localT s ∧ q.clock.slewRem = s.clock.slewRem - slewApplied s.clock) ∧
    (s.clock.slewRem ≠ 0 → s.power.inReset = none → ∃ q, exec .slewEnd s = next q ∧ q.clock.slewRem = 0 ∧
      q.clock.rate = s.clock.rate) ∧
    (v.getLsbD 0 = true → ∃ q, exec (.tsySnap v) s = next q ∧ q.clock.snapT = localT s ∧
      q.clock.snapSec = nowT s / 1000000000 ∧ q.clock.snapNs = nowT s % 1000000000 ∧ q.clock.snapFrc = s.clock.f ∧
      localT q = localT s ∧ q = { s with clock := q.clock }) ∧
    (bit s.clock.ctl 0 = true → v.getLsbD 0 = false →
      (s.clock.set = true → ∃ q, exec (.servoenClear v) s = next q ∧ bit q.clock.ctl 0 = false ∧ localT q = localT s ∧
        q = { s with clock := q.clock }) ∧
      (s.clock.set = false → s.power.ready = true → s.rtc.tvalid = true → ∃ q, exec (.servoenClear v) s = next q ∧
        bit q.clock.ctl 0 = false ∧ q.clock.set = true ∧ localT q = wordOfInt (rtcNs s.rtc)))

/-- TIME_CONFIG takes effect at once while PTP runs on no port, else at the next Sync interval; TIME_STATUS gives the host its record (R271, R351, R352). -/
def Claims.TimeCommands : Prop :=
  ∀ (ring : Fin 16) (c : Cmd) (s : State),
    (atRing s ring 0x30 c → timeConfigForm c = true →
      (s.sync.ptpEn ≠ 0 → ∃ q, exec (.timeConfig ring) s = next q ∧ answered s q c 0 0 0 ∧
        q.sync = { s.sync with pendingConfig := some (opnd c 1, opnd c 2) }) ∧
      (s.sync.ptpEn = 0 → ∃ q, exec (.timeConfig ring) s = next q ∧ answered s q c 0 0 0 ∧
        q.sync.pendingConfig = none ∧ q.sync.lockThr = bits (opnd c 1) 39 24 ∧ q.sync.ptpEn = bits (opnd c 1) 43 40 ∧
        q.sync.prio1 = bits (opnd c 2) 7 0 ∧ q.sync.gmcap = (opnd c 2).getLsbD 48 ∧ q.sync.setWait = bits (opnd c 2) 56 49)) ∧
    (atRing s ring 0x30 c → timeConfigForm c = false →
      ∃ q, exec (.timeConfig ring) s = next q ∧ answered s q c 2 0 0 ∧ q.sync = s.sync) ∧
    (atRing s ring 0x31 c → clean c [~~~0] → (opnd c 1).toNat + 64 ≤ 2 ^ 64 → transfers s 0 →
      ∃ q, exec (.timeStatus ring) s = next q ∧ answered s q c 0 0 0 ∧
        q.host.posted = s.host.posted ++ [.write (opnd c 1).toNat (timeRecord s)])

/-- The states of the time-sync service: a master selected from FREERUN or HOLDOVER gives ACQUIRING, 16 small offsets LOCKED, 4 large ones ACQUIRING again, a lost master HOLDOVER with the mean of the last rates; a delay response closes the measurement; without a master SETWAIT seconds after READY the clock is set from the RTC (R271, R272, R275). -/
def Claims.SyncStates : Prop :=
  ∀ (p : Fin 4) (s : State), (portAt s p.val).link = true → s.sync.ptpEn.testBit p.val = true →
    (∀ d p1 cls acc var p2 gmid steps, d.toNat = bits s.clock.ctl 7 1 → s.sync.master = none → s.sync.gmcap = false →
      s.clock.state = 0 ∨ s.clock.state = 3 →
      ∃ q, exec (.ptpMessageReceive p (.announce d p1 cls acc var p2 gmid steps)) s = next q ∧
        q.sync.master = some gmid ∧ q.clock.state = 1 ∧ q.sync.firstOffset = true) ∧
    (∀ d raw org m, d.toNat = bits s.clock.ctl 7 1 → s.sync.master = some m → s.clock.state = 1 → s.sync.goodRun = 15 →
      ((rxStamp s p.val raw - org).toInt - s.sync.mpd).natAbs ≤ s.sync.lockThr →
      ∃ q, exec (.ptpMessageReceive p (.sync d raw org)) s = next q ∧ q.clock.state = 2 ∧
        q.clock.offsMeas = (rxStamp s p.val raw - org).toInt - s.sync.mpd) ∧
    (∀ d raw org m, d.toNat = bits s.clock.ctl 7 1 → s.sync.master = some m → s.clock.state = 2 → s.sync.badRun = 3 →
      4 * s.sync.lockThr < ((rxStamp s p.val raw - org).toInt - s.sync.mpd).natAbs →
      ∃ q, exec (.ptpMessageReceive p (.sync d raw org)) s = next q ∧ q.clock.state = 1) ∧
    (∀ d t3 t4, d.toNat = bits s.clock.ctl 7 1 → s.sync.delayReq = some t3 →
      exec (.ptpMessageReceive p (.delayResp d t4)) s = next { s with sync := { s.sync with
        mpd := (s.sync.syncDiff + (t4 - t3).toInt) / 2, delayReq := none } }) ∧
    (∀ kind stamp, ∃ q f, exec (.ptpMessageTransmit p kind stamp) s = next q ∧
      q.net.wire = s.net.wire ++ [{ port := p.val, bytes := f, t := stamp }] ∧
      (kind.val = 2 → q.sync.delayReq = some (stamp + wordOfInt (sbits (vget (portAt s p.val).tsc (portAt s p.val).spd 0) 31 16)))) ∧
    (s.clock.state = 1 ∨ s.clock.state = 2 → bit s.clock.ctl 0 = true → s.sync.rates ≠ [] →
      ∃ q, exec .syncReceiptTimeout s = next q ∧ q.clock.state = 3 ∧ q.sync.master = none ∧
        q.clock.rate = s.sync.rates.sum / s.sync.rates.length ∧ localT q = localT s) ∧
    (∀ t, s.sync.setWaitFrom = some t → bit s.clock.ctl 0 = true → s.clock.set = false → s.sync.master = none →
      s.sync.setWait ≠ 0 → ∃ q, exec .setwaitExpiry s = next q ∧ q.clock.set = true ∧
        q.mono = max s.mono (t + s.sync.setWait * 10 ^ 9) ∧
        (s.rtc.tvalid = true → localT q = wordOfInt (rtcNs s.rtc)))

/-! ### Network ports and cycle frames (R249 to R256, R285 to R293) -/

/-- EN of a port asks for 3 tokens or returns them, and while EN = 1 no other field changes; the link follows the PHY, an unsupported speed holding it down; verification, gate lists, counters and discards of foreign frames outside HELD as their rules say (R250 to R256, R293; that a port in HELD receives nothing is the model's reading, log 49). -/
def Claims.NetworkPorts : Prop :=
  ∀ (p : Fin 4) (v : Word) (s : State),
    (bit (portAt s p.val).cfg 0 = false → v.getLsbD 0 = true → 64 ≤ bits v 26 16 → bits v 26 16 ≤ 2000 →
      ∃ q, exec (.netCfgWrite p v) s = next q ∧ (∀ i, i ≤ 26 → (portAt q p.val).cfg.getLsbD i = v.getLsbD i) ∧
        q.purse.waiting = s.purse.waiting ++ [{ src := 4, tokens := 3, who := p.val, made := s.mono }]) ∧
    (bit (portAt s p.val).cfg 0 = true → v.getLsbD 0 = false →
      ∃ q, exec (.netCfgWrite p v) s = next q ∧ (portAt q p.val).link = false ∧ (portAt q p.val).started = false ∧
        (∀ i, (portAt q p.val).cfg.getLsbD i = (decide (i ≠ 0) && (portAt s p.val).cfg.getLsbD i)) ∧
        ((portAt s p.val).started = true → vget q.purse.use 4 0 = vget s.purse.use 4 0 - 3)) ∧
    (∃ q, exec (.netCntclr v) s = next q ∧ ∀ n : Fin 4,
      (v.getLsbD n.val = true → portAt q n.val = { portAt s n.val with
        rxcyc := 0, txcyc := 0, rxdisc := 0, rxmiss := 0, glate := 0, cbelim := 0, rxfcs := 0, rxother := 0 }) ∧
      (v.getLsbD n.val = false → portAt q n.val = portAt s n.val)) ∧
    (∀ up spd bad, (portAt s p.val).started = true → ∃ q, exec (.portLinkChange p up spd bad) s = next q ∧
      (portAt q p.val).link = (up && !bad) ∧ (portAt q p.val).badspd = ((portAt s p.val).badspd || bad) ∧
      ((portAt s p.val).cfg.getLsbD 3 = true → (portAt q p.val).spd = spd.toNat)) ∧
    ((portAt s p.val).link = true → (portAt s p.val).vstate = 1 →
      (∃ q, exec (.preemptionVerification p 1) s = next q ∧ (portAt q p.val).vstate = 2 ∧ (portAt q p.val).preact = true) ∧
      (∃ q, exec (.preemptionVerification p 2) s = next q ∧ (portAt q p.val).vstate = 3 ∧ (portAt q p.val).preact = false)) ∧
    (∀ g, (portAt s p.val).admin = some g → ∃ q, exec (.gclChange p) s = next q ∧ (portAt q p.val).oper = some g ∧
      (portAt q p.val).admin = none) ∧
    ((portAt s p.val).link = true → s.ctl.mode ≠ .held →
      (∃ q, exec (.unsupportedFrame p true) s = next q ∧ portAt q p.val = { portAt s p.val with
        rxfcs := ((portAt s p.val).rxfcs + 1) % 2 ^ 64 } ∧ q = { s with net := q.net }) ∧
      (∃ q, exec (.unsupportedFrame p false) s = next q ∧ portAt q p.val = { portAt s p.val with
        rxother := ((portAt s p.val).rxother + 1) % 2 ^ 64 } ∧ q = { s with net := q.net }))

/-- A due transmit entry asks each Market of its content for one gather of its ranges, and at TXOFF the frame leaves each of its ports within 8 ns, or late with the images of the previous gather, which is counted (R289, R290). -/
def Claims.FramesSent : Prop :=
  (∀ (i n : Nat) (e : SchedEntry) (s : State), s.net.sched[i]? = some e → e.rx = false → e.off2 ≤ e.off → e.due = some n →
    s.ctl.mode ≠ .held → e.built = none → e.gathers = 0 →
    ∃ q, exec (.transmitGather i) s = next q ∧ (∀ a, readByte q a = readByte s a) ∧
      ∀ m : MarketId,
        (entryRanges e m.val = [] → q.markets[m] = s.markets[m]) ∧
        (entryRanges e m.val ≠ [] → q.markets[m].queue = s.markets[m].queue ++
          [{ kind := .gather (.frame e.port i) (entryRanges e m.val),
             len := ((entryRanges e m.val).map Prod.snd).sum, since := q.mono, aged := false, start := 0, data := [] }])) ∧
  (∀ (i n : Nat) (e : SchedEntry) (s : State), s.net.sched[i]? = some e → e.rx = false → e.due = some n → n < 2 ^ 48 →
    e.off < 31250 → s.ctl.mode ≠ .held → s.red.role = .solo → (∀ p ∈ entryPorts e, (portAt s p).link = true) →
    (e.built ≠ none → ∃ q l, exec (.frameTransmit i) s = next q ∧ q.net.wire = s.net.wire ++ l ∧
      l.map WireFrame.port = entryPorts e ∧
      (∀ w ∈ l, w.bytes = frameBytes s e w.port (framePayload s e n (frameBlocks e.content e.gathered e.axisBlocks)) ∧
        n * 31250 + e.off ≤ w.t.toNat ∧ w.t.toNat ≤ n * 31250 + e.off + 8) ∧
      (q.net.sched[i]?).map SchedEntry.lateRun = some false) ∧
    (e.built = none → ∃ q l, exec (.frameTransmit i) s = next q ∧ q.net.wire = s.net.wire ++ l ∧
      l.map WireFrame.port = entryPorts e ∧ (q.net.sched[i]?).map SchedEntry.lateRun = some true ∧
      (e.port < 4 → (portAt q e.port).glate = ((portAt s e.port).glate + 1) % 2 ^ 64)))

/-- A cycle frame that keeps R285 in its window is accepted: counted, and written to every Market it names; another is discarded under its reason, and one of another EtherType or longer than MAXFRM is only counted; the network engines are not held (R250, R254, R291, R292, R293, R536; the count of a frame longer than MAXFRM, and that a port in HELD receives nothing, are the model's reading, log 49). -/
def Claims.FramesReceived : Prop :=
  ∀ (p : Fin 4) (stamp : Word) (frame : List Byte) (s : State), (portAt s p.val).link = true → s.ctl.mode ≠ .held →
    (bits (portAt s p.val).cfg 26 16 < frame.length + 4 → ∃ q, exec (.cycleFrameReceive p stamp frame) s = next q ∧
      portAt q p.val = { portAt s p.val with rxother := ((portAt s p.val).rxother + 1) % 2 ^ 64 } ∧
      q = { s with net := q.net }) ∧
    (frame.length + 4 ≤ bits (portAt s p.val).cfg 26 16 →
    (rxFrame frame = none → ∃ q, exec (.cycleFrameReceive p stamp frame) s = next q ∧
      portAt q p.val = { portAt s p.val with rxother := ((portAt s p.val).rxother + 1) % 2 ^ 64 } ∧
      q = { s with net := q.net }) ∧
    (∀ f, rxFrame frame = some f → rxEntry s p.val f = none → ∃ q, exec (.cycleFrameReceive p stamp frame) s = next q ∧
      portAt q p.val = { portAt s p.val with
        rxdisc := ((portAt s p.val).rxdisc + 1) % 2 ^ 64, lastdisc := if rxHeader f.payload then 2 else 1 } ∧
      q = { s with net := q.net }) ∧
    (∀ f i e, rxFrame frame = some f → rxEntry s p.val f = some i → s.net.sched[i]? = some e → e.cb = false →
      rxHeader f.payload = true →
      (bits (wordAt f.payload 0) 55 48 ≠ e.content.length → ∃ q, exec (.cycleFrameReceive p stamp frame) s = next q ∧
        portAt q p.val = { portAt s p.val with rxdisc := ((portAt s p.val).rxdisc + 1) % 2 ^ 64, lastdisc := 1 } ∧
        q.markets = s.markets) ∧
      (∀ blocks n, bits (wordAt f.payload 0) 55 48 = e.content.length →
        rxBlocks e.content ((f.payload.take (bits (wordAt f.payload 8) 47 32)).drop 16) = some blocks →
        n = (rxStamp s p.val stamp).toNat / 31250 →
        (fallsAt e.periodM1 e.phase n = false ∨ (rxStamp s p.val stamp).toNat % 31250 < e.off ∨
            e.off2 < (rxStamp s p.val stamp).toNat % 31250 →
          ∃ q, exec (.cycleFrameReceive p stamp frame) s = next q ∧ portAt q p.val = { portAt s p.val with
            rxdisc := ((portAt s p.val).rxdisc + 1) % 2 ^ 64, lastdisc := 3 } ∧ q.markets = s.markets) ∧
        (fallsAt e.periodM1 e.phase n = true → e.off ≤ (rxStamp s p.val stamp).toNat % 31250 →
          (rxStamp s p.val stamp).toNat % 31250 ≤ e.off2 → bits (wordAt f.payload 0) 47 32 = n % 65536 →
          e.accepted ≠ some n → ∃ q, exec (.cycleFrameReceive p stamp frame) s = next q ∧
            (portAt q p.val).rxcyc = ((portAt s p.val).rxcyc + 1) % 2 ^ 64 ∧
            (q.net.sched[i]?).map SchedEntry.accepted = some (some n) ∧
            ∀ m : MarketId, framePart blocks m ≠ [] → q.markets[m].queue = s.markets[m].queue ++
              [{ kind := .frameWrite (framePart blocks m)
                   (if e.freshen && e.freshMkt == m.val then some (e.freshBit, true) else none),
                 len := ((framePart blocks m).map (fun b => b.2.length)).sum, since := q.mono, aged := false,
                 start := 0, data := [] }]))))

/-- A receive window that closes without its frame is counted, begins or lengthens a run of misses, and clears the fresh bit; one that took its frame only closes; a stream's history is reset after its timeout (R255, R292). -/
def Claims.ReceiveWindows : Prop :=
  (∀ (i n : Nat) (e : SchedEntry) (s : State), s.net.sched[i]? = some e → e.rx = true → e.due = some n →
    (e.accepted = some n → ∃ q, exec (.receiveWindowClose i) s = next q ∧
      q.net.sched[i]? = some { e with due := none } ∧ q.net.ports = s.net.ports ∧ q.markets = s.markets) ∧
    (e.accepted ≠ some n → ∃ q, exec (.receiveWindowClose i) s = next q ∧
      q.net.sched[i]? = some { e with due := none, missRun := e.missRun + 1 } ∧
      (e.port < 4 → (portAt q e.port).rxmiss = ((portAt s e.port).rxmiss + 1) % 2 ^ 64) ∧
      ∀ m : MarketId, e.freshen = true → e.freshMkt = m.val → q.markets[m].queue = s.markets[m].queue ++
        [{ kind := .frameWrite [] (some (e.freshBit, false)), len := 0, since := q.mono, aged := false,
           start := 0, data := [] }])) ∧
  (∀ (i : Nat) (e : SchedEntry) (s : State), s.net.sched[i]? = some e → ∃ q, exec (.cbRecoveryResetTimeout i) s = next q ∧
    q.net.sched[i]? = some { e with cbRecent := [] } ∧ q.net.ports = s.net.ports)

/-! ### Field I/O (R294 to R332) -/

/-- A comparator edge changes the filtered state at once without a debounce time and DEB us later with one, the edge stamped with the T of the comparator, counted in mode 1, and a trigger of each event task that waits for it (R76, R299, R300, R311). -/
def Claims.FieldInputs : Prop :=
  (∀ (c : Fin 32) (level : Bool) (s : State), (channelAt s c.val).level ≠ level → s.power.inReset = none →
    (bits (channelAt s c.val).cfg 17 2 ≠ 0 → ∃ q, exec (.fieldInputEdge c level) s = next q ∧
      channelAt q c.val = { channelAt s c.val with level := level, levelT := localT s, levelAt := s.mono } ∧
      q = { s with field := q.field }) ∧
    (bits (channelAt s c.val).cfg 17 2 = 0 → ∃ q, exec (.fieldInputEdge c level) s = next q ∧
      (channelAt q c.val).level = level ∧ (channelAt q c.val).filt = level ∧ (channelAt q c.val).levelT = localT s ∧
      (∀ x ∈ s.tasks, x.e.event = true → x.e.trigSrc = 1 → x.e.trigIndex = c.val →
        x.e.trigEdge.testBit (if level then 0 else 1) = true →
        ∃ g ∈ q.trigs, g.task = x.e.id ∧ g.src = 1 ∧ g.index = c.val ∧ g.t = localT s) ∧
      (counterMode s c.val = 1 → level = true → (counterAt s c.val).value ≠ BitVec.allOnes 32 →
        (counterAt q c.val).value = (counterAt s c.val).value + 1))) ∧
  (∀ (c : Fin 32) (s : State), (channelAt s c.val).level ≠ (channelAt s c.val).filt → s.power.inReset = none →
    ∃ q, exec (.debounceExpiry c) s = next q ∧ (channelAt q c.val).filt = (channelAt s c.val).level ∧
      q.mono = max s.mono ((channelAt s c.val).levelAt + 1000 * bits (channelAt s c.val).cfg 17 2))

/-- Loads, snapshots and clears of the field registers: PRESET is loaded in modes 1 to 5 unless the counter has a conflict and holds its value, all counters are copied at one instant, IGN, GLATE, STAGGER, MIN and MAX restart (R310, R312, R314, R316, R331, R332). -/
def Claims.FieldRegisters : Prop :=
  ∀ (v : Word) (s : State),
    (∀ k : Fin 32, v.getLsbD 0 = true →
      (1 ≤ bits (counterAt s k.val).cfg 2 0 → bits (counterAt s k.val).cfg 2 0 ≤ 5 → counterConflict s.field k.val = false →
        ∃ q, exec (.fioCntLoad k v) s = next q ∧
          counterAt q k.val = { counterAt s k.val with value := (counterAt s k.val).preset } ∧ q = { s with field := q.field }) ∧
      (bits (counterAt s k.val).cfg 2 0 ∈ [0, 6, 7] ∨ counterConflict s.field k.val = true → exec (.fioCntLoad k v) s = next s)) ∧
    (v.getLsbD 0 = true → ∃ q, exec (.fioCsnap v) s = next q ∧ q = { s with field := q.field } ∧ ∀ k : Fin 32,
      counterAt q k.val = { counterAt s k.val with csv := counterShown (counterAt s k.val) }) ∧
    (∀ j : Fin 8, exec (.latchIgnClear j v) s = next { s with field := { s.field with
      latches := s.field.latches.set j { s.field.latches[j] with ign := 0 } } }) ∧
    (v.getLsbD 0 = true → exec (.fioCntclr v) s = next { s with field := { s.field with glate := 0, stagger := 0 } }) ∧
    (∀ k : Fin 4, v.getLsbD 0 = true → exec (.anaMmclr k v) s = next { s with field := { s.field with
      analogs := s.field.analogs.set k { s.field.analogs[k] with mmvalid := false } } })

/-- At Tin the sample set, with the filtered states in bits [31..0] and Tin in its fourth word, goes to every Market of SMASK, and the latch units are free again; OGLEAD before an output time the output block is gathered (R303 to R307, R317). -/
def Claims.FieldSampleTimes : Prop :=
  (∀ (t : Nat) (s : State), s.field.tinDue = some t → ∃ q d, exec .fieldInputTime s = next q ∧ q.field.tinDue = none ∧
    (∀ c, c < 32 → (wordAt d 0).getLsbD c = (channelAt s c).filt) ∧ wordAt d 24 = BitVec.ofNat 64 t ∧
    (∀ j : Fin 8, q.field.latches[j].captured = false) ∧
    ∀ m : MarketId, q.markets[m].queue = s.markets[m].queue ++
      if bit s.field.map m.val then
        [{ kind := .fieldSample [(imageBase m.val + bits s.field.map 21 4, d)], len := d.length, since := q.mono,
           aged := false, start := 0, data := [] }]
      else []) ∧
  (∀ (t : Nat) (m : MarketId) (s : State), s.field.gatherDue = some t → bits s.field.map 23 22 = m.val →
    ∃ q, exec .fieldGatherStart s = next q ∧ q.field.gatherDue = none ∧
      q.field.gathering = some (t + bits s.field.tcfg 60 46) ∧ q.markets[m].queue = s.markets[m].queue ++
        [{ kind := .gather .field [(bits s.field.map 41 24, 16 + 16 * bits s.field.map 45 42)],
           len := 16 + 16 * bits s.field.map 45 42, since := q.mono, aged := false, start := 0, data := [] }])

/-- At an output time the levels and enables come from the block gathered in time; a late gather leaves them and is counted (R306, R308). -/
def Claims.FieldOutputTimes : Prop :=
  ∀ (t : Nat) (s : State), s.field.toutDue = some t →
    (∀ d, s.field.gathered = some d → ∃ q, exec .fieldOutputTime s = next q ∧ q.field.toutDue = none ∧
      q.field.gathered = none ∧ q.field.lateRun = false ∧
      ∀ c, c < 32 → (channelAt q c).imageOn = (wordAt d 0).getLsbD c) ∧
    (s.field.gathered = none → ∃ q, exec .fieldOutputTime s = next q ∧ q.field.toutDue = none ∧
      q.field.glate = (s.field.glate + 1) % 2 ^ 64 ∧ q.field.lateRun = true ∧
      ∀ c, c < 32 → (channelAt q c).imageOn = (channelAt s c).imageOn)

/-- A switch that a disarmed field die, a group FAULT, a trip, or the unit's role holds open is open, and a switch closes only on a channel whose source commands it or that was closed before (R306, R326, R328). -/
def Claims.SwitchesHeldOpen : Prop :=
  ∀ (c : Nat) (s : State), c < 32 →
    (heldOpen s c = true → (channelAt (updateField s) c).on = false) ∧
    (heldOpen s c = false → (channelAt (updateField s) c).on = (channelAt s c).on ∨
      (channelAt (updateField s) c).on = sourceLevel (evalReflex s).field c)

/-- An armed generator set waits for its hand-over, one that comes while a set waits is refused with BUSY, and an invalid one with REJ; a running generator's edge follows its set, a deferred switch changes 1 us after the last slot, and a reflex pulse ends after PWID (R318, R321, R322, R325). -/
def Claims.FieldGenerators : Prop :=
  (∀ (c : Fin 32) (v : Word) (s : State),
    ((channelAt s c.val).pend = none → isOutput (channelAt s c.val) = true → outSrc (channelAt s c.val) = 3 →
      setValid (setOf (channelAt s c.val).sha (channelAt s c.val).shb) = true → ∃ q, exec (.fioArm c v) s = next q ∧
        channelAt q c.val = { channelAt s c.val with pend := some { seq := bits v 15 0
                                                                    set := setOf (channelAt s c.val).sha (channelAt s c.val).shb
                                                                    image := false, at_ := s.mono } }) ∧
    ((channelAt s c.val).pend = none →
      (isOutput (channelAt s c.val) && outSrc (channelAt s c.val) == 3 &&
        setValid (setOf (channelAt s c.val).sha (channelAt s c.val).shb)) = false →
      ∃ q, exec (.fioArm c v) s = next q ∧ channelAt q c.val = { channelAt s c.val with rej := true }) ∧
    ((channelAt s c.val).pend ≠ none → ∃ q, exec (.fioArm c v) s = next q ∧
      channelAt q c.val = { channelAt s c.val with busy := true })) ∧
  (∀ (c : Fin 32) (s : State), (channelAt s c.val).gen.active = true → ∃ q, exec (.generatorEdge c) s = next q ∧
    (channelAt q c.val).gen = genStep (channelAt s c.val).gen ∧ q.mono = max s.mono (genDue (channelAt s c.val).gen)) ∧
  (∀ s : State, s.field.deferred ≠ [] → ∃ q, exec .staggeredSwitch s = next q ∧
    q.field.deferred = s.field.deferred.drop (8 * (1 + s.field.granted)) ∧ q.mono = max s.mono s.field.deferAt ∧
    q.field.deferAt = q.mono + 1000) ∧
  (∀ (e : Fin 32) (t : Nat) (s : State), (s.field.reflexes[e]).pulse = some t →
    (s.field.reflexes[e]).term = reflexTerm s.field s.field.reflexes[e] → ∃ q, exec (.reflexPulseEnd e) s = next q ∧
      (q.field.reflexes[e]).pulse = none ∧ q.mono = max s.mono (t + 5 * bits (s.field.reflexes[e]).ctl 38 7))

/-- A trip opens the switch and sets OCF or OTF, and with RETRY the trip is over 10 ms later; UV follows L+, 200 us of it set SAG, and 5 us below cut-off while armed set FAULT and open the group, which a clear with UV = 1 leaves (R326, R327, R328). -/
def Claims.FieldProtection : Prop :=
  (∀ (c : Fin 32) (th : Bool) (s : State), isOutput (channelAt s c.val) = true → (channelAt s c.val).on = true →
    ∃ q, exec (.outputTrip c th) s = next q ∧ (channelAt q c.val).on = false ∧ (channelAt q c.val).tripAt = some s.mono ∧
      (channelAt q c.val).ocf = ((channelAt s c.val).ocf || !th) ∧ (channelAt q c.val).otf = ((channelAt s c.val).otf || th)) ∧
  (∀ (c : Fin 32) (t : Nat) (s : State), (channelAt s c.val).tripAt = some t → bit (channelAt s c.val).cfg 27 = true →
    ∃ q, exec (.outputRetry c) s = next q ∧ (channelAt q c.val).tripAt = none ∧ q.mono = max s.mono (t + 10000000) ∧
      (channelAt q c.val).ocf = (channelAt s c.val).ocf) ∧
  (∀ (g l : Fin 4) (s : State), ∃ q, exec (.lplusUvChange g l) s = next q ∧ (groupAt q g.val).uv = decide (l ≠ 3) ∧
    (groupAt q g.val).fault = (groupAt s g.val).fault ∧ q.field.channels = s.field.channels) ∧
  (∀ (g : Fin 4) (s : State), (groupAt s g.val).uv = true → (groupAt s g.val).sagRun = false →
    ∃ q, exec (.fieldSag g) s = next q ∧ groupAt q g.val = { groupAt s g.val with sag := true, sagRun := true } ∧
      q.mono = max s.mono ((groupAt s g.val).uvSince + 200000)) ∧
  (∀ (g : Fin 4) (t : Nat) (s : State), (groupAt s g.val).cutSince = some t → s.ctl.armed = true →
    groupHasOutput s g.val = true → (groupAt s g.val).fault = false → ∃ q, exec (.fieldCutoff g) s = next q ∧
      (groupAt q g.val).fault = true ∧ q.mono = max s.mono (t + 5000) ∧
      ∀ i, i < 8 → (channelAt q (8 * g.val + i)).on = false) ∧
  (∀ (g : Fin 4) (v : Word) (s : State), v.getLsbD 2 = true → (groupAt s g.val).fault = true →
    ((groupAt s g.val).uv = true → ∃ q, exec (.groupFaultClear g v) s = next q ∧ (groupAt q g.val).fault = true ∧
      (groupAt q g.val).clrref = true) ∧
    ((groupAt s g.val).uv = false → ∃ q, exec (.groupFaultClear g v) s = next q ∧ (groupAt q g.val).fault = false ∧
      ∀ i, i < 8 → (channelAt q (8 * g.val + i)).on = false))

/-- A sample carries the T of its instant, and its conversion, clamped to the range of the input, becomes LAST and MIN and MAX (R329 to R331). -/
def Claims.AnalogInputs : Prop :=
  (∀ (k : Fin 4) (s : State), bits (analogAt s k.val).cfg 5 4 = 1 → ∃ q, exec (.analogSample k) s = next q ∧
    (analogAt q k.val).sampling = some (localT q) ∧ (analogAt q k.val).sampledAt = some q.mono) ∧
  (∀ (k : Fin 4) (t : Nat) (s : State), bits (analogAt s k.val).cfg 5 4 = 3 → s.field.tinDue = some t →
    ∃ q, exec (.analogSample k) s = next q ∧ (analogAt q k.val).sampling = some (BitVec.ofNat 64 (t - 3600))) ∧
  (∀ (k : Fin 4) (t : Word) (code : Int) (s : State), (analogAt s k.val).sampling = some t →
    ∃ q, exec (.analogConversionDone k code) s = next q ∧ (analogAt q k.val).valid = true ∧
      (analogAt q k.val).lastt = t ∧ (analogAt q k.val).sampling = none ∧
      (bits (analogAt s k.val).cfg 2 0 ≠ 0 ∨ bit (analogAt s k.val).cfg 3 = true →
        (analogAt q k.val).last = (max 0 (min 65535 code)).toNat ∧
        (analogAt q k.val).ovr = ((analogAt s k.val).ovr || decide (code < 0 ∨ 65535 < code))) ∧
      (bits (analogAt s k.val).cfg 2 0 = 0 → bit (analogAt s k.val).cfg 3 = false →
        ((analogAt q k.val).last : Int) = max (-32768) (min 32767 code) % 65536 ∧
        (analogAt q k.val).ovr = ((analogAt s k.val).ovr || decide (code < -32768 ∨ 32767 < code))) ∧
      ((analogAt s k.val).mmvalid = false →
        (analogAt q k.val).min = (analogAt q k.val).last ∧ (analogAt q k.val).max = (analogAt q k.val).last))

/-! ### Motion engines (R198 to R248) -/

/-- A due motion cycle begins with ECYC one higher and a read from each bank its axes use; a hand-off ends the cycle and stores LASTDONE; DL ends it with an overrun counted; ECFG takes legal fields, and a clear sets EOVR, EESC and MAXDONE to 0 (R198, R200, R202, R244 to R248). -/
def Claims.MotionCycles : Prop :=
  (∀ (e : Fin 8) (n : Nat) (s : State), (engineAt s e.val).due = some n → (engineAt s e.val).axes ≠ [] →
    s.ctl.mode ≠ .held → s.red.role = .solo → badRecords s e.val = [] →
    ∃ q c, exec (.motionCycle e) s = next q ∧ (engineAt q e.val).due = none ∧ (engineAt q e.val).cycle = some c ∧
      c.tick = n ∧ c.computed = false ∧ c.waiting = banksUsed s e.val ∧
      (engineAt q e.val).ecyc = ((engineAt s e.val).ecyc + 1) % 2 ^ 64 ∧
      ∀ m : MarketId, m.val ∈ banksUsed s e.val → ∃ x, q.markets[m].queue = s.markets[m].queue ++ [x] ∧
        x.kind = .motionRead e.val) ∧
  (∀ (e : Fin 8) (c : MotionRun) (s : State), (engineAt s e.val).cycle = some c → s.red.role = .solo →
    c.computed = true ∨ barrierOpen s e.val c.tick = true →
    ∃ q, exec (.motionHandoff e) s = next q ∧ (engineAt q e.val).cycle = none ∧ (engineAt q e.val).run = 0 ∧
      (engineAt q e.val).codesFor = some c.tick ∧
      (engineAt q e.val).lastdone = min ((nowT s - c.tick * 31250) / 10) 65535) ∧
  (∀ (e : Fin 8) (c : MotionRun) (l : List Nat) (s : State), (engineAt s e.val).cycle = some c → c.computed = false → l ≠ [] →
    s.red.role = .solo → (engineAt s e.val).eovr < 2 ^ 32 → ∃ q, exec (.motionDeadline e l) s = next q ∧
      (engineAt q e.val).cycle = none ∧ (engineAt q e.val).codesFor = some c.tick ∧
      (engineAt q e.val).eovr = min ((engineAt s e.val).eovr + 1) (2 ^ 32 - 1) ∧
      (engineAt q e.val).run = (engineAt s e.val).run + 1) ∧
  (∀ (e : Fin 8) (v : Word) (s : State), 1 ≤ bits v 4 0 → bits v 4 0 ≤ 16 → bits v 8 5 < bits v 4 0 → 1 ≤ bits v 31 16 →
    bits v 31 16 < bits v 4 0 * 3125 → bits v 35 32 ≤ 8 → ∃ q, exec (.motEcfgWrite e v) s = next q ∧
      (∀ i, i ≤ 8 ∨ 16 ≤ i ∧ i ≤ 43 → (engineAt q e.val).ecfg.getLsbD i = v.getLsbD i) ∧
      (engineAt q e.val).cfg = (engineAt s e.val).cfg) ∧
  (∀ (v : Word) (s : State), ∃ q, exec (.motCntclr v) s = next q ∧ ∀ e : Fin 8,
    (v.getLsbD e.val = true → engineAt q e.val = { engineAt s e.val with eovr := 0, eesc := 0, maxdone := 0 }) ∧
    (v.getLsbD e.val = false → engineAt q e.val = engineAt s e.val))

/-- After every coded cycle that carries no JUMP, TRACK or STILL, p - R lies in the range -128 to +127; after a JUMP or a TRACK the difference is 0; a STILL slot keeps R and has V = 0 (R235, R236). -/
def Claims.CodesFollowSetpoints : Prop :=
  ∀ (still : Bool) (slot : Nat) (a : Axis),
    ((codeSlot still slot a).1.code ≠ 0x7F → (codeSlot still slot a).1.code ≠ 0x81 → (codeSlot still slot a).1.code ≠ 0x80 →
      -128 ≤ (a.setpt - (codeSlot still slot a).2.r).toInt ∧ (a.setpt - (codeSlot still slot a).2.r).toInt ≤ 127 ∧
      (codeSlot still slot a).2.r = a.r + (codeSlot still slot a).2.v) ∧
    ((codeSlot still slot a).1.code = 0x7F ∨ (codeSlot still slot a).1.code = 0x81 →
      (codeSlot still slot a).2.r = a.setpt ∧ (codeSlot still slot a).1.esc = some a.setpt) ∧
    (still = true → (codeSlot still slot a).1.code = 0x80 ∧ (codeSlot still slot a).2.r = a.r ∧
      (codeSlot still slot a).2.v = 0)

/-! ### Recorder, calendar services and trends (R452 to R467) -/

/-- Buffered records are programmed, at once or FLUSHPER after the oldest; REC_READ gives the records from a cursor on and the next cursor, and a cursor beyond the next RNUM is refused; REC_FLUSH completes when nothing waits (R455 to R459, R467). -/
def Claims.RecorderCommands : Prop :=
  (∀ (r : Record) (l : List Record) (s : State), s.recorder.buffer = r :: l → flashIdle s → s.power.inReset = none →
    s.power.loss = none → s.recorder.slots % 512 ≠ 0 → ∃ q j, exec .recorderFlush s = next q ∧ asksFor s q j ∧
      q.mono = (if flushNow s then s.mono else max s.mono (r.at_ + bits s.recorder.ctl 5 0 * 10 ^ 9)) ∧
      j.op = .program (recOffset s)
        ((s.recorder.buffer.take (min s.recorder.buffer.length (512 - s.recorder.slots % 512))).flatMap eventRecordBytes)) ∧
  (∀ (ring : Fin 16) (c : Cmd) (s : State), atRing s ring 0x48 c → clean c [~~~0, ~~~0, 0x1FFF] → transfers s 6 →
    (opnd c 2).toNat % 128 = 0 → 1 ≤ bits (opnd c 3) 12 0 → bits (opnd c 3) 12 0 ≤ 4096 →
    (opnd c 2).toNat + 524288 ≤ 2 ^ 64 →
    ((opnd c 1).toNat ≤ s.recorder.next → ∃ q l r0 r1, exec (.recRead ring) s = next q ∧ answered s q c 0 r0 r1 ∧
      l = ((s.recorder.stored ++ s.recorder.buffer).filter (fun r => decide ((opnd c 1).toNat ≤ r.rnum))).take
        (bits (opnd c 3) 12 0) ∧
      bits r0 31 0 = l.length ∧ q.host.posted = s.host.posted ++ [.write (opnd c 2).toNat (l.flatMap eventRecordBytes)] ∧
      r1 = match l.getLast? with
        | some r => BitVec.ofNat 64 (r.rnum + 1)
        | none => opnd c 1) ∧
    (s.recorder.next < (opnd c 1).toNat → ∃ q, exec (.recRead ring) s = next q ∧ answered s q c 0xC3 0 0)) ∧
  (∀ (ring : Fin 16) (c : Cmd) (s : State), atRing s ring 0x49 c → clean c [] → s.recorder.flushRing = none →
    (s.recorder.buffer = [] → ∃ q, exec (.recFlush ring) s = next q ∧
      answered s q c 0 (BitVec.ofNat 64 s.recorder.next) 0) ∧
    (s.recorder.buffer ≠ [] → ∃ q, exec (.recFlush ring) s = next q ∧ (cmdRing q ring.val).busy = some c ∧
      q.recorder.flushRing = some ring.val ∧ q.host.finished = s.host.finished))

/-- LOG_EVENT raises the task's event and CAL_CONVERT gives the date of a count or the count of a date; both answer in the request's block with the ticket and leave the queue (R452, R462, R580). -/
def Claims.TaskServices : Prop :=
  ∀ (m : MarketId) (r : SysReq) (a : Nat) (s : State), marketOf r.stall = m → s.ue = [] →
    marketRange r r.arg.toNat 32 = some a →
    (reqFor s m 2 = some r → 0xF000 ≤ bits (readWord s a) 15 0 → bits (readWord s a) 17 16 ≠ 3 →
      s.recorder.buffer.length < 4096 → s.recorder.lostSince = 0 →
      ∃ q x, exec (.logEvent m) s = next q ∧ q.recorder.buffer = s.recorder.buffer ++ [x] ∧
        x.ev.code = bits (readWord s a) 15 0 ∧ x.ev.sev = bits (readWord s a) 17 16 ∧ x.ev.p0 = readWord s (a + 8) ∧
        x.ev.p1 = readWord s (a + 16) ∧ readWord q (a + 24) = BitVec.ofNat 64 r.ticket.toNat ∧
        q.markets[m].sysQueue = dropFirst (fun x => x == r) s.markets[m].sysQueue) ∧
    (reqFor s m 2 = some r → bits (readWord s a) 15 0 < 0xF000 → ∃ q, exec (.logEvent m) s = next q ∧
      q.host.evSeq = s.host.evSeq ∧ readWord q (a + 24) = BitVec.ofNat 64 (r.ticket.toNat + 2 ^ 32)) ∧
    (∀ v, reqFor s m 6 = some r → bits (readWord s a) 31 1 = 0 →
      (if bit (readWord s a) 0 then dateToCount (readWord s (a + 8)) (sbits (readWord s a) 63 32)
        else countToDate (bits (readWord s (a + 8)) 47 0) (sbits (readWord s a) 63 32)) = .ok v →
      ∃ q, exec (.calConvert m) s = next q ∧ readWord q (a + 16) = v ∧
        readWord q (a + 24) = BitVec.ofNat 64 r.ticket.toNat ∧
        q.markets[m].sysQueue = dropFirst (fun x => x == r) s.markets[m].sysQueue)

/-- TREND_CONFIG restarts a channel or refuses a source that is absent, a due sample is taken once, and TREND_READ gives the stored points from a sample number on and the latest sample (R463, R466, R467). -/
def Claims.TrendCommands : Prop :=
  (∀ (ring : Fin 16) (c : Cmd) (s : State), atRing s ring 0x50 c → clean c [0x1F_FFFF_FFFF, 0x3_FFFF_FFFF_FFFF, ~~~0] →
    (bits (opnd c 1) 6 5 = 0 → ∃ q, exec (.trendConfig ring) s = next q ∧ answered s q c 0 0 0 ∧
      trendAt q (bits (opnd c 1) 4 0) = Trend.reset) ∧
    (bits (opnd c 1) 6 5 ≠ 0 → 2 ≤ bits (opnd c 2) 34 22 → bits (opnd c 2) 34 22 ≤ 4096 → 16 ≤ bits (opnd c 2) 49 35 →
      bits (opnd c 2) 49 35 ≤ 16384 → bits (opnd c 2) 21 0 % 8 = 0 →
      (trendSource s (bits (opnd c 1) 6 5) (bits (opnd c 1) 16 7) = false →
        ∃ q, exec (.trendConfig ring) s = next q ∧ answered s q c 0xC4 0 0 ∧ q.trends = s.trends) ∧
      (trendSource s (bits (opnd c 1) 6 5) (bits (opnd c 1) 16 7) = true → (∀ t : Fin 32, s.trends[t].points ≤ 1024) →
        ∃ q, exec (.trendConfig ring) s = next q ∧ answered s q c 0 0 0 ∧
          (trendAt q (bits (opnd c 1) 4 0)).kind = bits (opnd c 1) 6 5 ∧
          (trendAt q (bits (opnd c 1) 4 0)).src = bits (opnd c 1) 16 7 ∧
          (trendAt q (bits (opnd c 1) 4 0)).perM1 = bits (opnd c 1) 36 17 ∧
          (trendAt q (bits (opnd c 1) 4 0)).tol = (opnd c 3).toNat ∧ (trendAt q (bits (opnd c 1) 4 0)).next = 0))) ∧
  (∀ (ch : Fin 32) (s : State), (trendAt s ch.val).kind ≠ 0 → s.clock.set = true → s.clock.firstBoundary = none →
    s.clock.ticknum % ((trendAt s ch.val).perM1 + 1) = 0 →
    ((trendAt s ch.val).lastTick ≠ some s.clock.ticknum → ∃ q, exec (.trendSample ch) s = next q ∧
      (trendAt q ch.val).next = (trendAt s ch.val).next + 1 ∧ (trendAt q ch.val).lastTick = some s.clock.ticknum ∧
      q.mem = s.mem) ∧
    ((trendAt s ch.val).lastTick = some s.clock.ticknum → exec (.trendSample ch) s = next s)) ∧
  (∀ (ring : Fin 16) (c : Cmd) (s : State), atRing s ring 0x51 c → clean c [0x1F, ~~~0, 0xFFFF_FFFF, ~~~0] → transfers s 6 →
    (opnd c 2).toNat + 16 * bits (opnd c 3) 31 0 ≤ 2 ^ 64 → ∃ q d r0 r1, exec (.trendRead ring) s = next q ∧
      answered s q c 0 r0 r1 ∧ q.host.posted = s.host.posted ++ [.write (opnd c 2).toNat d] ∧ d.length = 16 * bits r0 31 0 ∧
      bits r0 31 0 ≤ bits (opnd c 3) 31 0)

/-- A valid sample keeps every sample of the open segment within TOL of the line that stands for them, whatever the samples are (R464). -/
def Claims.TrendLines : Prop :=
  ∀ (x : Int) (t : Trend), segmentOrdered t → lineFits t →
    lineFits (trendTake x t) ∧ segmentOrdered (trendTake x t) ∧ (trendTake x t).next = t.next + 1

/-! ### The parameter store, provisioning and attestation (R440, R475 to R491, R499 to R501, R516) -/

/-- NVS_PUT is accepted with the next SEQ or refused under its limit, NVS_GET returns the winner or says why not, NVS_COMPACT starts a compaction, and ID_READ gives the identity page (R482 to R485, R490, R519). -/
def Claims.ParameterCommands : Prop :=
  ∀ (ring : Fin 16) (c : Cmd) (s : State), alone s → transfers s 6 →
    (∀ data r, atRing s ring 0x60 c → clean c [~~~0, 0x7FFF_FFFF_FFFF] → bit (opnd c 2) 46 = false →
      (opnd c 1).toNat + bits (opnd c 2) 45 32 ≤ 2 ^ 64 → r = putRecord (opnd c 2) (fitBytes (bits (opnd c 2) 45 32) data) →
      (recordLimit s true r = 0 → ∃ q, exec (.nvsPut ring data) s = next q ∧ (cmdRing q ring.val).busy = some c ∧
        accepted s q (.ring c) (bits (opnd c 2) 15 0) (bits (opnd c 2) 31 16)) ∧
      (recordLimit s true r ≠ 0 → ∃ q, exec (.nvsPut ring data) s = next q ∧ answered s q c (recordLimit s true r) 0 0 ∧
        q.nvs = s.nvs)) ∧
    (atRing s ring 0x61 c → clean c [~~~0, 0x3FFF_FFFF_FFFF] →
      (bits (opnd c 2) 15 0 < 0x8000 → ∃ q, exec (.nvsGet ring) s = next q ∧ answered s q c 0x83 0 0) ∧
      (0x8000 ≤ bits (opnd c 2) 15 0 → nvsFind s (bits (opnd c 2) 15 0) (bits (opnd c 2) 31 16) = none →
        ∃ q, exec (.nvsGet ring) s = next q ∧ answered s q c 0x80 0 0) ∧
      (∀ r, 0x8000 ≤ bits (opnd c 2) 15 0 → nvsFind s (bits (opnd c 2) 15 0) (bits (opnd c 2) 31 16) = some r →
        r.payload.length ≤ bits (opnd c 2) 45 32 → (opnd c 1).toNat + r.payload.length ≤ 2 ^ 64 →
        ∃ q, exec (.nvsGet ring) s = next q ∧
          answered s q c 0 (BitVec.ofNat 64 r.payload.length) (BitVec.ofNat 64 r.seq) ∧
          q.host.posted = s.host.posted ++ [.write (opnd c 1).toNat r.payload])) ∧
    (atRing s ring 0x62 c → clean c [] → s.nvs.compact = none → ∃ q, exec (.nvsCompact ring) s = next q ∧
      (cmdRing q ring.val).busy = some c ∧
      q.nvs.compact = some { bank := 1 - s.nvs.actbank, sectors := 32, copying := false, cmd := some c }) ∧
    (atRing s ring 0x77 c → clean c [~~~0] → (opnd c 1).toNat % 4096 = 0 → (opnd c 1).toNat + 4096 ≤ 2 ^ 64 →
      ∃ q, exec (.idRead ring) s = next q ∧ answered s q c 0 0 0 ∧
        q.host.posted = s.host.posted ++ [.write (opnd c 1).toNat (readBytes s flashBase 4096)])

/-- A task's record is accepted, or refused with its result status, and a task's read copies the winner's payload to its buffer with status, length and SEQ in the block (R485, R487, R580). -/
def Claims.ParameterServices : Prop :=
  ∀ (m : MarketId) (r : SysReq) (a b : Nat) (s : State), marketOf r.stall = m → s.ue = [] → alone s →
    marketRange r r.arg.toNat 32 = some a →
    marketRange r (readWord s (a + 8)).toNat (bits (readWord s a) 45 32) = some b → bits (readWord s a) 63 46 = 0 →
    (reqFor s m 4 = some r →
      recordLimit s true (putRecord (readWord s a) (readBytes s b (bits (readWord s a) 45 32))) = 0 →
      ∃ q, exec (.nvsPutService m) s = next q ∧
        accepted s q (.task r) (bits (readWord s a) 15 0) (bits (readWord s a) 31 16)) ∧
    (reqFor s m 4 = some r →
      recordLimit s true (putRecord (readWord s a) (readBytes s b (bits (readWord s a) 45 32))) = 0x83 →
      ∃ q, exec (.nvsPutService m) s = next q ∧ q.nvs = s.nvs ∧
        readWord q (a + 16) = BitVec.ofNat 64 (r.ticket.toNat + 4 * 2 ^ 32) ∧
        q.markets[m].sysQueue = dropFirst (fun x => x == r) s.markets[m].sysQueue) ∧
    (∀ v, reqFor s m 5 = some r → 0x8000 ≤ bits (readWord s a) 15 0 →
      nvsFind s (bits (readWord s a) 15 0) (bits (readWord s a) 31 16) = some v →
      v.payload.length ≤ bits (readWord s a) 45 32 → v.payload.length < 2 ^ 14 → b + v.payload.length ≤ a ∨ a + 32 ≤ b →
      ∃ q, exec (.nvsGetService m) s = next q ∧ readBytes q b v.payload.length = v.payload ∧
        readWord q (a + 16) = BitVec.ofNat 64 (r.ticket.toNat + v.payload.length * 2 ^ 40) ∧
        readWord q (a + 24) = BitVec.ofNat 64 v.seq ∧
        q.markets[m].sysQueue = dropFirst (fun x => x == r) s.markets[m].sysQueue) ∧
    (reqFor s m 5 = some r → 0x8000 ≤ bits (readWord s a) 15 0 →
      nvsFind s (bits (readWord s a) 15 0) (bits (readWord s a) 31 16) = none →
      ∃ q, exec (.nvsGetService m) s = next q ∧ readWord q (a + 16) = BitVec.ofNat 64 (r.ticket.toNat + 2 ^ 32) ∧
        q.markets[m].sysQueue = dropFirst (fun x => x == r) s.markets[m].sysQueue)

/-- The lock of the identity page takes its key pair, sets IDPAGE only over a good page and IDREF otherwise; NVS.CNTCLR clears its counts; sectors past their age or found weak are refreshed, and the OPSEC copy is a record of its own (R440, R488, R491, R516). -/
def Claims.FlashUpkeep : Prop :=
  ∀ (v : Word) (s : State),
    (bits v 31 16 = 0x1DA6 → v.getLsbD 1 = false →
      exec (.nvsLockKey v) s = next { s with nvs := { s.nvs with lockFirst := true } }) ∧
    (bits v 31 16 = 0x6AD1 → v.getLsbD 1 = false → s.nvs.lockFirst = true →
      (idPageGood s = true → exec (.nvsLockKey v) s = next { s with nvs := { s.nvs with lockFirst := false, idpage := true } }) ∧
      (idPageGood s = false → exec (.nvsLockKey v) s = next { s with nvs := { s.nvs with lockFirst := false, idref := true } })) ∧
    (v.getLsbD 0 = true → exec (.nvsCntclr v) s = next { s with nvs := { s.nvs with
      lockFirst := false, dupseq := 0, badrec := 0, flashue := 0, flashce := 0 } }) ∧
    ((∀ x ∈ s.nvs.progDays, sectorOld s x = false) → exec .retentionCheck s = next s) ∧
    (∀ x, s.nvs.progDays = [x] → sectorOld s x = true → flashIdle s → s.ue = [] →
      (paramSector x.1 = true → s.nvs.compact = none → ∃ q k, exec .retentionCheck s = next q ∧ q.nvs.compact = some k ∧
        k.bank = 1 - s.nvs.actbank ∧ k.cmd = none) ∧
      (refreshable x.1 = true → sectorHolds s x.1 = true → ∃ q, exec .retentionCheck s = next q ∧
        asksFor s q { op := .erase (1936 + s.nvs.refresh % 2), user := .refresh x.1 false, granted := false, started := 0 })) ∧
    (∀ n, flashIdle s → s.ue = [] → refreshable n = true → sectorHolds s n = true → ∃ q, exec (.marginScan [n]) s = next q ∧
      asksFor s q { op := .erase (1936 + s.nvs.refresh % 2), user := .refresh n true, granted := false, started := 0 }) ∧
    (recordLimit s false (opsecRecord s) = 0 → ∃ q, exec .opsecCopy s = next q ∧ accepted s q .firmware 0x0100 0)

/-- SEC_PROVISION burns fuses and never clears one, and a hash that differs from a burnt one is refused; SEC_KEYLOAD stores the unwrapped key or fails with AUTH; ATTEST gives the report over the nonce with its signature, whatever the cryptographic functions are (R499 to R501; the two records' layouts are log 28's). -/
def Claims.SecurityCommands : Prop :=
  ∀ (ring : Fin 16) (c : Cmd) (data : List Byte) (s : State), transfers s 6 → (opnd c 1).toNat + 132 ≤ 2 ^ 64 →
    (atRing s ring 0x75 c → clean c [~~~0] → data.length = 128 → bits (wordAt data 0) 63 4 = 0 →
      (∀ x ∈ data.drop 72, x = 0) →
      (s.nvs.pkh = Vector.replicate 2 none → ∃ q, exec (.secProvision ring data) s = next q ∧ answered s q c 0 0 0 ∧
        q.nvs.reqsign = (s.nvs.reqsign || bit (wordAt data 0) 0) ∧
        q.nvs.jtaglock = (s.nvs.jtaglock || bit (wordAt data 0) 1) ∧
        q.nvs.pkh[0] = (if bit (wordAt data 0) 2 then some ((data.drop 8).take 32) else none) ∧
        q.nvs.pkh[1] = (if bit (wordAt data 0) 3 then some ((data.drop 40).take 32) else none)) ∧
      (∀ h, s.nvs.pkh[0] = some h → bit (wordAt data 0) 2 = true → h ≠ (data.drop 8).take 32 →
        ∃ q, exec (.secProvision ring data) s = next q ∧ answered s q c 0x8F 0 0 ∧ q.nvs = s.nvs)) ∧
    (atRing s ring 0x76 c → clean c [~~~0] → data.length = 132 → bits (wordAt data 0) 1 0 ≠ 0 →
      ∃ q, exec (.secKeyload ring data) s = next q ∧
        match Config.unwrapKey (deviceSerial s) ((data.drop 8).take 64) ((data.drop 72).take 12) (data.take 8)
            ((data.drop 100).take 32) ((data.drop 84).take 16) with
        | none => answered s q c 0x86 0 0
        | some k => recordLimit s false (newRecord 0x0102 (bits (wordAt data 0) 1 0) false (Config.sealKey k)) = 0 →
            accepted s q (.ring c) 0x0102 (bits (wordAt data 0) 1 0)) ∧
    (atRing s ring 0x74 c → clean c [~~~0, ~~~0] → data.length = 32 → (opnd c 2).toNat + 256 ≤ 2 ^ 64 →
      ∃ q, exec (.attest ring data) s = next q ∧ answered s q c 0 0 0 ∧ q.host.posted = s.host.posted ++
        [.write (opnd c 2).toNat (attestReport s data ++ fitBytes 64 (Config.ecdsaSign (sha256 (attestReport s data))))])

/-! ### Project, cams and forces (R188 to R196, R219 to R222, R511) -/

/-- PROJECT_LOAD and CHANGE_LOAD write their image into the other project slot and into staging; RUN and HOLD refuse the first, a loaded package the second, and an image without a wrapper both (R170, R495, R510, R511). -/
def Claims.ImageLoads : Prop :=
  ∀ (ring : Fin 16) (c : Cmd) (data : List Byte) (s : State), alone s → transfers s 0 → clean c [~~~0, 0xFFFF_FFFF] →
    (opnd c 1).toNat + bits (opnd c 2) 31 0 ≤ 2 ^ 64 → s.change = none → flashIdle s →
    (atRing s ring 0x18 c → s.ctl.mode = .stop →
      (256 ≤ bits (opnd c 2) 31 0 → bits (opnd c 2) 31 0 ≤ 41943040 → ∃ q j, exec (.projectLoad ring data) s = next q ∧
        (cmdRing q ring.val).busy = some c ∧ asksFor s q j ∧ j.user = .image c) ∧
      (bits (opnd c 2) 31 0 < 256 → ∃ q, exec (.projectLoad ring data) s = next q ∧
        answered s q c 0x87 0 0 ∧ q.project = s.project)) ∧
    (atRing s ring 0x18 c → s.ctl.mode = .run ∨ s.ctl.mode = .hold → ∃ q, exec (.projectLoad ring data) s = next q ∧
      answered s q c 6 0 0) ∧
    (atRing s ring 0x19 c → s.ctl.mode ≠ .held →
      (s.package = none → chainFull s.nvs (bits (opnd c 2) 31 0) = false → 256 ≤ bits (opnd c 2) 31 0 →
        bits (opnd c 2) 31 0 ≤ 1536 * 1024 + 256 → ∃ q j, exec (.changeLoad ring data) s = next q ∧
          (cmdRing q ring.val).busy = some c ∧ asksFor s q j ∧ j.user = .image c) ∧
      (s.package ≠ none → ∃ q, exec (.changeLoad ring data) s = next q ∧ answered s q c 0x26 0 0) ∧
      (s.package = none → chainFull s.nvs (bits (opnd c 2) 31 0) = true →
        ∃ q, exec (.changeLoad ring data) s = next q ∧ answered s q c 0x8C 0 0))

/-- CAM_LOAD stores a table of good form at a free place of the cam store with its directory entry, empties a CAMID on no bytes, and refuses a CAMID in use and a bad table; forces enter, leave and are listed as R188 to R194 say, an output force through its bank (R188 to R194, R219, R222). -/
def Claims.CamsAndForces : Prop :=
  ∀ (ring : Fin 16) (c : Cmd) (s : State), alone s → s.ctl.mode ≠ .held →
    (∀ data camid, atRing s ring 0x28 c → transfers s 0 → clean c [~~~0, 0xFF_FFFF_FFFF] → camid = bits (opnd c 2) 39 32 →
      bits (opnd c 2) 31 0 = data.length → (opnd c 1).toNat + data.length ≤ 2 ^ 64 →
      (camUsed s camid = true → ∃ q, exec (.camLoad ring data) s = next q ∧ answered s q c 0x40 0 0 ∧ q.mem = s.mem) ∧
      (camUsed s camid = false → data = [] → ∃ q, exec (.camLoad ring data) s = next q ∧ answered s q c 0 0 0 ∧
        readWord q (camBase + 8 * camid) = 0) ∧
      (∀ off, camUsed s camid = false → camForm data = true → data.length = 64 + 64 * bits (wordAt data 0) 13 0 →
        camBreak data = none → camPlace s camid (bits (wordAt data 0) 13 0) = some off → 2048 ≤ off → off < 2 ^ 21 →
        ∃ q, exec (.camLoad ring data) s = next q ∧ answered s q c 0 0 0 ∧
          readBytes q (camBase + off) data.length = data ∧ readWord q (camBase + 8 * camid) = BitVec.ofNat 64 off) ∧
      (camUsed s camid = false → data ≠ [] → camForm data = false →
        ∃ q, exec (.camLoad ring data) s = next q ∧ answered s q c 0x41 0 0 ∧ q.mem = s.mem)) ∧
    (∀ f, atRing s ring 0x20 c → clean c [~~~0, ~~~0] → forceCheck s (opnd c 1) (opnd c 2) = .ok f →
      (f.output = false → ∃ q, exec (.forceSet ring) s = next q ∧ answered s q c 0 0 0 ∧
        q.forces = s.forces.filter (fun g => g.skey != f.skey) ++ [f] ∧ q.mem = s.mem) ∧
      (f.output = true → ∃ q, exec (.forceSet ring) s = next q ∧ (cmdRing q ring.val).busy = some c ∧
        q.forces = s.forces ∧ q.markets[f.market].queue = s.markets[f.market].queue ++
          [{ kind := .forceWrite c (f.bitoff / 64 * 8), len := 8, since := s.mono, aged := false, start := 0, data := [] }])) ∧
    (∀ st, atRing s ring 0x20 c → clean c [~~~0, ~~~0] → forceCheck s (opnd c 1) (opnd c 2) = .error st →
      ∃ q, exec (.forceSet ring) s = next q ∧ answered s q c st 0 0 ∧ q.forces = s.forces) ∧
    (atRing s ring 0x21 c → clean c [~~~0] → ∃ q, exec (.forceClear ring) s = next q ∧
      answered s q c 0 (if ∃ f ∈ s.forces, f.skey = opnd c 1 then 1 else 0) 0 ∧
      q.forces = s.forces.filter (fun f => f.skey != opnd c 1) ∧ q.mem = s.mem) ∧
    (atRing s ring 0x22 c → transfers s 0 → clean c [~~~0, 0xFFFF_FFFF] → s.forces.length ≤ 1024 →
      (opnd c 1).toNat + 32768 ≤ 2 ^ 64 → ∃ q n, exec (.forceList ring) s = next q ∧
        n = min s.forces.length (bits (opnd c 2) 31 0 / 32) ∧
        answered s q c 0 (BitVec.ofNat 64 s.forces.length) (BitVec.ofNat 64 n) ∧
        q.host.posted = s.host.posted ++ [.write (opnd c 1).toNat ((s.forces.take n).flatMap forceRecord)])

/-! ### Online change and exchange windows (R170 to R182) -/

/-- CHANGE_APPLY begins a loaded change with every Market in phase 2 and without a package answers NO_PACKAGE; CHANGE_ABORT discards the package before the first switch; XWRITE asks for a window of 0.5 us and 0.078125 ns per byte (R171, R174, R176, R178, R179). -/
def Claims.ChangeCommands : Prop :=
  ∀ (ring : Fin 16) (c : Cmd) (s : State), alone s → s.ctl.mode ≠ .held →
    (atRing s ring 0x1A c → clean c [] → anyFrozen s = false →
      (s.package = none → ∃ q, exec (.changeApply ring) s = next q ∧ answered s q c 0x2F 0 0) ∧
      (∀ p, s.package = some p → s.change = none → switchesFit s p = true → flashIdle s →
        ∃ q k, exec (.changeApply ring) s = next q ∧ (cmdRing q ring.val).busy = some c ∧ q.change = some k ∧
          k.step = .writing ∧ k.ring = ring.val ∧ q.package = some p ∧ ∀ m : MarketId, q.markets[m].phase = 2)) ∧
    (atRing s ring 0x1A c → clean c [] → anyFrozen s = true →
      ∃ q, exec (.changeApply ring) s = next q ∧ answered s q c 0x14 0 0) ∧
    (atRing s ring 0x1B c → clean c [] →
      (s.package = none → ∃ q, exec (.changeAbort ring) s = next q ∧ answered s q c 0x2F 0 0) ∧
      (∀ p, s.package = some p → s.change = none → switchBegun s = false →
        ∃ q, exec (.changeAbort ring) s = next q ∧ answered s q c 0 0 0 ∧ q.package = none ∧
          ∀ m : MarketId, q.markets[m].phase = 0) ∧
      (∀ p, s.package = some p → switchBegun s = true →
        ∃ q, exec (.changeAbort ring) s = next q ∧ answered s q c 0x30 0 0 ∧ q.package = some p)) ∧
    (∀ (data : List Byte) (m : MarketId) (n off : Nat), atRing s ring 0x1C c → transfers s 0 →
      clean c [~~~0, 0xF_FFFF, 0x3F_FFFF] → bits (opnd c 2) 17 0 = n → bits (opnd c 2) 19 18 = m.val →
      bits (opnd c 3) 21 0 = off → n % 8 = 0 → off % 8 = 0 → n ≤ xwriteMax s m →
      (off + n ≤ 2 ^ 22 → windowFree s m = true → (opnd c 1).toNat + n ≤ 2 ^ 64 →
        ∃ q, exec (.xwrite ring data) s = next q ∧ (cmdRing q ring.val).busy = some c ∧
          q.markets[m].winReq = some { use := .xwrite c off (fitBytes n data), len := 500 + (5 * n + 63) / 64, at_ := s.mono }) ∧
      (2 ^ 22 < off + n → ∃ q, exec (.xwrite ring data) s = next q ∧ answered s q c 3 0 0))

/-- A window opens only where R172 allows it and ends the running ahead of its Market; when the window of an XWRITE closes its bytes stand in Market memory and its command is complete; a request that waits TMO ms fails with NO_WINDOW (R172, R174, R178, R179). -/
def Claims.ExchangeWindows : Prop :=
  (∀ (m : MarketId) (w : Window) (s : State), s.markets[m].winReq = some w → s.markets[m].winOpen = none →
    (windowMay s m w.len = true → ∃ q, exec (.windowOpen m) s = next q ∧ q.markets[m].winReq = none ∧
      q.markets[m].winOpen = some { w with at_ := s.mono } ∧ q.markets[m].xcnt = (s.markets[m].xcnt + 1) % 2 ^ 64 ∧
      ∀ t, marketOf t.stall = m → (tillAt q t).area ≠ .speculative) ∧
    (windowMay s m w.len = false → exec (.windowOpen m) s = next s)) ∧
  (∀ (m : MarketId) (w : Window) (c : Cmd) (off : Nat) (data : List Byte) (s : State), s.markets[m].winOpen = some w →
    w.use = .xwrite c off data → off + data.length ≤ 2 ^ 22 → s.ue = [] → noSpeculation s → alone s →
    knowsCmd s c = true →
    ∃ q, exec (.windowClose m) s = next q ∧ q.markets[m].winOpen = none ∧ q.mono = max s.mono (w.at_ + w.len) ∧
      finishedWith q c 0 (BitVec.ofNat 64 w.len) ∧ readBytes q (marketBase m.val + off) data.length = data ∧
      ∀ a, marketBase m.val ≤ a → a < marketBase m.val + 2 ^ 22 →
        a < marketBase m.val + off ∨ marketBase m.val + off + data.length ≤ a → readByte q a = readByte s a) ∧
  (∀ (m : MarketId) (w : Window) (c : Cmd) (off : Nat) (data : List Byte) (s : State), s.markets[m].winReq = some w →
    w.use = .xwrite c off data → s.change = none → knowsCmd s c = true → ∃ q, exec (.windowTimeout m) s = next q ∧
      q.markets[m].winReq = none ∧ q.mono = max s.mono (w.at_ + bits s.markets[m].xwin 15 8 * 1000000) ∧
      finishedWith q c 0x31 0 ∧ q.mem = s.mem) ∧
  (∀ (m : MarketId) (w : Window) (k : Change) (c : Cmd) (s : State), s.markets[m].winReq = some w → s.change = some k →
    (w.use = .prepare ∨ w.use = .switch) → (cmdRing s k.ring).busy = some c → c.ring = k.ring →
    (k.switched = false → ∃ q, exec (.windowTimeout m) s = next q ∧ q.change = none ∧ q.package = s.package ∧
      finishedWith q c 0x31 0) ∧
    (k.switched = true → ∃ q, exec (.windowTimeout m) s = next q ∧ q.change = some k ∧
      q.markets[m].winReq = some { w with at_ := q.mono } ∧ s.host.evSeq < q.host.evSeq))

/-! ### Firmware and recovery (R502 to R515) -/

/-- FW_LOAD writes the slot that is neither CURRENT nor TRIAL, FW_ACTIVATE makes a LOADED slot PENDING and asks for the reset or begins the exchange, FW_ACCEPT makes the TRIAL slot CURRENT, and PROJECT_STORE takes only an image of the running project (R504 to R507, R512). -/
def Claims.FirmwareCommands : Prop :=
  ∀ (ring : Fin 16) (c : Cmd) (s : State), s.nvs.fwrun ≤ 1 →
    (∀ data k, atRing s ring 0x68 c → clean c [~~~0, 0xFFFF_FFFF] → transfers s 6 → loadTarget s = some k → flashIdle s →
      s.change = none → s.nvs.live = none → 256 ≤ bits (opnd c 2) 31 0 → bits (opnd c 2) 31 0 ≤ 8388608 →
      (opnd c 1).toNat + bits (opnd c 2) 31 0 ≤ 2 ^ 64 → ∃ q j, exec (.fwLoad ring data) s = next q ∧
        (cmdRing q ring.val).busy = some c ∧ asksFor s q j ∧ j.user = .image c ∧ fwState q k = 0) ∧
    (∀ k, atRing s ring 0x69 c → clean c [1] → slotIn s 1 = some k → updateBusy s = false → fwRefreshing s k = false →
      (bit (opnd c 1) 0 = false → s.ctl.mode = .run → s.power.loss = none → s.power.inReset = none → s.power.wanted = none →
        ∃ q, exec (.fwActivate ring) s = next q ∧ answered s q c 0 (BitVec.ofNat 64 k) 0 ∧ fwState q k = 2 ∧
          q.power.wanted = some (.update, none)) ∧
      (bit (opnd c 1) 0 = true → (fwHeader s.nvs k).liveok = false →
        ∃ q, exec (.fwActivate ring) s = next q ∧ answered s q c 0x8B 0 0) ∧
      (bit (opnd c 1) 0 = true → (fwHeader s.nvs k).liveok = true → s.red.pstate = .none →
        ∃ q, exec (.fwActivate ring) s = next q ∧
          ((q.nvs.live = some { slot := k, ring := c.ring, step := 0, lastSwap := s.clock.ticknum } ∧ fwState q k = 3) ∨
            (fwState q k = 6 ∧ (answered s q c 0x87 0 0 ∨ answered s q c 0x91 0 0))))) ∧
    (∀ k, atRing s ring 0x6A c → clean c [] → slotIn s 3 = some k → ∃ q, exec (.fwAccept ring) s = next q ∧
      answered s q c 0 (BitVec.ofNat 64 k) 0 ∧ fwState q k = 4 ∧ (fwState s (1 - k) = 4 → fwState q (1 - k) = 5) ∧
      q.nvs.secver = max s.nvs.secver (fwHeader s.nvs k).secver) ∧
    (atRing s ring 0x6A c → clean c [] → slotIn s 3 = none → ∃ q, exec (.fwAccept ring) s = next q ∧ answered s q c 0x8A 0 0) ∧
    (∀ data, atRing s ring 0x70 c → clean c [~~~0, 0xFFFF_FFFF] → transfers s 6 → flashIdle s → s.change = none →
      s.nvs.live = none → 256 ≤ bits (opnd c 2) 31 0 → bits (opnd c 2) 31 0 ≤ 41943040 →
      (opnd c 1).toNat + bits (opnd c 2) 31 0 ≤ 2 ^ 64 → data.length = bits (opnd c 2) 31 0 →
      (s.project.loaded = true → (wrapperOf data).id = s.project.id → ∃ q j, exec (.projectStore ring data) s = next q ∧
        (cmdRing q ring.val).busy = some c ∧ asksFor s q j ∧ j.user = .image c) ∧
      (s.project.loaded = false ∨ (wrapperOf data).id ≠ s.project.id →
        ∃ q, exec (.projectStore ring data) s = next q ∧ answered s q c 0x8D 0 0))

/-- A live exchange takes the classes in order, 32 boundaries apart, with the work of the boundary that fired lost and LIVE_SWAP reported; the last one makes the slot the running one and completes the command (R507, R508). -/
def Claims.EngineSwaps : Prop :=
  ∀ (cls : Fin 3) (l : LiveAct) (s : State), s.nvs.live = some l → l.step = cls.val →
    (l.step = 0 ∨ l.lastSwap + 32 ≤ s.clock.ticknum → ∃ q, exec (.engineSwap cls) s = next q ∧
      s.host.evSeq < q.host.evSeq ∧
      (cls ≠ 2 → q.nvs.live = some { l with step := l.step + 1, lastSwap := s.clock.ticknum } ∧
        q.nvs.fwrun = s.nvs.fwrun) ∧
      (cls = 2 → q.nvs.live = none ∧ q.nvs.fwrun = l.slot ∧ q.nvs.half = 1 - s.nvs.half ∧
        ∀ c, (cmdRing s l.ring).busy = some c → c.ring = l.ring → finishedWith q c 0 (BitVec.ofNat 64 l.slot)) ∧
      (cls = 0 → q.field.tinDue = none ∧ q.field.toutDue = none ∧ q.field.gatherDue = none) ∧
      (cls = 2 → ∀ e : Fin 8, (engineAt q e.val).cycle = none ∧ (engineAt q e.val).due = none)) ∧
    (l.step ≠ 0 → s.clock.ticknum < l.lastSwap + 32 → exec (.engineSwap cls) s = next s)

/-- In recovery mode the mailbox takes the image in ascending pieces, verifies it, resets into a verified image and starts again on ABORT; outside recovery mode it does nothing (R513, R514). -/
def Claims.RecoveryMailbox : Prop :=
  (∀ (off : BitVec 32) (len : BitVec 16) (data : List Byte) (s : State), s.nvs.recovery.active = true →
    s.nvs.recovery.state ≠ 3 → 8 ≤ len.toNat → len.toNat ≤ 61440 →
    (off.toNat = s.nvs.recovery.image.length → off.toNat % 8 = 0 → len.toNat % 8 = 0 → off.toNat + len.toNat ≤ 8388608 →
      ∃ q, exec (.mailboxWrite off len data) s = next q ∧ q.nvs.recovery.state = 2 ∧ q.nvs.recovery.err = 0 ∧
        q.nvs.recovery.image = s.nvs.recovery.image ++ fitBytes len.toNat data ∧ q.nvs.recovery.verified = false) ∧
    (off.toNat ≠ s.nvs.recovery.image.length → ∃ q, exec (.mailboxWrite off len data) s = next q ∧
      q.nvs.recovery.state = 3 ∧ q.nvs.recovery.err = 0x87 ∧ q.nvs.recovery.image = s.nvs.recovery.image ∧ q.mem = s.mem)) ∧
  (∀ s : State, s.nvs.recovery.active = true → s.nvs.recovery.state ≠ 3 →
    (∃ q, exec .mailboxVerify s = next q ∧ q.nvs.recovery.image = s.nvs.recovery.image ∧
      match acceptImage s.nvs 1 (flashBytes s (fwBase s.nvs.recovery.slot) s.nvs.recovery.image.length) with
      | .ok _ => q.nvs.recovery.state = 2 ∧ q.nvs.recovery.verified = true
      | .error st => q.nvs.recovery.verified = false ∧ q.nvs.recovery.err = st) ∧
    (s.nvs.recovery.verified = true → plainReset s → ∃ q, exec .mailboxBoot s = next q ∧ inResetAs q .update) ∧
    (s.nvs.recovery.verified = false → ∃ q, exec .mailboxBoot s = next q ∧ q.nvs.recovery.state = 3 ∧
      q.nvs.recovery.err = 0x87 ∧ q.power.inReset = s.power.inReset)) ∧
  (∀ s : State, s.nvs.recovery.active = true → ∃ q, exec .mailboxAbort s = next q ∧ q.nvs.recovery.image = [] ∧
    q.nvs.recovery.state = 0 ∧ q.nvs.recovery.verified = false ∧ q.nvs.recovery.active = true ∧ q.mem = s.mem) ∧
  (∀ (off : BitVec 32) (len : BitVec 16) (data : List Byte) (s : State), s.nvs.recovery.active = false →
    exec (.mailboxWrite off len data) s = next s ∧ exec .mailboxVerify s = next s ∧ exec .mailboxBoot s = next s ∧
    exec .mailboxAbort s = next s)

/-- Each request at the recovery port with a new XID is carried out and answered on port 0, one that repeats the XID gets the same answer again, and outside recovery mode a request is discarded and counted (R291, R515). -/
def Claims.RecoveryPort : Prop :=
  ∀ (tool : Word) (xid off : BitVec 32) (data : List Byte) (s : State),
    ∀ i ∈ [Instr.recoveryWrite tool xid off data, .recoveryVerify tool xid, .recoveryBoot tool xid, .recoveryHello tool xid],
    (s.nvs.recovery.active = false → ∃ q, exec i s = next q ∧
      portAt q 0 = { portAt s 0 with rxdisc := ((portAt s 0).rxdisc + 1) % 2 ^ 64, lastdisc := 1 } ∧ q.net.wire = s.net.wire ∧
      q.nvs = s.nvs) ∧
    (∀ bytes, s.nvs.recovery.active = true → s.nvs.recovery.lastXid = some (xid, bytes) → exec i s = next { s with
      net := { s.net with wire := s.net.wire ++ [{ port := 0, bytes := bytes, t := localT s }] } }) ∧
    (s.nvs.recovery.active = true → s.nvs.recovery.lastXid = none → s.nvs.recovery.verified = false →
      ∃ q b, exec i s = next q ∧ q.net.wire = s.net.wire ++ [{ port := 0, bytes := b, t := localT s }] ∧
        q.nvs.recovery.lastXid = some (xid, b) ∧ q.power.inReset = s.power.inReset) ∧
    (s.nvs.recovery.active = true → s.nvs.recovery.lastXid = none → s.nvs.recovery.verified = true → plainReset s →
      ∃ q, exec (.recoveryBoot tool xid) s = next q ∧ inResetAs q .update) ∧
    (s.nvs.recovery.active = true → s.nvs.recovery.lastXid = none → off.toNat = s.nvs.recovery.image.length →
      off.toNat % 8 = 0 → data.length % 8 = 0 → data.length ≤ 1024 → off.toNat + data.length ≤ 8388608 →
      ∃ q, exec (.recoveryWrite tool xid off data) s = next q ∧ q.nvs.recovery.image = s.nvs.recovery.image ++ data)

/-! ### The Bolist link and the pair (R376 to R408) -/

/-- A message of any type whose number was seen is dropped, one on an unpowered lane does nothing, 16 valid ones in a row bring a lane up, and a bad one is counted (R376 to R378). -/
def Claims.LinkReception : Prop :=
  ∀ (lane : Fin 2) (mseq : BitVec 32) (w w0 w1 : Word) (task : TaskId) (off : Nat) (b : Bool) (data : List Byte)
    (l : List Word) (e : Fin 8) (x : BitVec 4) (y : BitVec 32) (s : State),
    (∀ i ∈ [Instr.inputPiece lane mseq w task off b data, .eventPiece lane mseq w task l, .journal lane mseq w task l,
        .motionPiece lane mseq w e data, .hashMessage lane mseq w w0 w1, .verdict lane mseq w task b, .control lane mseq w data,
        .stateCopy lane mseq w data, .epochcopy lane mseq w b data, .abdicate lane mseq w x, .leave lane mseq,
        .heartbeat lane mseq w w0 y],
      ((Sys2Proof.Machine.laneAt s lane.val).granted = false → exec i s = next s) ∧
      ((Sys2Proof.Machine.laneAt s lane.val).granted = true → s.red.linkLost = false → mseq ∈ s.red.seenSeq →
        ∃ q, exec i s = next q ∧ pairOnly s q ∧ q.red.seenSeq = s.red.seenSeq ∧ q.red.pstate = s.red.pstate ∧
          q.red.role = s.red.role ∧ (Sys2Proof.Machine.laneAt q lane.val).lastValid = s.mono ∧
          (Sys2Proof.Machine.laneAt q lane.val).up =
            ((Sys2Proof.Machine.laneAt s lane.val).up || decide (16 ≤ (Sys2Proof.Machine.laneAt s lane.val).valid + 1)))) ∧
    ((Sys2Proof.Machine.laneAt s lane.val).granted = true → ∃ q, exec (.linkMessageDiscard lane) s = next q ∧ pairOnly s q ∧
      (Sys2Proof.Machine.laneAt q lane.val).errs = ((Sys2Proof.Machine.laneAt s lane.val).errs + 1) % 2 ^ 64 ∧
      (Sys2Proof.Machine.laneAt q lane.val).up = (Sys2Proof.Machine.laneAt s lane.val).up ∧
      ((Sys2Proof.Machine.laneAt s lane.val).up = false → (Sys2Proof.Machine.laneAt q lane.val).valid = 0) ∧
      q.red.seenSeq = s.red.seenSeq)

/-- Pieces of mirrored releases collect on the standby: input data in order, the event record, journal entries and motion reads; a piece out of place detaches the pair with DIVERGED (R385 to R387). -/
def Claims.MirroredReleases : Prop :=
  ∀ (lane : Fin 2) (mseq : BitVec 32) (relnum : Word) (task : TaskId) (x : Task) (s : State),
    firstCopy s lane mseq → following s = true → taskOf s task = some x →
    (∀ last data, s.red.mirrors = [] → (last = true → data.length = x.e.inLen ∧ x.e.market.val ∈ s.red.switches) →
      ∃ q, exec (.inputPiece lane mseq relnum task 0 last data) s = next q ∧ pairOnly s q ∧
        q.red.mirrors = [{ task := task, relnum := relnum.toNat, data := [(0, data)], complete := last, evt := [], journal := [] }]) ∧
    (∀ off last data, s.red.mirrors = [] → off ≠ 0 → ∃ q, exec (.inputPiece lane mseq relnum task off last data) s = next q ∧
      detachedWith q 12 ∧ q.mem = s.mem) ∧
    (∀ evt, s.red.mirrors = [] → evt.length = 8 → x.e.market.val ∈ s.red.switches →
      ∃ q, exec (.eventPiece lane mseq relnum task evt) s = next q ∧
        q.red.mirrors = [{ task := task, relnum := relnum.toNat, data := [], complete := true, evt := evt, journal := [] }] ∧
        q.mem = s.mem ∧ q.stalls = s.stalls) ∧
    (∀ (m : Mirror) (a b : Word), s.red.mirrors = [m] → m.task = task → m.relnum = relnum.toNat →
      (∀ t, (tillAt s t).area = .empty ∨ (tillAt s t).rel.task ≠ task) →
      ∃ q, exec (.journal lane mseq relnum task [a, b]) s = next q ∧ pairOnly s q ∧
        q.red.mirrors = [{ m with journal := m.journal ++ [jentryOf a b] }]) ∧
    (∀ l, s.red.mirrors = [] → s.red.pstate ≠ .copying → (∀ t, (tillAt s t).area = .empty ∨ (tillAt s t).rel.task ≠ task) →
      ∃ q, exec (.journal lane mseq relnum task l) s = next q ∧ detachedWith q 12) ∧
    (∀ (e : Fin 8) (data : List Byte), s.red.motions = [] →
      (relnum.toNat = (engineAt s e.val).ecyc + 1 → ∃ q, exec (.motionPiece lane mseq relnum e data) s = next q ∧ pairOnly s q ∧
        q.red.motions = [(relnum.toNat, e.val, (wordAt data 0).getLsbD 0, data.drop 8)]) ∧
      (relnum.toNat ≠ (engineAt s e.val).ecyc + 1 → ∃ q, exec (.motionPiece lane mseq relnum e data) s = next q ∧
        detachedWith q 12))

/-- Equal hashes settle a release and count as a success; unequal ones begin an adjudication, or only count while comparison is off; the two verdicts decide it as the table of R392 says (R390 to R393). -/
def Claims.HashesAndVerdicts : Prop :=
  (∀ (lane : Fin 2) (mseq : BitVec 32) (relnum w0 own peer : Word) (id : TaskId) (s : State), firstCopy s lane mseq →
    following s = true → w0 = BitVec.ofNat 64 id.toNat → s.red.adjudication = none → noSpeculation s →
    s.stalls[(entryOf s id).stall].pend = [] → hashIn s.red.ownHashes id relnum.toNat = some own →
    hashIn s.red.peerHashes id relnum.toNat = none →
    (own = peer → ∃ q, exec (.hashMessage lane mseq relnum w0 peer) s = next q ∧ pairOnly s q ∧
      q.red.cmpok = (s.red.cmpok + 1) % 2 ^ 64 ∧ (id, relnum.toNat) ∈ q.red.settledTasks ∧ q.red.pstate = s.red.pstate) ∧
    (own ≠ peer → s.red.cmpOff = true → ∃ q, exec (.hashMessage lane mseq relnum w0 peer) s = next q ∧
      q.red.cmpbad = (satStep 32 s.red.cmpbad).1 ∧ q.red.adjudication = none ∧ q.red.pstate = s.red.pstate ∧ q.mem = s.mem) ∧
    (own ≠ peer → s.red.cmpOff = false → ∃ q a, exec (.hashMessage lane mseq relnum w0 peer) s = next q ∧
      q.red.adjudication = some a ∧ a.task = id ∧ a.relnum = relnum.toNat ∧ a.own = own ∧ a.peer = peer ∧
      a.peerVerdict = none ∧ q.mem = s.mem)) ∧
  (∀ (lane : Fin 2) (mseq : BitVec 32) (relnum : Word) (task : TaskId) (v : Bool) (a : Adjudication) (s : State),
    firstCopy s lane mseq → s.red.adjudication = some a → a.task = task → a.relnum = relnum.toNat →
    s.stalls[a.stall].pend = [] →
    (a.ownVerdict = none → ∃ q, exec (.verdict lane mseq relnum task v) s = next q ∧ pairOnly s q ∧
      q.red.adjudication = some { a with peerVerdict := some v }) ∧
    (∀ own, a.ownVerdict = some own → paired s →
      (s.red.role = .active → own = false → v = true → ∃ q, exec (.verdict lane mseq relnum task v) s = next q ∧
        q.red.adjudication = none ∧ q.red.handover = some (boundaryAfter2us s, false) ∧ q.red.pstate = s.red.pstate) ∧
      (s.red.role = .standby → own = true → v = false → ∃ q, exec (.verdict lane mseq relnum task v) s = next q ∧
        q.red.adjudication = none ∧ q.red.pstate = s.red.pstate) ∧
      ((own = true ∧ v = true) ∨ (own = false ∧ v = false) ∨ (s.red.role = .active ∧ own = true ∧ v = false) ∨
        (s.red.role = .standby ∧ own = false ∧ v = true) →
        ∃ q, exec (.verdict lane mseq relnum task v) s = next q ∧ detachedWith q 10 ∧ q.red.role = s.red.role ∧
          q.red.mandate = s.red.mandate)))

/-- A forwarded write reaches Market memory, a forwarded STOP waits for the boundary that the active named, a piece that is not the last one waits, and a piece of the state copy puts its bytes in place (R385, R388, R401; the layout of a piece is log 44's). -/
def Claims.ForwardedCommandsAndCopy : Prop :=
  ∀ (lane : Fin 2) (mseq : BitVec 32) (n : Word) (data : List Byte) (s : State), firstCopy s lane mseq → following s = true →
    (∀ (m : MarketId) (off : Nat), bits (wordAt data 0) 15 0 = 0xFFFF → (wordAt data 8).toNat = marketBase m.val + off →
      data.length = 24 + (wordAt data 16).toNat → off + (wordAt data 16).toNat ≤ 2 ^ 22 → s.ue = [] → noSpeculation s →
      ∃ q, exec (.control lane mseq n data) s = next q ∧
        readBytes q (marketBase m.val + off) (wordAt data 16).toNat = data.drop 24 ∧
        ∀ a, a < marketBase m.val + off ∨ marketBase m.val + off + (wordAt data 16).toNat ≤ a → readByte q a = readByte s a) ∧
    (wordAt data 0 = 0x8000_0000_0000_000B → ∃ q, exec (.control lane mseq n data) s = next q ∧
      q.ctl.waits = s.ctl.waits ++
        [{ ring := 16, action := .stop, wakes := [], ready := some (BitVec.ofNat 64 (n.toNat * 31250)) }] ∧
      q.red.bufferedControl = [] ∧ q.mem = s.mem) ∧
    (bits (wordAt data 0) 15 0 ≠ 0xFFFF → (wordAt data 0).getLsbD 63 = false →
      ∃ q, exec (.control lane mseq n data) s = next q ∧ pairOnly s q ∧
        q.red.bufferedControl = s.red.bufferedControl ++ data.drop 48) ∧
    (n.getLsbD 63 = false → (∀ i, i < data.length → copiedAddr (n.toNat + i) = true) → data ≠ [] →
      ∃ q, exec (.stateCopy lane mseq n data) s = next q ∧ readBytes q n.toNat data.length = data ∧
        (∀ a, a < n.toNat ∨ n.toNat + data.length ≤ a → readByte q a = readByte s a) ∧ q.stalls = s.stalls ∧ q.ctl = s.ctl)

/-- A standby collects a mirrored epoch and keeps it when the CRC-32 of its closing piece matches, and the one before otherwise; an active begins one every RETPER ms (R398). -/
def Claims.MirroredEpochs : Prop :=
  (∀ (lane : Fin 2) (mseq : BitVec 32) (n : Word) (data : List Byte) (s : State), firstCopy s lane mseq →
    s.red.role = .standby → paired s ∨ s.red.pstate = .detached → s.red.epochBuild.1 = n →
    (∃ q, exec (.epochcopy lane mseq n false data) s = next q ∧ pairOnly s q ∧
      q.red.epochBuild = (n, s.red.epochBuild.2 ++ data) ∧ q.red.epochHeld = s.red.epochHeld) ∧
    (∃ q, exec (.epochcopy lane mseq n true data) s = next q ∧ pairOnly s q ∧
      q.red.epochHeld = if wordAt data 16 = BitVec.ofNat 64 (crc32 s.red.epochBuild.2).toNat
        then some { n := n, armed := (wordAt data 0).getLsbD 0, project := wordAt data 8, data := s.red.epochBuild.2 }
        else s.red.epochHeld)) ∧
  (∀ s : State, s.red.role = .active → paired s ∨ s.red.pstate = .detached → s.red.epochPlan = [] →
    s.project.regions ≠ [] → (∀ r ∈ s.project.regions, regionParts s r ≠ []) →
    ∃ q, exec .mirroredEpoch s = next q ∧ q.mono = max s.mono (s.red.lastEpochAt + 1000000 * bits s.red.ctl 36 27) ∧
      q.red.lastEpochAt = q.mono ∧ q.red.epochPlan = s.project.regions.flatMap (regionParts s) ∧
      q.red.epochBuild = (BitVec.ofNat 64 s.clock.ticknum, []) ∧ q.mem = s.mem) ∧
  (∀ s : State, s.red.role ≠ .active ∨ s.red.pstate = .none → exec .mirroredEpoch s = next s)

/-- A heartbeat leaves every microsecond with the role, pair state, mandate and epoch; a received one tells of the peer, follows its pair state, and takes the mandate from a unit of a lower epoch (R377, R378, R397, R401). -/
def Claims.Heartbeats : Prop :=
  (∀ s : State, (∃ k : Fin 2, (Sys2Proof.Machine.laneAt s k.val).granted = true) → s.red.switches = [] →
    ∃ q rest, exec .heartbeatInterval s = next q ∧ q.mono = max s.mono (s.red.heartAt + 1000) ∧ q.red.heartAt = q.mono ∧
      q.red.sent = s.red.sent ++ (⟨1, s.red.mseq, BitVec.ofNat 64 s.clock.ticknum,
        bytesOfWords [heartWord s, BitVec.ofNat 64 s.red.epoch]⟩ : LinkMsg) :: rest ∧ q.mem = s.mem) ∧
  (∀ s : State, (∀ k : Fin 2, (Sys2Proof.Machine.laneAt s k.val).granted = false) → exec .heartbeatInterval s = next s) ∧
  (∀ (lane : Fin 2) (mseq : BitVec 32) (n hb : Word) (epoch : BitVec 32) (s : State), firstCopy s lane mseq →
    (s.red.mandate = true → hb.getLsbD 5 = true → s.red.epoch < epoch.toNat →
      ∃ q, exec (.heartbeat lane mseq n hb epoch) s = next q ∧ isCandidate q ∧ q.red.lingering = false) ∧
    (s.red.mandate = false ∨ hb.getLsbD 5 = false ∨ epoch.toNat ≤ s.red.epoch → s.red.forming = none →
      s.red.peer.pstate = bits hb 4 2 → s.red.role ≠ .standby →
      ∃ q, exec (.heartbeat lane mseq n hb epoch) s = next q ∧ pairOnly s q ∧ q.red.role = s.red.role ∧
        q.red.pstate = s.red.pstate ∧ q.red.mandate = s.red.mandate ∧ q.red.peer = { s.red.peer with
          heard := true, role := bits hb 1 0, pstate := bits hb 4 2, mandate := hb.getLsbD 5, compat := bits hb 21 6,
          epoch := epoch.toNat }) ∧
    (s.red.mandate = false → s.red.forming = none → s.red.role = .standby → bits hb 1 0 = 1 → bits hb 4 2 = 4 →
      s.red.pstate = .copying ∨ s.red.pstate = .confirming →
      ∃ q, exec (.heartbeat lane mseq n hb epoch) s = next q ∧ q.red.pstate = .synced ∧ s.host.evSeq < q.host.evSeq ∧
        q.mem = s.mem))

/-- HBTMO us without a valid message take a lane down; the loss of the last one is reported, and with a peer that was not seen the standby takes over for SILENCE (R378, R395). -/
def Claims.LanesAndSilence : Prop :=
  (∀ (lane other : Fin 2) (s : State), lane ≠ other → (Sys2Proof.Machine.laneAt s lane.val).up = true →
    ((Sys2Proof.Machine.laneAt s other.val).up = true → ∃ q, exec (.laneDown lane) s = next q ∧
      q.mono = max s.mono ((Sys2Proof.Machine.laneAt s lane.val).lastValid + 1000 * bits s.red.ctl 10 3) ∧
      (Sys2Proof.Machine.laneAt q lane.val).up = false ∧ (Sys2Proof.Machine.laneAt q lane.val).valid = 0 ∧
      q.red.linkLost = s.red.linkLost ∧ q.red.takeover = s.red.takeover ∧ q.host = s.host ∧ q.mem = s.mem) ∧
    ((Sys2Proof.Machine.laneAt s other.val).up = false → paired s →
      (s.red.role = .active → ∃ q, exec (.laneDown lane) s = next q ∧ q.red.linkLost = true ∧ q.red.peer.heard = false ∧
        s.host.evSeq < q.host.evSeq ∧ q.red.pstate = s.red.pstate ∧ q.mem = s.mem) ∧
      (s.red.role = .standby → s.red.pstate = .synced → s.red.watched = true → s.red.peerSeen = false →
        s.red.takeover = none → ∃ q t, exec (.laneDown lane) s = next q ∧ q.red.takeover = some t ∧ t.cause = 1 ∧ t.warm = false))) ∧
  (∀ (lane : Fin 2) (s : State), (Sys2Proof.Machine.laneAt s lane.val).up = false → exec (.laneDown lane) s = next s) ∧
  (∀ s : State, s.red.role = .standby → s.red.pstate ≠ .none → bits s.red.pwatch 3 0 ≠ 0 →
    (∃ q, exec (.peerWatchWindow true) s = next q ∧ q.red.peerSeen = true ∧ q.red.watched = true ∧
      q.red.takeover = s.red.takeover ∧ q.red.role = .standby ∧ q.mem = s.mem) ∧
    (lanesUp s = 0 → s.red.linkLost = true → s.red.pstate = .synced → s.red.takeover = none →
      ∃ q t, exec (.peerWatchWindow false) s = next q ∧ q.red.takeover = some t ∧ t.cause = 1 ∧ t.warm = false)) ∧
  (∀ (seen : Bool) (s : State), s.red.role ≠ .standby ∨ bits s.red.pwatch 3 0 = 0 → exec (.peerWatchWindow seen) s = next s)

/-- ABDICATE makes a synced standby take over, at the boundary it names for PLANNED and else at the first one at least 2 us away; a standby that does not follow and holds no epoch stays CANDIDATE (R395, R396, R399). -/
def Claims.DecisionsToTakeOver : Prop :=
  ∀ (lane : Fin 2) (mseq : BitVec 32) (n : Word) (cause : BitVec 4) (s : State), firstCopy s lane mseq →
    s.red.role = .standby → s.red.takeover = none →
    (s.red.pstate = .synced → ∃ q, exec (.abdicate lane mseq n cause) s = next q ∧ pairOnly s q ∧
      q.red.takeover = some { cause := cause.toNat, warm := false
                              boundary := if cause = 5 then n else BitVec.ofNat 64 (boundaryAfter2us s) }) ∧
    (s.red.pstate = .copying ∨ s.red.pstate = .confirming ∨ s.red.pstate = .detached →
      (s.red.epochHeld = none → ∃ q, exec (.abdicate lane mseq n cause) s = next q ∧ isCandidate q ∧
        s.host.evSeq < q.host.evSeq) ∧
      (∀ e, s.red.epochHeld = some e → e.project = s.project.id → ∃ q t, exec (.abdicate lane mseq n cause) s = next q ∧
        q.red.takeover = some t ∧ t.warm = true ∧ t.cause = cause.toNat))

/-- At the transfer boundary the standby becomes ACTIVE with one epoch more and records the cause; without an epoch to start from it stays CANDIDATE; a warm takeover with ARMED = 1 goes on in RUN with REASON 5 (R383, R396, R399). -/
def Claims.Takeovers : Prop :=
  ∀ s : State,
    (s.red.takeover = none → exec .takeover s = next s) ∧
    (∀ t, s.red.takeover = some t →
      (t.warm = false ∨ (t.warm = true ∧ usableEpoch s ≠ none) → ∃ q, exec .takeover s = next q ∧ q.red.role = .active ∧
        q.red.mandate = true ∧ q.red.pstate = .none ∧ q.red.takeover = none ∧ q.red.lastto = t.cause ∧ q.red.lastWarm = t.warm ∧
        q.red.epoch = satTo 32 (max s.red.epoch s.red.peer.epoch + 1) ∧ q.red.takeovers = (satStep 32 s.red.takeovers).1 ∧
        s.host.evSeq < q.host.evSeq) ∧
      (t.warm = true → ∀ e, usableEpoch s = some e → e.armed = true → ∃ q, exec .takeover s = next q ∧
        q.ctl.mode = .run ∧ q.ctl.reason = 5) ∧
      (t.warm = true → usableEpoch s = none → ∃ q, exec .takeover s = next q ∧ isCandidate q ∧ s.host.evSeq < q.host.evSeq))

/-- A latch that has waited SETTLEMAX for settlement waits no longer and the release is counted as unsettled, the 16th in a row ends the pair; CONFIRM ms without trouble make the pair SYNCED (R390, R401). -/
def Claims.SettlementAndConfirmation : Prop :=
  (∀ (stall : StallId) (t : TillId) (r : Release) (s : State), mirroring s = true → s.red.cmpOff = false →
    latchHeld s stall = true → s.red.adjudication = none → retainedTill s stall = some t → waitingRelease s stall = some r →
    s.stalls[stall].pend = [] →
    ∃ q n, exec (.settleTimeout stall) s = next q ∧
      n = ((s.red.unsettledRun.find? (fun x => x.1 == (tillAt s t).rel.task)).map Prod.snd).getD 0 ∧
      q.red.unsettled = (satStep 32 s.red.unsettled).1 ∧
      isSettled q (tillAt s t).rel.task (tillAt s t).rel.relnum = true ∧ s.host.evSeq < q.host.evSeq ∧ q.mem = s.mem ∧
      (n < 15 → q.red.pstate = s.red.pstate) ∧ (15 ≤ n → detachedWith q 13)) ∧
  (∀ (stall : StallId) (s : State), latchHeld s stall = false → exec (.settleTimeout stall) s = next s) ∧
  (∀ (t : Nat) (s : State), s.red.confirmFrom = some t → s.red.role = .active → s.red.pstate = .confirming →
    ∃ q, exec .confirmExpiry s = next q ∧ q.mono = max s.mono (t + 1000000 * bits s.red.ctl 52 37) ∧
      q.red.pstate = .synced ∧ q.red.confirmFrom = none ∧ s.host.evSeq < q.host.evSeq ∧ q.mem = s.mem) ∧
  (∀ s : State, s.red.confirmFrom = none → exec .confirmExpiry s = next s)

/-- PAIR_FORM is refused while a pair exists, without EN, or for the first condition of R400 that fails; a unit with the mandate becomes the active, one whose peer has it the standby; without a peer only SOLOOK takes the mandate (R400, R405, R406). -/
def Claims.PairFormation : Prop :=
  ∀ (ring : Fin 16) (c : Cmd) (peer : PeerInfo) (s : State), atRing s ring 0x90 c → clean c [1] →
    (s.red.pstate ≠ .none → ∃ q, exec (.pairForm ring peer) s = next q ∧ answered s q c 6 8 0 ∧
      q.red = { s.red with reason := 8 }) ∧
    (s.red.pstate = .none → bit s.red.ctl 0 = false → ∃ q, exec (.pairForm ring peer) s = next q ∧ answered s q c 6 2 0 ∧
      q.red = { s.red with reason := 2 }) ∧
    (s.red.pstate = .none → bit s.red.ctl 0 = true →
      (s.red.peer.heard = false → ∃ q, exec (.pairForm ring peer) s = next q ∧ (cmdRing q ring.val).busy = some c ∧
        q.red.pstate = .checking ∧ q.red.forming = some (ring.val, s.mono, bit (opnd c 1) 0)) ∧
      (s.red.peer.heard = true → ∀ p, p = modRed (fun r => { r with peer := peerKnown peer r.peer, pstate := .checking }) s →
        (∀ n, n = formRefusal p → n ≠ 0 → ∃ q, exec (.pairForm ring peer) s = next q ∧ answered s q c 6 (BitVec.ofNat 64 n) 0 ∧
          q.red.reason = n ∧ q.red.pstate = .none ∧ q.red.role = s.red.role) ∧
        (formRefusal p = 0 → s.red.mandate = true → ∃ q, exec (.pairForm ring peer) s = next q ∧ finishedWith q c 0 0 ∧
          q.red.pstate = .copying ∧ q.red.role = .active ∧ q.red.mandate = true ∧ q.red.reason = 0) ∧
        (formRefusal p = 0 → s.red.mandate = false → peer.mandate = true → ∃ q, exec (.pairForm ring peer) s = next q ∧
          q.red.pstate = .copying ∧ q.red.role = .standby ∧ q.red.mandate = false)))

/-- The 100 ms of a formation end with the mandate alone under SOLOOK = 1 and else with NO_PEER; after a DETACHED the active with AUTORS forms again 100 ms later (R400, R406). -/
def Claims.FormationTimers : Prop :=
  (∀ (ring t : Nat) (solo : Bool) (c : Cmd) (s : State), s.red.forming = some (ring, t, solo) → s.red.peer.heard = false →
    (cmdRing s ring).busy = some c → c.ring = ring → s.red.pstate = .checking →
    (solo = true → ∃ q, exec .pairFormTimeout s = next q ∧ q.mono = max s.mono (t + 100000000) ∧ finishedWith q c 0 0 ∧
      q.red.pstate = .none ∧ q.red.role = .active ∧ q.red.mandate = true ∧ q.red.forming = none) ∧
    (solo = false → ∃ q, exec .pairFormTimeout s = next q ∧ q.mono = max s.mono (t + 100000000) ∧ finishedWith q c 6 9 ∧
      q.red.pstate = .none ∧ q.red.reason = 9 ∧ q.red.forming = none ∧ q.red.mandate = s.red.mandate)) ∧
  (∀ s : State, s.red.forming = none → exec .pairFormTimeout s = next s) ∧
  (∀ (t : Nat) (peer : PeerInfo) (p s : State), s.red.autorsFrom = some t → s.red.pstate = .detached → s.red.role = .active →
    p = modRed (fun r => { r with peer := peerKnown peer r.peer }) s →
    (formRefusal p ≠ 0 → ∃ q, exec (.autorsTimer peer) s = next q ∧ q.mono = max s.mono (t + 100000000) ∧
      detachedWith q (formRefusal p) ∧ q.red.autorsFrom = if bit s.red.ctl 2 then some q.mono else none) ∧
    (formRefusal p = 0 → s.red.mandate = true → ∃ q, exec (.autorsTimer peer) s = next q ∧ q.red.pstate = .copying ∧
      q.red.role = .active ∧ q.red.mandate = true)) ∧
  (∀ (peer : PeerInfo) (s : State), s.red.autorsFrom = none → exec (.autorsTimer peer) s = next s)

/-- PAIR_SWITCH names a boundary LEAD after the last one and abdicates to a synced standby, PAIR_LEAVE and LEAVE end the pair with the active keeping the mandate, and PAIR_STATUS gives its record (R403, R405). -/
def Claims.PairCommands : Prop :=
  ∀ (ring : Fin 16) (c : Cmd) (s : State),
    (atRing s ring 0x91 c → clean c [0xFF] →
      (bits (opnd c 1) 7 0 < 2 → ∃ q, exec (.pairSwitch ring) s = next q ∧ answered s q c 2 0 0 ∧ q.red = s.red) ∧
      (2 ≤ bits (opnd c 1) 7 0 → s.red.role = .standby → ∃ q, exec (.pairSwitch ring) s = next q ∧ answered s q c 6 16 0 ∧
        q.red = { s.red with reason := 16 }) ∧
      (2 ≤ bits (opnd c 1) 7 0 → s.red.role = .active → s.red.pstate ≠ .synced →
        ∃ q, exec (.pairSwitch ring) s = next q ∧ answered s q c 6 8 0 ∧ q.red = { s.red with reason := 8 }) ∧
      (2 ≤ bits (opnd c 1) 7 0 → s.red.role = .active → s.red.pstate = .synced → s.red.handover = none →
        ∃ q, exec (.pairSwitch ring) s = next q ∧
          answered s q c 0 (BitVec.ofNat 64 (s.clock.ticknum + bits (opnd c 1) 7 0)) 0 ∧
          q.red.handover = some (s.clock.ticknum + bits (opnd c 1) 7 0, true) ∧ q.red.role = .active)) ∧
    (atRing s ring 0x92 c → clean c [] →
      (s.red.pstate = .none → ∃ q, exec (.pairLeave ring) s = next q ∧ answered s q c 0 0 0 ∧ q.red = s.red) ∧
      (s.red.pstate ≠ .none → s.red.role = .active → s.red.forming = none → ∃ q, exec (.pairLeave ring) s = next q ∧ answered s q c 0 0 0 ∧
        q.red.pstate = .none ∧ q.red.reason = 15 ∧ q.red.role = .active ∧ q.red.mandate = s.red.mandate) ∧
      (s.red.pstate ≠ .none → s.red.role = .standby → s.ctl.waits = [] → ∃ q, exec (.pairLeave ring) s = next q ∧
        finishedWith q c 0 0 ∧ isCandidate q ∧ q.red.reason = 15)) ∧
    (∀ (lane : Fin 2) (mseq : BitVec 32), firstCopy s lane mseq → s.red.pstate ≠ .none → s.red.takeover = none →
      (s.red.role = .active → ∃ q, exec (.leave lane mseq) s = next q ∧ q.red.pstate = .none ∧ q.red.reason = 15 ∧
        q.red.role = .active ∧ q.red.mandate = s.red.mandate ∧ q.mem = s.mem) ∧
      (s.red.role = .standby → ∃ q, exec (.leave lane mseq) s = next q ∧ isCandidate q ∧ q.red.reason = 15)) ∧
    (atRing s ring 0x93 c → transfers s 6 → clean c [~~~0] → (opnd c 1).toNat % 64 = 0 →
      ∃ q bs, exec (.pairStatus ring) s = next q ∧ answered s q c 0 0 0 ∧
        q.host.posted = s.host.posted ++ [.write (opnd c 1).toNat bs] ∧ bs.length = 64 ∧ q.red = s.red ∧
        wordAt bs 8 = s.red.peer.serial ∧ wordAt bs 16 = ((s.red.epochHeld.map (fun e => e.n)).getD 0) ∧
        wordAt bs 24 = BitVec.ofNat 64 s.red.cmpok)

/-- A command ring's base and configuration change only while EN = 0, but for EN; enabling sets its indices to 0 and ends a halt, disabling discards what was fetched and not begun; the same for the completion rings and the event ring (R359 to R361). -/
def Claims.RingConfiguration : Prop :=
  ∀ (n : Fin 16) (off : BitVec 12) (v : Word) (s : State),
    (off.toNat = 0x100 + 8 * n.val → ∃ q, exec (.ringConfigWrite off v) s = next q ∧ (cmdRing q n.val).base =
      if bit (cmdRing s n.val).cfg 0 then (cmdRing s n.val).base else BitVec.ofNat 64 (v.toNat / 4096 * 4096)) ∧
    (off.toNat = 0x180 + 8 * n.val → bit (cmdRing s n.val).cfg 0 = false → 4 ≤ bits v 4 1 →
      ∃ q, exec (.ringConfigWrite off v) s = next q ∧ bits (cmdRing q n.val).cfg 10 0 = bits v 10 0 ∧
        (bit v 0 = true → (cmdRing q n.val).cons = 0 ∧ (cmdRing q n.val).halt = false ∧ (cmdRing q n.val).hcause = 0 ∧
          (cmdRing q n.val).fetched = [])) ∧
    (off.toNat = 0x180 + 8 * n.val → bit (cmdRing s n.val).cfg 0 = true → bit v 0 = false →
      ∃ q, exec (.ringConfigWrite off v) s = next q ∧ bits (cmdRing q n.val).cfg 10 1 = bits (cmdRing s n.val).cfg 10 1 ∧
        bit (cmdRing q n.val).cfg 0 = false ∧ (cmdRing q n.val).fetched = [] ∧ (cmdRing q n.val).fetching = none) ∧
    (off.toNat = 0x300 + 8 * n.val → bit (outRing s n.val).cfg 0 = false → 4 ≤ bits v 4 1 →
      ∃ q, exec (.ringConfigWrite off v) s = next q ∧ bits (outRing q n.val).cfg 20 0 = bits v 20 0) ∧
    (off.toNat = 0x38 → bit s.host.ev.cfg 0 = false → 4 ≤ bits v 4 1 →
      ∃ q, exec (.ringConfigWrite off v) s = next q ∧ bits q.host.ev.cfg 20 0 = bits v 20 0) ∧
    (writeRingReg off.toNat v s = none → exec (.ringConfigWrite off v) s = next s)

/-! ### Reset, encoding and the whole machine -/

/-- Register values after reset that the manual states, by BAR0 offset (R115, R175, R245, R359, R360, R367, R406). -/
def resetTable : List (Nat × Word) :=
  [(0x8010, 0x40_0000), (0x9010, 0x64), (0x9038, 0x8), (0x1_4000, 0x3E80_5080_5024), (0x1_4008, 0), (0x1_9000, 0x2),
   (0x1_5008, 0x6414), (0x1_6008, 0x6414), (0x1_7008, 0x6414), (0x1_8008, 0x6414), (0x1_0100, 0x82_0834_0001)]

/-- What reset leaves: the mode HELD, outputs disarmed, no command, the stated register values and zero in all SRAM (R62, R535, R542). -/
def Claims.ResetValues : Prop :=
  State.reset.pending = [] ∧ State.reset.ctl.mode = .held ∧ State.reset.ctl.armed = false ∧
    State.reset.power.ready = false ∧ (∀ p ∈ resetTable, readReg State.reset p.1 = some p.2) ∧
    (∀ n, n < 16 → readReg State.reset (0x9180 + 8 * n) = some 0x408 ∧ readReg State.reset (0x9300 + 8 * n) = some 0x8) ∧
    (∀ a, a < flashBase → readByte State.reset a = 0) ∧ Memory.wf State.reset.mem = true

/-- A step keeps the canonical form of memory, whatever the state and the command. -/
def Claims.StepsKeepMemoryCanonical : Prop :=
  ∀ s q : State, Memory.wf s.mem = true → step s = next q → Memory.wf q.mem = true

/-- Every command answers a next state in every state: the block never stops. -/
def Claims.EveryCommandCompletes : Prop := ∀ (i : Instr) (s : State), ∃ q, exec i s = next q

/-- The word of every Tally instruction decodes to it with every operand, and the word of a decoded instruction is the one it was read from (R122 to R153). -/
def Claims.TallyWordsRoundTrip : Prop :=
  (∀ (i : Instr) (w : BitVec 32), encodeTally i = some w → ∃ t, decodeTally t w = some i) ∧
  (∀ (t : TillId) (i : Instr) (w : BitVec 32), decodeTally t w = some i → encodeTally i = some w)

/-- A word of each format read as the encoding tables lay it out, and words with no meaning (R122, R125 to R153). -/
def Claims.TallyWordsAsWritten : Prop :=
  ∀ t : TillId,
    decodeTally t 0b0000000000_00010_00001_00011_0000101 = some (.add t 3 1 2) ∧
    decodeTally t 0b111111111111_000_00100_00101_0001001 = some (.addk t 5 4 0xFFF) ∧
    decodeTally t 0b000011_000111_110_00100_00101_0001001 = some (.rotrk t 5 4 7) ∧
    decodeTally t 0b00000000000000000001_00110_1000001 = some (.lup t 6 1) ∧
    decodeTally t 0b000000001000_000_11101_00111_0010001 = some (.ldD t 7 29 8) ∧
    decodeTally t 0b0000001_000_00010_00001_00100_0010101 = some (.stD t 1 2 0x24) ∧
    decodeTally t 0b000001_1000_00011_00010_00001_0011001 = some (.lput t 1 2 3 1) ∧
    decodeTally t 0b000000000100_001_00010_00001_0011101 = some (.bcr t 1 1 2 4) ∧
    decodeTally t 0b111111111110_01_000101_00011_0100101 = some (.bbc t 3 5 0xFFE) ∧
    decodeTally t 0b000000000000_010_11110_00000_0111101 = some (.ret t 0 30 0) ∧
    decodeTally t 0 = none ∧ decodeTally t 0b0001010100_00010_00001_00011_0000101 = none

end Sys2Proof

/-- A step takes the command at the front of the queue and runs exec on it (7. NORMATIVE RULES). -/
def Obligations.StepRunsTheFrontCommand : Prop :=
  Sys2Proof.Claims.StepRunsTheFrontCommand

/-- On an empty queue 1 ns passes and nothing else changes (the model's choice, log 1) (7. NORMATIVE RULES). -/
def Obligations.EmptyQueueTicks : Prop :=
  Sys2Proof.Claims.EmptyQueueIdles

/-- What reset leaves (R62, R535, R542). -/
def Obligations.ResetLeavesTheStatedValues : Prop :=
  Sys2Proof.Claims.ResetValues

/-- Words of each Tally format read as the encoding tables lay them out (R122, R125). -/
def Obligations.TallyWordsReadAsWritten : Prop :=
  Sys2Proof.Claims.TallyWordsAsWritten

/-- Encoding and decoding of Tally words agree both ways (R122, R125, R126, R128, R129, R130, R134, R138, R142, R144, R148, R153). -/
def Obligations.TallyWordsRoundTrip : Prop :=
  Sys2Proof.Claims.TallyWordsRoundTrip

/-- Every step keeps the canonical form of memory (R27). -/
def Obligations.StepsKeepMemoryCanonical : Prop :=
  Sys2Proof.Claims.StepsKeepMemoryCanonical

/-- The ALU group without division writes its results (R126, R162). -/
def Obligations.AluGroupResults : Prop :=
  Sys2Proof.Claims.AluResults ∧ Sys2Proof.Claims.UnaryResults

/-- Divisions give quotient and remainder, a zero divisor raises DIVZERO (R126, R127, R164, R167). -/
def Obligations.DivisionResults : Prop :=
  Sys2Proof.Claims.DivisionResults

/-- The ALUI group computes from a register and a constant (R128). -/
def Obligations.ConstantGroupResults : Prop :=
  Sys2Proof.Claims.ConstantResults

/-- LUP writes its constant times 4,096 (R129). -/
def Obligations.LupWritesShiftedConstant : Prop :=
  Sys2Proof.Claims.LupResult

/-- The FPU group writes its results, never traps, and gives the special results of R131 (R131). -/
def Obligations.FpuGroupResults : Prop :=
  Sys2Proof.Claims.FpuResults ∧ Sys2Proof.Claims.FpuSpecialResults

/-- The word registers, and the frame of the register-only instructions (R119, R126, R130). -/
def Obligations.RegisterFileAndFrame : Prop :=
  Sys2Proof.Claims.WordRegisters ∧ Sys2Proof.Claims.RegisterRowsFrame

/-- Loads from local data, instance areas and image sections (R29, R52, R53, R138). -/
def Obligations.LoadResults : Prop :=
  Sys2Proof.Claims.LoadResults ∧ Sys2Proof.Claims.SectionLoads

/-- Stores to local data and held stores to the output section, with their memory frames (R29, R53, R138). -/
def Obligations.StoreResults : Prop :=
  Sys2Proof.Claims.LocalStores ∧ Sys2Proof.Claims.OutputStoresAreHeld

/-- Misaligned and forbidden data addresses and transfer targets trap with the address (R135, R136, R140, R163, R167). -/
def Obligations.AddressTraps : Prop :=
  Sys2Proof.Claims.DataAddressTraps ∧ Sys2Proof.Claims.ControlTransferTraps

/-- Lane operations and edge detection (R142, R143, R144). -/
def Obligations.LaneAndEdgeResults : Prop :=
  Sys2Proof.Claims.LaneResults ∧ Sys2Proof.Claims.EdgeResults

/-- LR.D and SC.D with the reservation (R89, R148, R149). -/
def Obligations.AtomicResults : Prop :=
  Sys2Proof.Claims.AtomicResults

/-- Compare-and-branch and bit-branch instructions (R132, R133). -/
def Obligations.BranchResults : Prop :=
  Sys2Proof.Claims.BranchResults ∧ Sys2Proof.Claims.BitBranchResults

/-- Jumps, calls, returns, and the end of a task body (R54, R77, R134, R135). -/
def Obligations.JumpAndReturnResults : Prop :=
  Sys2Proof.Claims.JumpResults ∧ Sys2Proof.Claims.BodyEnds

/-- NOP, TMRQ, SYS and FENCE (R38, R89, R146, R152, R153, R154). -/
def Obligations.SystemGroupResults : Prop :=
  Sys2Proof.Claims.NopAdvancesPc ∧ Sys2Proof.Claims.TmrqResults ∧ Sys2Proof.Claims.SysCallResults ∧ Sys2Proof.Claims.FenceResults

/-- Breakpoints, lost reservations, illegal words, and transient faults of a Till (R68, R89, R107, R112, R125, R149). -/
def Obligations.TillEventsAndFaults : Prop :=
  Sys2Proof.Claims.TillEvents ∧ Sys2Proof.Claims.TransientFaults

/-- Release signals, dispatch, and the start registers of a release (R46, R47, R52, R59, R60, R121). -/
def Obligations.ReleasesAndDispatch : Prop :=
  Sys2Proof.Claims.ReleaseSignals ∧ Sys2Proof.Claims.DispatchStartsRelease ∧ Sys2Proof.Claims.StartRegisters

/-- Run-ahead starts and comparisons, and event releases (R75, R76, R77, R83, R84, R93, R94, R114, R320, R392). -/
def Obligations.SpeculationAndEvents : Prop :=
  Sys2Proof.Claims.SpeculationStarts ∧ Sys2Proof.Claims.ComparisonEnds ∧ Sys2Proof.Claims.EventTasks

/-- Bank transactions in their order, and commits of output sections (R33, R34, R35, R52, R54, R55, R60, R73, R104, R303). -/
def Obligations.BanksAndCommits : Prop :=
  Sys2Proof.Claims.BankOrder ∧ Sys2Proof.Claims.BankTransactionsEnd ∧ Sys2Proof.Claims.CommitsWriteSections

/-- Doorbell polls, descriptor fetches, and the beginning of ring commands (R344, R346, R347, R350, R358). -/
def Obligations.PollingAndDescriptors : Prop :=
  Sys2Proof.Claims.Polling ∧ Sys2Proof.Claims.DescriptorFetch ∧ Sys2Proof.Claims.CommandsBegin

/-- Completions, the event ring, IMOD and HOSTTMO (R335, R347, R348, R350, R356, R357, R358, R435). -/
def Obligations.CompletionsAndHostEvents : Prop :=
  Sys2Proof.Claims.CommandCompletion ∧ Sys2Proof.Claims.FinishAnswersOnce ∧ Sys2Proof.Claims.HostEvents

/-- Host resets, Bus Master Enable, and the configuration of rings (R337, R339, R359, R360, R361, R370). -/
def Obligations.HostResetsAndRingSetup : Prop :=
  Sys2Proof.Claims.HostResets ∧ Sys2Proof.Claims.RingConfiguration

/-- Ring NOP and FENCE, and the mailboxes (R39, R349, R351, R362, R363). -/
def Obligations.NopFenceAndMailboxes : Prop :=
  Sys2Proof.Claims.NopAndFence ∧ Sys2Proof.Claims.Mailboxes

/-- DMA commands, bursts, failures and channel control (R27, R351, R364, R365, R366, R369, R370, R371). -/
def Obligations.DmaCommandsAndChannels : Prop :=
  Sys2Proof.Claims.DmaCommands ∧ Sys2Proof.Claims.DmaChannels

/-- ARM, DISARM, RUN and STOP, and what they do at their boundary (R20, R62, R63, R64, R65, R66, R82). -/
def Obligations.ModeCommandsAndEffects : Prop :=
  Sys2Proof.Claims.ModeCommands ∧ Sys2Proof.Claims.ModeEffects

/-- CONTINUE, STEP, breakpoints, and the task records (R68, R70, R73, R74, R353, R354). -/
def Obligations.DebugAndTaskRecords : Prop :=
  Sys2Proof.Claims.DebugCommands ∧ Sys2Proof.Claims.TaskRecords

/-- Watchdog services, periods, check-ins and keys (R410, R411, R412, R413, R416, R418, R420, R421, R437). -/
def Obligations.WatchdogBehaviour : Prop :=
  Sys2Proof.Claims.WatchdogServices ∧ Sys2Proof.Claims.WatchdogPeriods ∧ Sys2Proof.Claims.WatchdogKeys

/-- The Purse, selected counters and registers, and the scrubber (R19, R26, R115, R118, R408, R426, R428, R430, R435, R436, R547). -/
def Obligations.PurseAndSelection : Prop :=
  Sys2Proof.Claims.PurseRequests ∧ Sys2Proof.Claims.SelectionRegisters ∧ Sys2Proof.Claims.Scrubbing

/-- Power loss, and the rows that enter a reset (R80, R416, R434, R439, R492, R526, R527, R528, R529, R530, R531, R532). -/
def Obligations.PowerLossAndResets : Prop :=
  Sys2Proof.Claims.PowerLoss ∧ Sys2Proof.Claims.ResetEntries

/-- Release of a reset, PLLs, READY, recovery mode, and the backup domain (R423, R435, R440, R513, R532, R533, R534, R535, R536, R537, R538). -/
def Obligations.StartUpAfterReset : Prop :=
  Sys2Proof.Claims.StartUp

/-- The RTC: counting, adjustment, writes, and the RTC commands (R441, R442, R443, R444, R445, R446, R447, R448, R449, R450, R451, R467). -/
def Obligations.RealTimeClock : Prop :=
  Sys2Proof.Claims.RtcCounting ∧ Sys2Proof.Claims.RtcCommands

/-- Flash programs and erases, the identity page, and refresh (R440, R470, R471, R472, R473, R488, R491, R516). -/
def Obligations.FlashAndUpkeep : Prop :=
  Sys2Proof.Claims.FlashOperations ∧ Sys2Proof.Claims.FlashUpkeep

/-- Base tick boundaries and time comparators (R44, R47, R273, R274, R277, R278, R279, R282, R284, R287). -/
def Obligations.TicksAndComparators : Prop :=
  Sys2Proof.Claims.TickBoundaries ∧ Sys2Proof.Claims.TimeComparators

/-- Corrections, slews and rates of the synchronised clock (R263, R265, R266, R267, R268, R274, R275). -/
def Obligations.ClockCorrectionsAndRates : Prop :=
  Sys2Proof.Claims.ClockCorrections ∧ Sys2Proof.Claims.ClockRates

/-- TIME_CONFIG, TIME_STATUS and the states of the time-sync service (R271, R272, R275, R351, R352). -/
def Obligations.TimeSyncService : Prop :=
  Sys2Proof.Claims.TimeCommands ∧ Sys2Proof.Claims.SyncStates

/-- Network ports: enables, links, verification, gates and counters (R250, R251, R252, R253, R254, R255, R256, R293). -/
def Obligations.NetworkPorts : Prop :=
  Sys2Proof.Claims.NetworkPorts

/-- Cyclic frames sent and received, and their receive windows (R250, R254, R255, R285, R289, R290, R291, R292, R293, R536). -/
def Obligations.CyclicFrames : Prop :=
  Sys2Proof.Claims.FramesSent ∧ Sys2Proof.Claims.FramesReceived ∧ Sys2Proof.Claims.ReceiveWindows

/-- Comparator inputs, field registers, and analog samples (R76, R299, R300, R310, R311, R312, R314, R316, R329, R330, R331, R332). -/
def Obligations.FieldInputsAndAnalog : Prop :=
  Sys2Proof.Claims.FieldInputs ∧ Sys2Proof.Claims.FieldRegisters ∧ Sys2Proof.Claims.AnalogInputs

/-- Input and output times of the field die, and what holds a switch open (R303, R304, R305, R306, R307, R308, R317, R326, R328). -/
def Obligations.FieldTimesAndSwitches : Prop :=
  Sys2Proof.Claims.FieldSampleTimes ∧ Sys2Proof.Claims.FieldOutputTimes ∧ Sys2Proof.Claims.SwitchesHeldOpen

/-- Generators, reflexes, trips, and group supply faults (R318, R321, R322, R325, R326, R327, R328). -/
def Obligations.FieldGeneratorsAndTrips : Prop :=
  Sys2Proof.Claims.FieldGenerators ∧ Sys2Proof.Claims.FieldProtection

/-- Motion cycles, hand-offs, deadlines and engine registers (R198, R200, R202, R244, R245, R246, R247, R248). -/
def Obligations.MotionCycles : Prop :=
  Sys2Proof.Claims.MotionCycles

/-- The coded set-point stays within 127 and 128 LSB of the computed one (R236). -/
def Obligations.MotionCodesFollowSetpoints : Prop :=
  Sys2Proof.Claims.CodesFollowSetpoints

/-- The recorder, LOG_EVENT and CAL_CONVERT (R452, R455, R456, R457, R458, R459, R462, R467, R580). -/
def Obligations.RecorderAndTaskServices : Prop :=
  Sys2Proof.Claims.RecorderCommands ∧ Sys2Proof.Claims.TaskServices

/-- Trend channels, and the tolerance that their stored lines keep (R463, R464, R466, R467). -/
def Obligations.TrendCommandsAndLines : Prop :=
  Sys2Proof.Claims.TrendCommands ∧ Sys2Proof.Claims.TrendLines

/-- Parameter records by ring command and by task service (R482, R483, R484, R485, R487, R490, R519, R580). -/
def Obligations.ParameterStore : Prop :=
  Sys2Proof.Claims.ParameterCommands ∧ Sys2Proof.Claims.ParameterServices

/-- SEC_PROVISION, SEC_KEYLOAD and ATTEST, whatever the cryptographic functions are (R499, R500, R501). -/
def Obligations.SecurityCommands : Prop :=
  Sys2Proof.Claims.SecurityCommands

/-- Project and change images, cam tables, and forces (R170, R188, R189, R190, R191, R192, R193, R194, R219, R495, R510, R511). -/
def Obligations.ImagesCamsAndForces : Prop :=
  Sys2Proof.Claims.ImageLoads ∧ Sys2Proof.Claims.CamsAndForces

/-- Online changes, XWRITE and exchange windows (R171, R172, R174, R176, R178, R179). -/
def Obligations.ChangesAndWindows : Prop :=
  Sys2Proof.Claims.ChangeCommands ∧ Sys2Proof.Claims.ExchangeWindows

/-- Firmware slots, live exchange, the recovery mailbox and port (R291, R504, R505, R506, R507, R508, R512, R513, R514, R515). -/
def Obligations.FirmwareAndRecovery : Prop :=
  Sys2Proof.Claims.FirmwareCommands ∧ Sys2Proof.Claims.EngineSwaps ∧ Sys2Proof.Claims.RecoveryMailbox ∧ Sys2Proof.Claims.RecoveryPort

/-- Reception on the Bolist link, and mirrored releases on the standby (R376, R377, R378, R385, R386, R387). -/
def Obligations.LinkAndMirroredReleases : Prop :=
  Sys2Proof.Claims.LinkReception ∧ Sys2Proof.Claims.MirroredReleases

/-- Hash comparison, adjudication, forwarded commands, and the state copy (R385, R388, R390, R391, R392, R393, R401). -/
def Obligations.HashesVerdictsAndControl : Prop :=
  Sys2Proof.Claims.HashesAndVerdicts ∧ Sys2Proof.Claims.ForwardedCommandsAndCopy

/-- Heartbeats, lanes, silence, and mirrored epochs (R377, R378, R395, R397, R398, R401). -/
def Obligations.HeartbeatsLanesAndEpochs : Prop :=
  Sys2Proof.Claims.Heartbeats ∧ Sys2Proof.Claims.LanesAndSilence ∧ Sys2Proof.Claims.MirroredEpochs

/-- The decision to take over, takeover, settlement and confirmation (R383, R390, R395, R396, R399, R401). -/
def Obligations.TakeoverAndSettlement : Prop :=
  Sys2Proof.Claims.DecisionsToTakeOver ∧ Sys2Proof.Claims.Takeovers ∧ Sys2Proof.Claims.SettlementAndConfirmation

/-- Formation of a pair, its timers, and the pair commands (R400, R403, R405, R406). -/
def Obligations.PairFormationAndCommands : Prop :=
  Sys2Proof.Claims.PairFormation ∧ Sys2Proof.Claims.FormationTimers ∧ Sys2Proof.Claims.PairCommands

/-- Every command answers a next state in every state (7. NORMATIVE RULES). -/
def Obligations.EveryCommandCompletes : Prop :=
  Sys2Proof.Claims.EveryCommandCompletes
end

