-- ==== Sys2Proof/Laws/Bits.lean ====
section
/-!
SUPPORT. Byte strings and words: what is laid out little-endian is read back.
-/
namespace Sys2Proof.Machine

@[simp] theorem length_bytesOfNat (n v : Nat) : (bytesOfNat n v).length = n := by
  induction n generalizing v with
  | zero => rfl
  | succ n ih => simp [bytesOfNat, ih]

@[simp] theorem length_bytesOfWord (w : Word) : (bytesOfWord w).length = 8 := length_bytesOfNat 8 _

/-- A number laid out in n bytes is read back modulo 256^n. -/
theorem natOfBytes_bytesOfNat (n v : Nat) : natOfBytes (bytesOfNat n v) = v % 256 ^ n := by
  induction n generalizing v with
  | zero => simp [bytesOfNat, natOfBytes, Nat.mod_one]
  | succ n ih =>
    simp only [bytesOfNat, natOfBytes, ih, BitVec.toNat_ofNat]
    rw [show (256 : Nat) ^ (n + 1) = 256 * 256 ^ n by rw [Nat.pow_succ, Nat.mul_comm], Nat.mod_mul]

/-- The word laid out in a byte string is read back. -/
@[simp] theorem wordOfBytes_bytesOfWord (w : Word) (r : List Byte) : wordOfBytes (bytesOfWord w ++ r) = w := by
  have e : (bytesOfWord w ++ r).take 8 = bytesOfWord w := by
    rw [List.take_append_of_le_length (by simp), List.take_of_length_le (by simp)]
  have l : w.toNat < 256 ^ 8 := w.isLt
  rw [wordOfBytes, e, bytesOfWord, natOfBytes_bytesOfNat, Nat.mod_eq_of_lt l]
  exact BitVec.eq_of_toNat_eq (by simp)

/-- A field of n bits at bit 0 is read back. -/
theorem bits_field_zero (n v : Nat) (hv : v < 2 ^ (n + 1)) (h : n < 64) : bits (field 0 v) n 0 = v := by
  have h2 : v < 2 ^ 64 := Nat.lt_of_lt_of_le hv (Nat.pow_le_pow_right (by omega) (by omega))
  simp only [bits, field, Nat.shiftLeft_zero, Nat.shiftRight_zero, BitVec.toNat_ofNat, Nat.mod_eq_of_lt h2, Nat.sub_zero]
  exact Nat.mod_eq_of_lt hv

@[simp] theorem length_fitBytes (n : Nat) (l : List Byte) : (fitBytes n l).length = n := by
  simp [fitBytes]; omega

end Sys2Proof.Machine
end

