-- ==== Sys2Proof/Laws/Memory.lean ====
section
/-!
SUPPORT. What the memory operations do: every one keeps the canonical form, a byte written is read back, and every other byte stays.
-/
namespace Sys2Proof.Machine

/-! ### The canonical form -/

theorem wfFrom_of_le {lo hi : Nat} {m : List Host.Cell} (h : lo ≤ hi) (w : Memory.wfFrom hi m = true) :
    Memory.wfFrom lo m = true := by
  cases m with
  | nil => rfl
  | cons c r =>
    simp only [Memory.wfFrom, Bool.and_eq_true, decide_eq_true_eq] at w ⊢
    exact ⟨⟨by omega, w.1.2⟩, w.2⟩

theorem wfFrom_filter (p : Host.Cell → Bool) {lo : Nat} {m : List Host.Cell} (w : Memory.wfFrom lo m = true) :
    Memory.wfFrom lo (m.filter p) = true := by
  induction m generalizing lo with
  | nil => rfl
  | cons c r ih =>
    simp only [Memory.wfFrom, Bool.and_eq_true, decide_eq_true_eq] at w
    rw [List.filter_cons]
    split
    · simp only [Memory.wfFrom, Bool.and_eq_true, decide_eq_true_eq]
      exact ⟨w.1, ih w.2⟩
    · exact ih (wfFrom_of_le (by omega) w.2)

theorem wfFrom_append {lo hi : Nat} {a b : List Host.Cell} (wa : Memory.wfFrom lo a = true) (wb : Memory.wfFrom hi b = true)
    (hle : lo ≤ hi) (below : ∀ c ∈ a, c.1 < hi) : Memory.wfFrom lo (a ++ b) = true := by
  induction a generalizing lo with
  | nil => exact wfFrom_of_le hle wb
  | cons c r ih =>
    simp only [List.cons_append, Memory.wfFrom, Bool.and_eq_true, decide_eq_true_eq] at wa ⊢
    exact ⟨wa.1, ih wa.2 (below c (by simp)) (fun x hx => below x (by simp [hx]))⟩

/-- The cells of a canonical memory from an address on start no lower than it. -/
theorem wfFrom_filter_ge (k : Nat) {lo : Nat} {m : List Host.Cell} (w : Memory.wfFrom lo m = true) :
    Memory.wfFrom k (m.filter (fun c => k ≤ c.1)) = true := by
  induction m generalizing lo with
  | nil => rfl
  | cons c r ih =>
    simp only [Memory.wfFrom, Bool.and_eq_true, decide_eq_true_eq] at w
    rw [List.filter_cons]
    split
    · next h =>
      simp only [Memory.wfFrom, Bool.and_eq_true, decide_eq_true_eq]
      exact ⟨⟨by simpa using h, w.1.2⟩, wfFrom_filter _ w.2⟩
    · exact ih w.2

theorem cellsFrom_bounds {a : Nat} {bs : List Byte} {c : Host.Cell} (h : c ∈ cellsFrom a bs) :
    a ≤ c.1 ∧ c.1 < a + bs.length := by
  induction bs generalizing a with
  | nil => simp [cellsFrom] at h
  | cons b r ih =>
    simp only [cellsFrom] at h
    simp only [List.length_cons]
    split at h
    · have := ih h; omega
    · rcases List.mem_cons.mp h with rfl | h
      · simp
      · have := ih h; omega

theorem cellsFrom_wf (a : Nat) (bs : List Byte) : Memory.wfFrom a (cellsFrom a bs) = true := by
  induction bs generalizing a with
  | nil => rfl
  | cons b r ih =>
    simp only [cellsFrom]
    split
    · exact wfFrom_of_le (by omega) (ih (a + 1))
    · next h => simp [Memory.wfFrom, h, ih (a + 1)]

/-- A write keeps the canonical form. -/
theorem memSplice_wf {m : List Host.Cell} (a : Nat) (bs : List Byte) (w : Memory.wf m = true) :
    Memory.wf (memSplice m a bs) = true := by
  have h1 : Memory.wfFrom 0 (m.filter (fun c => c.1 < a) ++ cellsFrom a bs) = true :=
    wfFrom_append (wfFrom_filter _ w) (cellsFrom_wf a bs) (by omega) (by simp)
  exact wfFrom_append h1 (wfFrom_filter_ge (a + bs.length) w) (by omega) (fun c hc => by
    rcases List.mem_append.mp hc with h | h
    · have : c.1 < a := by simpa using (List.mem_filter.mp h).2
      omega
    · exact (cellsFrom_bounds h).2)

/-- Cells dropped from a canonical memory leave it canonical. -/
theorem filter_wf (p : Host.Cell → Bool) {m : List Host.Cell} (w : Memory.wf m = true) : Memory.wf (m.filter p) = true :=
  wfFrom_filter p w

/-! ### Reading -/

theorem memGet_absent {m : List Host.Cell} {x : Nat} (h : ∀ c ∈ m, c.1 ≠ x) : memGet m x = blank x := by
  induction m with
  | nil => rfl
  | cons c r ih =>
    simp only [memGet, if_neg (h c (by simp))]
    exact ih (fun d hd => h d (by simp [hd]))

theorem memGet_append_right {a : List Host.Cell} (b : List Host.Cell) {x : Nat} (h : ∀ c ∈ a, c.1 ≠ x) :
    memGet (a ++ b) x = memGet b x := by
  induction a with
  | nil => rfl
  | cons c r ih =>
    simp only [List.cons_append, memGet, if_neg (h c (by simp))]
    exact ih (fun d hd => h d (by simp [hd]))

theorem memGet_append_left (a : List Host.Cell) {b : List Host.Cell} {x : Nat} (h : ∀ c ∈ b, c.1 ≠ x) :
    memGet (a ++ b) x = memGet a x := by
  induction a with
  | nil => exact memGet_absent h
  | cons c r ih =>
    simp only [List.cons_append, memGet]
    split <;> simp [ih]

/-- Dropping cells by their address leaves the addresses that stay as they read. -/
theorem memGet_filter (p : Nat → Bool) (m : List Host.Cell) {x : Nat} (h : p x = true) :
    memGet (m.filter (fun c => p c.1)) x = memGet m x := by
  induction m with
  | nil => rfl
  | cons c r ih =>
    rw [List.filter_cons]
    by_cases e : c.1 = x
    · simp [memGet, e, h]
    · split
      · simp only [memGet, if_neg e, ih]
      · simp only [memGet, if_neg e, ih]

/-- An address whose cells are dropped reads as unlisted. -/
theorem memGet_filter_out (p : Nat → Bool) (m : List Host.Cell) {x : Nat} (h : p x = false) :
    memGet (m.filter (fun c => p c.1)) x = blank x :=
  memGet_absent (fun c hc e => by
    have := (List.mem_filter.mp hc).2
    rw [e, h] at this
    exact absurd this (by simp))

theorem memGet_cellsFrom (a : Nat) (bs : List Byte) (i : Nat) (h : i < bs.length) :
    memGet (cellsFrom a bs) (a + i) = bs[i] := by
  induction bs generalizing a i with
  | nil => simp at h
  | cons b r ih =>
    cases i with
    | zero =>
      simp only [cellsFrom, Nat.add_zero, List.getElem_cons_zero]
      split
      · next e =>
        rw [e]
        exact memGet_absent (fun c hc => by have := cellsFrom_bounds hc; omega)
      · simp [memGet]
    | succ k =>
      have hk : k < r.length := by simpa using h
      have e : a + (k + 1) = (a + 1) + k := by omega
      simp only [cellsFrom, List.getElem_cons_succ]
      split
      · rw [e, ih (a + 1) k hk]
      · rw [memGet, if_neg (by omega), e, ih (a + 1) k hk]

/-- A write leaves every address outside its bytes alone. -/
theorem memGet_splice_outside (m : List Host.Cell) {a x : Nat} (bs : List Byte) (h : x < a ∨ a + bs.length ≤ x) :
    memGet (memSplice m a bs) x = memGet m x := by
  have hc : ∀ c ∈ cellsFrom a bs, c.1 ≠ x := fun c hc => by have := cellsFrom_bounds hc; omega
  unfold memSplice
  rcases h with h | h
  · rw [memGet_append_left _ (fun c hc => by have := (List.mem_filter.mp hc).2; simp at this; omega),
      memGet_append_left _ hc, memGet_filter (fun k => decide (k < a)) m (by simpa using h)]
  · rw [List.append_assoc,
      memGet_append_right _ (fun c hc => by have := (List.mem_filter.mp hc).2; simp at this; omega),
      memGet_append_right _ hc, memGet_filter (fun k => decide (a + bs.length ≤ k)) m (by simpa using h)]

/-- A write stores its bytes. -/
theorem memGet_splice_inside (m : List Host.Cell) (a : Nat) (bs : List Byte) (i : Nat) (h : i < bs.length) :
    memGet (memSplice m a bs) (a + i) = bs[i] := by
  unfold memSplice
  rw [memGet_append_left _ (fun c hc => by have := (List.mem_filter.mp hc).2; simp at this; omega),
    memGet_append_right _ (fun c hc => by have := (List.mem_filter.mp hc).2; simp at this; omega),
    memGet_cellsFrom a bs i h]

/-! ### The operations on a state -/

@[simp] theorem readByte_putBytes_outside (s : State) {a x : Nat} (bs : List Byte) (h : x < a ∨ a + bs.length ≤ x) :
    readByte (putBytes s a bs) x = readByte s x := memGet_splice_outside s.mem bs h

@[simp] theorem readByte_putBytes_inside (s : State) (a : Nat) (bs : List Byte) (i : Nat) (h : i < bs.length) :
    readByte (putBytes s a bs) (a + i) = bs[i] := memGet_splice_inside s.mem a bs i h

@[simp] theorem length_readBytes (s : State) (a n : Nat) : (readBytes s a n).length = n := by
  induction n generalizing a with
  | zero => rfl
  | succ n ih => simp [readBytes, ih]

theorem getElem_readBytes (s : State) (a n i : Nat) (h : i < (readBytes s a n).length) :
    (readBytes s a n)[i] = readByte s (a + i) := by
  induction n generalizing a i with
  | zero => simp [readBytes] at h
  | succ n ih =>
    cases i with
    | zero => simp [readBytes]
    | succ k =>
      simp only [readBytes, List.getElem_cons_succ, ih (a + 1) k (by simpa [readBytes] using h)]
      congr 1; omega

/-- Two states that agree on a range read the same bytes from it. -/
theorem readBytes_congr {s q : State} {a n : Nat} (h : ∀ i, i < n → readByte q (a + i) = readByte s (a + i)) :
    readBytes q a n = readBytes s a n := by
  apply List.ext_getElem (by simp)
  intro i h1 h2
  rw [getElem_readBytes, getElem_readBytes]
  exact h i (by simpa using h2)

/-- A range written is read back. -/
theorem readBytes_putBytes (s : State) (a : Nat) (bs : List Byte) : readBytes (putBytes s a bs) a bs.length = bs := by
  apply List.ext_getElem (by simp)
  intro i h1 h2
  rw [getElem_readBytes, readByte_putBytes_inside _ _ _ _ h2]

theorem readBytes_putBytes_outside (s : State) {a b n : Nat} (bs : List Byte) (h : b + n ≤ a ∨ a + bs.length ≤ b) :
    readBytes (putBytes s a bs) b n = readBytes s b n :=
  readBytes_congr (fun i hi => readByte_putBytes_outside s bs (by omega))

theorem putBytes_wf {s : State} (a : Nat) (bs : List Byte) (w : Memory.wf s.mem = true) :
    Memory.wf (putBytes s a bs).mem = true := memSplice_wf a bs w

theorem writeWord_wf {s : State} (a : Nat) (v : Word) (w : Memory.wf s.mem = true) :
    Memory.wf (writeWord s a v).mem = true := memSplice_wf a _ w

theorem zeroRange_wf {s : State} (a n : Nat) (w : Memory.wf s.mem = true) : Memory.wf (zeroRange s a n).mem = true :=
  filter_wf _ w

theorem writePiece_wf {s : State} (a : Nat) (bs : List Byte) (w : Memory.wf s.mem = true) :
    Memory.wf (writePiece s a bs).1.mem = true := by
  unfold writePiece
  dsimp only
  split
  · exact memSplice_wf a bs w
  · split
    · exact w
    · exact memSplice_wf a bs w

theorem writeMemAux_wf (fuel : Nat) {s : State} (a : Nat) (bs : List Byte) (w : Memory.wf s.mem = true) :
    Memory.wf (writeMemAux fuel s a bs).1.mem = true := by
  induction fuel generalizing s a bs with
  | zero => exact w
  | succ n ih =>
    simp only [writeMemAux]
    split
    · exact w
    · exact ih _ _ (writePiece_wf _ _ w)

theorem writeMem_wf {s : State} (a : Nat) (bs : List Byte) (w : Memory.wf s.mem = true) :
    Memory.wf (writeMem s a bs).1.mem = true := writeMemAux_wf _ a bs w

/-- Filling with zero: the range reads as 0 in SRAM, and every other byte stays. -/
theorem readByte_zeroRange (s : State) (a n x : Nat) :
    readByte (zeroRange s a n) x = if a ≤ x ∧ x < a + n then blank x else readByte s x := by
  have e : ∀ c : Host.Cell, (decide (c.1 < a) || decide (a + n ≤ c.1)) = (fun k => decide (k < a) || decide (a + n ≤ k)) c.1 :=
    fun _ => rfl
  show memGet (s.mem.filter (fun c => decide (c.1 < a) || decide (a + n ≤ c.1))) x = _
  split
  · next h => exact memGet_filter_out (fun k => decide (k < a) || decide (a + n ≤ k)) s.mem (by simp; omega)
  · next h => exact memGet_filter (fun k => decide (k < a) || decide (a + n ≤ k)) s.mem (by simp; omega)

/-- The memory after reset is canonical. -/
theorem reset_mem_wf : Memory.wf State.reset.mem = true := rfl

end Sys2Proof.Machine
end

