-- ==== Sys2Proof/Laws/State.lean ====
section
/-!
SUPPORT. Each update of the state, field by field: the field it changes, and the others as they were.
-/
namespace Sys2Proof.Machine

variable (s : State)

/-! ### modStall -/

@[simp] theorem modStall_pending (k : StallId) (f : Stall → Stall) : (modStall k f s).pending = s.pending := rfl
@[simp] theorem modStall_mono (k : StallId) (f : Stall → Stall) : (modStall k f s).mono = s.mono := rfl
@[simp] theorem modStall_fresh (k : StallId) (f : Stall → Stall) : (modStall k f s).fresh = s.fresh := rfl
@[simp] theorem modStall_mem (k : StallId) (f : Stall → Stall) : (modStall k f s).mem = s.mem := rfl
@[simp] theorem modStall_ue (k : StallId) (f : Stall → Stall) : (modStall k f s).ue = s.ue := rfl
@[simp] theorem modStall_ctl (k : StallId) (f : Stall → Stall) : (modStall k f s).ctl = s.ctl := rfl
@[simp] theorem modStall_stalls (k : StallId) (f : Stall → Stall) : (modStall k f s).stalls = s.stalls.set k (f s.stalls[k]) := rfl
@[simp] theorem modStall_markets (k : StallId) (f : Stall → Stall) : (modStall k f s).markets = s.markets := rfl
@[simp] theorem modStall_tasks (k : StallId) (f : Stall → Stall) : (modStall k f s).tasks = s.tasks := rfl
@[simp] theorem modStall_signals (k : StallId) (f : Stall → Stall) : (modStall k f s).signals = s.signals := rfl
@[simp] theorem modStall_spctl (k : StallId) (f : Stall → Stall) : (modStall k f s).spctl = s.spctl := rfl
@[simp] theorem modStall_project (k : StallId) (f : Stall → Stall) : (modStall k f s).project = s.project := rfl
@[simp] theorem modStall_package (k : StallId) (f : Stall → Stall) : (modStall k f s).package = s.package := rfl
@[simp] theorem modStall_change (k : StallId) (f : Stall → Stall) : (modStall k f s).change = s.change := rfl
@[simp] theorem modStall_forces (k : StallId) (f : Stall → Stall) : (modStall k f s).forces = s.forces := rfl
@[simp] theorem modStall_routeJobs (k : StallId) (f : Stall → Stall) : (modStall k f s).routeJobs = s.routeJobs := rfl
@[simp] theorem modStall_trigs (k : StallId) (f : Stall → Stall) : (modStall k f s).trigs = s.trigs := rfl
@[simp] theorem modStall_directs (k : StallId) (f : Stall → Stall) : (modStall k f s).directs = s.directs := rfl
@[simp] theorem modStall_sysTurn (k : StallId) (f : Stall → Stall) : (modStall k f s).sysTurn = s.sysTurn := rfl
@[simp] theorem modStall_scrubPos (k : StallId) (f : Stall → Stall) : (modStall k f s).scrubPos = s.scrubPos := rfl
@[simp] theorem modStall_clock (k : StallId) (f : Stall → Stall) : (modStall k f s).clock = s.clock := rfl
@[simp] theorem modStall_tcmp (k : StallId) (f : Stall → Stall) : (modStall k f s).tcmp = s.tcmp := rfl
@[simp] theorem modStall_sync (k : StallId) (f : Stall → Stall) : (modStall k f s).sync = s.sync := rfl
@[simp] theorem modStall_host (k : StallId) (f : Stall → Stall) : (modStall k f s).host = s.host := rfl
@[simp] theorem modStall_dma (k : StallId) (f : Stall → Stall) : (modStall k f s).dma = s.dma := rfl
@[simp] theorem modStall_wdg (k : StallId) (f : Stall → Stall) : (modStall k f s).wdg = s.wdg := rfl
@[simp] theorem modStall_purse (k : StallId) (f : Stall → Stall) : (modStall k f s).purse = s.purse := rfl
@[simp] theorem modStall_errs (k : StallId) (f : Stall → Stall) : (modStall k f s).errs = s.errs := rfl
@[simp] theorem modStall_rtc (k : StallId) (f : Stall → Stall) : (modStall k f s).rtc = s.rtc := rfl
@[simp] theorem modStall_recorder (k : StallId) (f : Stall → Stall) : (modStall k f s).recorder = s.recorder := rfl
@[simp] theorem modStall_trends (k : StallId) (f : Stall → Stall) : (modStall k f s).trends = s.trends := rfl
@[simp] theorem modStall_engines (k : StallId) (f : Stall → Stall) : (modStall k f s).engines = s.engines := rfl
@[simp] theorem modStall_net (k : StallId) (f : Stall → Stall) : (modStall k f s).net = s.net := rfl
@[simp] theorem modStall_field (k : StallId) (f : Stall → Stall) : (modStall k f s).field = s.field := rfl
@[simp] theorem modStall_red (k : StallId) (f : Stall → Stall) : (modStall k f s).red = s.red := rfl
@[simp] theorem modStall_nvs (k : StallId) (f : Stall → Stall) : (modStall k f s).nvs = s.nvs := rfl
@[simp] theorem modStall_power (k : StallId) (f : Stall → Stall) : (modStall k f s).power = s.power := rfl

/-! ### modTill -/

@[simp] theorem modTill_pending (t : TillId) (f : Till → Till) : (modTill t f s).pending = s.pending := rfl
@[simp] theorem modTill_mono (t : TillId) (f : Till → Till) : (modTill t f s).mono = s.mono := rfl
@[simp] theorem modTill_fresh (t : TillId) (f : Till → Till) : (modTill t f s).fresh = s.fresh := rfl
@[simp] theorem modTill_mem (t : TillId) (f : Till → Till) : (modTill t f s).mem = s.mem := rfl
@[simp] theorem modTill_ue (t : TillId) (f : Till → Till) : (modTill t f s).ue = s.ue := rfl
@[simp] theorem modTill_ctl (t : TillId) (f : Till → Till) : (modTill t f s).ctl = s.ctl := rfl
@[simp] theorem modTill_markets (t : TillId) (f : Till → Till) : (modTill t f s).markets = s.markets := rfl
@[simp] theorem modTill_tasks (t : TillId) (f : Till → Till) : (modTill t f s).tasks = s.tasks := rfl
@[simp] theorem modTill_signals (t : TillId) (f : Till → Till) : (modTill t f s).signals = s.signals := rfl
@[simp] theorem modTill_spctl (t : TillId) (f : Till → Till) : (modTill t f s).spctl = s.spctl := rfl
@[simp] theorem modTill_project (t : TillId) (f : Till → Till) : (modTill t f s).project = s.project := rfl
@[simp] theorem modTill_package (t : TillId) (f : Till → Till) : (modTill t f s).package = s.package := rfl
@[simp] theorem modTill_change (t : TillId) (f : Till → Till) : (modTill t f s).change = s.change := rfl
@[simp] theorem modTill_forces (t : TillId) (f : Till → Till) : (modTill t f s).forces = s.forces := rfl
@[simp] theorem modTill_routeJobs (t : TillId) (f : Till → Till) : (modTill t f s).routeJobs = s.routeJobs := rfl
@[simp] theorem modTill_trigs (t : TillId) (f : Till → Till) : (modTill t f s).trigs = s.trigs := rfl
@[simp] theorem modTill_directs (t : TillId) (f : Till → Till) : (modTill t f s).directs = s.directs := rfl
@[simp] theorem modTill_sysTurn (t : TillId) (f : Till → Till) : (modTill t f s).sysTurn = s.sysTurn := rfl
@[simp] theorem modTill_scrubPos (t : TillId) (f : Till → Till) : (modTill t f s).scrubPos = s.scrubPos := rfl
@[simp] theorem modTill_clock (t : TillId) (f : Till → Till) : (modTill t f s).clock = s.clock := rfl
@[simp] theorem modTill_tcmp (t : TillId) (f : Till → Till) : (modTill t f s).tcmp = s.tcmp := rfl
@[simp] theorem modTill_sync (t : TillId) (f : Till → Till) : (modTill t f s).sync = s.sync := rfl
@[simp] theorem modTill_host (t : TillId) (f : Till → Till) : (modTill t f s).host = s.host := rfl
@[simp] theorem modTill_dma (t : TillId) (f : Till → Till) : (modTill t f s).dma = s.dma := rfl
@[simp] theorem modTill_wdg (t : TillId) (f : Till → Till) : (modTill t f s).wdg = s.wdg := rfl
@[simp] theorem modTill_purse (t : TillId) (f : Till → Till) : (modTill t f s).purse = s.purse := rfl
@[simp] theorem modTill_errs (t : TillId) (f : Till → Till) : (modTill t f s).errs = s.errs := rfl
@[simp] theorem modTill_rtc (t : TillId) (f : Till → Till) : (modTill t f s).rtc = s.rtc := rfl
@[simp] theorem modTill_recorder (t : TillId) (f : Till → Till) : (modTill t f s).recorder = s.recorder := rfl
@[simp] theorem modTill_trends (t : TillId) (f : Till → Till) : (modTill t f s).trends = s.trends := rfl
@[simp] theorem modTill_engines (t : TillId) (f : Till → Till) : (modTill t f s).engines = s.engines := rfl
@[simp] theorem modTill_net (t : TillId) (f : Till → Till) : (modTill t f s).net = s.net := rfl
@[simp] theorem modTill_field (t : TillId) (f : Till → Till) : (modTill t f s).field = s.field := rfl
@[simp] theorem modTill_red (t : TillId) (f : Till → Till) : (modTill t f s).red = s.red := rfl
@[simp] theorem modTill_nvs (t : TillId) (f : Till → Till) : (modTill t f s).nvs = s.nvs := rfl
@[simp] theorem modTill_power (t : TillId) (f : Till → Till) : (modTill t f s).power = s.power := rfl

/-! ### modMarket -/

@[simp] theorem modMarket_pending (m : MarketId) (f : Market → Market) : (modMarket m f s).pending = s.pending := rfl
@[simp] theorem modMarket_mono (m : MarketId) (f : Market → Market) : (modMarket m f s).mono = s.mono := rfl
@[simp] theorem modMarket_fresh (m : MarketId) (f : Market → Market) : (modMarket m f s).fresh = s.fresh := rfl
@[simp] theorem modMarket_mem (m : MarketId) (f : Market → Market) : (modMarket m f s).mem = s.mem := rfl
@[simp] theorem modMarket_ue (m : MarketId) (f : Market → Market) : (modMarket m f s).ue = s.ue := rfl
@[simp] theorem modMarket_ctl (m : MarketId) (f : Market → Market) : (modMarket m f s).ctl = s.ctl := rfl
@[simp] theorem modMarket_stalls (m : MarketId) (f : Market → Market) : (modMarket m f s).stalls = s.stalls := rfl
@[simp] theorem modMarket_markets (m : MarketId) (f : Market → Market) : (modMarket m f s).markets = s.markets.set m (f s.markets[m]) := rfl
@[simp] theorem modMarket_tasks (m : MarketId) (f : Market → Market) : (modMarket m f s).tasks = s.tasks := rfl
@[simp] theorem modMarket_signals (m : MarketId) (f : Market → Market) : (modMarket m f s).signals = s.signals := rfl
@[simp] theorem modMarket_spctl (m : MarketId) (f : Market → Market) : (modMarket m f s).spctl = s.spctl := rfl
@[simp] theorem modMarket_project (m : MarketId) (f : Market → Market) : (modMarket m f s).project = s.project := rfl
@[simp] theorem modMarket_package (m : MarketId) (f : Market → Market) : (modMarket m f s).package = s.package := rfl
@[simp] theorem modMarket_change (m : MarketId) (f : Market → Market) : (modMarket m f s).change = s.change := rfl
@[simp] theorem modMarket_forces (m : MarketId) (f : Market → Market) : (modMarket m f s).forces = s.forces := rfl
@[simp] theorem modMarket_routeJobs (m : MarketId) (f : Market → Market) : (modMarket m f s).routeJobs = s.routeJobs := rfl
@[simp] theorem modMarket_trigs (m : MarketId) (f : Market → Market) : (modMarket m f s).trigs = s.trigs := rfl
@[simp] theorem modMarket_directs (m : MarketId) (f : Market → Market) : (modMarket m f s).directs = s.directs := rfl
@[simp] theorem modMarket_sysTurn (m : MarketId) (f : Market → Market) : (modMarket m f s).sysTurn = s.sysTurn := rfl
@[simp] theorem modMarket_scrubPos (m : MarketId) (f : Market → Market) : (modMarket m f s).scrubPos = s.scrubPos := rfl
@[simp] theorem modMarket_clock (m : MarketId) (f : Market → Market) : (modMarket m f s).clock = s.clock := rfl
@[simp] theorem modMarket_tcmp (m : MarketId) (f : Market → Market) : (modMarket m f s).tcmp = s.tcmp := rfl
@[simp] theorem modMarket_sync (m : MarketId) (f : Market → Market) : (modMarket m f s).sync = s.sync := rfl
@[simp] theorem modMarket_host (m : MarketId) (f : Market → Market) : (modMarket m f s).host = s.host := rfl
@[simp] theorem modMarket_dma (m : MarketId) (f : Market → Market) : (modMarket m f s).dma = s.dma := rfl
@[simp] theorem modMarket_wdg (m : MarketId) (f : Market → Market) : (modMarket m f s).wdg = s.wdg := rfl
@[simp] theorem modMarket_purse (m : MarketId) (f : Market → Market) : (modMarket m f s).purse = s.purse := rfl
@[simp] theorem modMarket_errs (m : MarketId) (f : Market → Market) : (modMarket m f s).errs = s.errs := rfl
@[simp] theorem modMarket_rtc (m : MarketId) (f : Market → Market) : (modMarket m f s).rtc = s.rtc := rfl
@[simp] theorem modMarket_recorder (m : MarketId) (f : Market → Market) : (modMarket m f s).recorder = s.recorder := rfl
@[simp] theorem modMarket_trends (m : MarketId) (f : Market → Market) : (modMarket m f s).trends = s.trends := rfl
@[simp] theorem modMarket_engines (m : MarketId) (f : Market → Market) : (modMarket m f s).engines = s.engines := rfl
@[simp] theorem modMarket_net (m : MarketId) (f : Market → Market) : (modMarket m f s).net = s.net := rfl
@[simp] theorem modMarket_field (m : MarketId) (f : Market → Market) : (modMarket m f s).field = s.field := rfl
@[simp] theorem modMarket_red (m : MarketId) (f : Market → Market) : (modMarket m f s).red = s.red := rfl
@[simp] theorem modMarket_nvs (m : MarketId) (f : Market → Market) : (modMarket m f s).nvs = s.nvs := rfl
@[simp] theorem modMarket_power (m : MarketId) (f : Market → Market) : (modMarket m f s).power = s.power := rfl

/-! ### modTask -/

@[simp] theorem modTask_pending (i : TaskId) (f : Task → Task) : (modTask i f s).pending = s.pending := rfl
@[simp] theorem modTask_mono (i : TaskId) (f : Task → Task) : (modTask i f s).mono = s.mono := rfl
@[simp] theorem modTask_fresh (i : TaskId) (f : Task → Task) : (modTask i f s).fresh = s.fresh := rfl
@[simp] theorem modTask_mem (i : TaskId) (f : Task → Task) : (modTask i f s).mem = s.mem := rfl
@[simp] theorem modTask_ue (i : TaskId) (f : Task → Task) : (modTask i f s).ue = s.ue := rfl
@[simp] theorem modTask_ctl (i : TaskId) (f : Task → Task) : (modTask i f s).ctl = s.ctl := rfl
@[simp] theorem modTask_stalls (i : TaskId) (f : Task → Task) : (modTask i f s).stalls = s.stalls := rfl
@[simp] theorem modTask_markets (i : TaskId) (f : Task → Task) : (modTask i f s).markets = s.markets := rfl
@[simp] theorem modTask_tasks (i : TaskId) (f : Task → Task) : (modTask i f s).tasks = mapIf (fun t => t.e.id == i) f s.tasks := rfl
@[simp] theorem modTask_signals (i : TaskId) (f : Task → Task) : (modTask i f s).signals = s.signals := rfl
@[simp] theorem modTask_spctl (i : TaskId) (f : Task → Task) : (modTask i f s).spctl = s.spctl := rfl
@[simp] theorem modTask_project (i : TaskId) (f : Task → Task) : (modTask i f s).project = s.project := rfl
@[simp] theorem modTask_package (i : TaskId) (f : Task → Task) : (modTask i f s).package = s.package := rfl
@[simp] theorem modTask_change (i : TaskId) (f : Task → Task) : (modTask i f s).change = s.change := rfl
@[simp] theorem modTask_forces (i : TaskId) (f : Task → Task) : (modTask i f s).forces = s.forces := rfl
@[simp] theorem modTask_routeJobs (i : TaskId) (f : Task → Task) : (modTask i f s).routeJobs = s.routeJobs := rfl
@[simp] theorem modTask_trigs (i : TaskId) (f : Task → Task) : (modTask i f s).trigs = s.trigs := rfl
@[simp] theorem modTask_directs (i : TaskId) (f : Task → Task) : (modTask i f s).directs = s.directs := rfl
@[simp] theorem modTask_sysTurn (i : TaskId) (f : Task → Task) : (modTask i f s).sysTurn = s.sysTurn := rfl
@[simp] theorem modTask_scrubPos (i : TaskId) (f : Task → Task) : (modTask i f s).scrubPos = s.scrubPos := rfl
@[simp] theorem modTask_clock (i : TaskId) (f : Task → Task) : (modTask i f s).clock = s.clock := rfl
@[simp] theorem modTask_tcmp (i : TaskId) (f : Task → Task) : (modTask i f s).tcmp = s.tcmp := rfl
@[simp] theorem modTask_sync (i : TaskId) (f : Task → Task) : (modTask i f s).sync = s.sync := rfl
@[simp] theorem modTask_host (i : TaskId) (f : Task → Task) : (modTask i f s).host = s.host := rfl
@[simp] theorem modTask_dma (i : TaskId) (f : Task → Task) : (modTask i f s).dma = s.dma := rfl
@[simp] theorem modTask_wdg (i : TaskId) (f : Task → Task) : (modTask i f s).wdg = s.wdg := rfl
@[simp] theorem modTask_purse (i : TaskId) (f : Task → Task) : (modTask i f s).purse = s.purse := rfl
@[simp] theorem modTask_errs (i : TaskId) (f : Task → Task) : (modTask i f s).errs = s.errs := rfl
@[simp] theorem modTask_rtc (i : TaskId) (f : Task → Task) : (modTask i f s).rtc = s.rtc := rfl
@[simp] theorem modTask_recorder (i : TaskId) (f : Task → Task) : (modTask i f s).recorder = s.recorder := rfl
@[simp] theorem modTask_trends (i : TaskId) (f : Task → Task) : (modTask i f s).trends = s.trends := rfl
@[simp] theorem modTask_engines (i : TaskId) (f : Task → Task) : (modTask i f s).engines = s.engines := rfl
@[simp] theorem modTask_net (i : TaskId) (f : Task → Task) : (modTask i f s).net = s.net := rfl
@[simp] theorem modTask_field (i : TaskId) (f : Task → Task) : (modTask i f s).field = s.field := rfl
@[simp] theorem modTask_red (i : TaskId) (f : Task → Task) : (modTask i f s).red = s.red := rfl
@[simp] theorem modTask_nvs (i : TaskId) (f : Task → Task) : (modTask i f s).nvs = s.nvs := rfl
@[simp] theorem modTask_power (i : TaskId) (f : Task → Task) : (modTask i f s).power = s.power := rfl

/-! ### modRing -/

@[simp] theorem modRing_pending (n : Nat) (f : CmdRing → CmdRing) : (modRing n f s).pending = s.pending := rfl
@[simp] theorem modRing_mono (n : Nat) (f : CmdRing → CmdRing) : (modRing n f s).mono = s.mono := rfl
@[simp] theorem modRing_fresh (n : Nat) (f : CmdRing → CmdRing) : (modRing n f s).fresh = s.fresh := rfl
@[simp] theorem modRing_mem (n : Nat) (f : CmdRing → CmdRing) : (modRing n f s).mem = s.mem := rfl
@[simp] theorem modRing_ue (n : Nat) (f : CmdRing → CmdRing) : (modRing n f s).ue = s.ue := rfl
@[simp] theorem modRing_ctl (n : Nat) (f : CmdRing → CmdRing) : (modRing n f s).ctl = s.ctl := rfl
@[simp] theorem modRing_stalls (n : Nat) (f : CmdRing → CmdRing) : (modRing n f s).stalls = s.stalls := rfl
@[simp] theorem modRing_markets (n : Nat) (f : CmdRing → CmdRing) : (modRing n f s).markets = s.markets := rfl
@[simp] theorem modRing_tasks (n : Nat) (f : CmdRing → CmdRing) : (modRing n f s).tasks = s.tasks := rfl
@[simp] theorem modRing_signals (n : Nat) (f : CmdRing → CmdRing) : (modRing n f s).signals = s.signals := rfl
@[simp] theorem modRing_spctl (n : Nat) (f : CmdRing → CmdRing) : (modRing n f s).spctl = s.spctl := rfl
@[simp] theorem modRing_project (n : Nat) (f : CmdRing → CmdRing) : (modRing n f s).project = s.project := rfl
@[simp] theorem modRing_package (n : Nat) (f : CmdRing → CmdRing) : (modRing n f s).package = s.package := rfl
@[simp] theorem modRing_change (n : Nat) (f : CmdRing → CmdRing) : (modRing n f s).change = s.change := rfl
@[simp] theorem modRing_forces (n : Nat) (f : CmdRing → CmdRing) : (modRing n f s).forces = s.forces := rfl
@[simp] theorem modRing_routeJobs (n : Nat) (f : CmdRing → CmdRing) : (modRing n f s).routeJobs = s.routeJobs := rfl
@[simp] theorem modRing_trigs (n : Nat) (f : CmdRing → CmdRing) : (modRing n f s).trigs = s.trigs := rfl
@[simp] theorem modRing_directs (n : Nat) (f : CmdRing → CmdRing) : (modRing n f s).directs = s.directs := rfl
@[simp] theorem modRing_sysTurn (n : Nat) (f : CmdRing → CmdRing) : (modRing n f s).sysTurn = s.sysTurn := rfl
@[simp] theorem modRing_scrubPos (n : Nat) (f : CmdRing → CmdRing) : (modRing n f s).scrubPos = s.scrubPos := rfl
@[simp] theorem modRing_clock (n : Nat) (f : CmdRing → CmdRing) : (modRing n f s).clock = s.clock := rfl
@[simp] theorem modRing_tcmp (n : Nat) (f : CmdRing → CmdRing) : (modRing n f s).tcmp = s.tcmp := rfl
@[simp] theorem modRing_sync (n : Nat) (f : CmdRing → CmdRing) : (modRing n f s).sync = s.sync := rfl
@[simp] theorem modRing_host (n : Nat) (f : CmdRing → CmdRing) : (modRing n f s).host = { s.host with rings := vmod s.host.rings n f } := rfl
@[simp] theorem modRing_dma (n : Nat) (f : CmdRing → CmdRing) : (modRing n f s).dma = s.dma := rfl
@[simp] theorem modRing_wdg (n : Nat) (f : CmdRing → CmdRing) : (modRing n f s).wdg = s.wdg := rfl
@[simp] theorem modRing_purse (n : Nat) (f : CmdRing → CmdRing) : (modRing n f s).purse = s.purse := rfl
@[simp] theorem modRing_errs (n : Nat) (f : CmdRing → CmdRing) : (modRing n f s).errs = s.errs := rfl
@[simp] theorem modRing_rtc (n : Nat) (f : CmdRing → CmdRing) : (modRing n f s).rtc = s.rtc := rfl
@[simp] theorem modRing_recorder (n : Nat) (f : CmdRing → CmdRing) : (modRing n f s).recorder = s.recorder := rfl
@[simp] theorem modRing_trends (n : Nat) (f : CmdRing → CmdRing) : (modRing n f s).trends = s.trends := rfl
@[simp] theorem modRing_engines (n : Nat) (f : CmdRing → CmdRing) : (modRing n f s).engines = s.engines := rfl
@[simp] theorem modRing_net (n : Nat) (f : CmdRing → CmdRing) : (modRing n f s).net = s.net := rfl
@[simp] theorem modRing_field (n : Nat) (f : CmdRing → CmdRing) : (modRing n f s).field = s.field := rfl
@[simp] theorem modRing_red (n : Nat) (f : CmdRing → CmdRing) : (modRing n f s).red = s.red := rfl
@[simp] theorem modRing_nvs (n : Nat) (f : CmdRing → CmdRing) : (modRing n f s).nvs = s.nvs := rfl
@[simp] theorem modRing_power (n : Nat) (f : CmdRing → CmdRing) : (modRing n f s).power = s.power := rfl

/-! ### modChan -/

@[simp] theorem modChan_pending (n : Nat) (f : DmaChan → DmaChan) : (modChan n f s).pending = s.pending := rfl
@[simp] theorem modChan_mono (n : Nat) (f : DmaChan → DmaChan) : (modChan n f s).mono = s.mono := rfl
@[simp] theorem modChan_fresh (n : Nat) (f : DmaChan → DmaChan) : (modChan n f s).fresh = s.fresh := rfl
@[simp] theorem modChan_mem (n : Nat) (f : DmaChan → DmaChan) : (modChan n f s).mem = s.mem := rfl
@[simp] theorem modChan_ue (n : Nat) (f : DmaChan → DmaChan) : (modChan n f s).ue = s.ue := rfl
@[simp] theorem modChan_ctl (n : Nat) (f : DmaChan → DmaChan) : (modChan n f s).ctl = s.ctl := rfl
@[simp] theorem modChan_stalls (n : Nat) (f : DmaChan → DmaChan) : (modChan n f s).stalls = s.stalls := rfl
@[simp] theorem modChan_markets (n : Nat) (f : DmaChan → DmaChan) : (modChan n f s).markets = s.markets := rfl
@[simp] theorem modChan_tasks (n : Nat) (f : DmaChan → DmaChan) : (modChan n f s).tasks = s.tasks := rfl
@[simp] theorem modChan_signals (n : Nat) (f : DmaChan → DmaChan) : (modChan n f s).signals = s.signals := rfl
@[simp] theorem modChan_spctl (n : Nat) (f : DmaChan → DmaChan) : (modChan n f s).spctl = s.spctl := rfl
@[simp] theorem modChan_project (n : Nat) (f : DmaChan → DmaChan) : (modChan n f s).project = s.project := rfl
@[simp] theorem modChan_package (n : Nat) (f : DmaChan → DmaChan) : (modChan n f s).package = s.package := rfl
@[simp] theorem modChan_change (n : Nat) (f : DmaChan → DmaChan) : (modChan n f s).change = s.change := rfl
@[simp] theorem modChan_forces (n : Nat) (f : DmaChan → DmaChan) : (modChan n f s).forces = s.forces := rfl
@[simp] theorem modChan_routeJobs (n : Nat) (f : DmaChan → DmaChan) : (modChan n f s).routeJobs = s.routeJobs := rfl
@[simp] theorem modChan_trigs (n : Nat) (f : DmaChan → DmaChan) : (modChan n f s).trigs = s.trigs := rfl
@[simp] theorem modChan_directs (n : Nat) (f : DmaChan → DmaChan) : (modChan n f s).directs = s.directs := rfl
@[simp] theorem modChan_sysTurn (n : Nat) (f : DmaChan → DmaChan) : (modChan n f s).sysTurn = s.sysTurn := rfl
@[simp] theorem modChan_scrubPos (n : Nat) (f : DmaChan → DmaChan) : (modChan n f s).scrubPos = s.scrubPos := rfl
@[simp] theorem modChan_clock (n : Nat) (f : DmaChan → DmaChan) : (modChan n f s).clock = s.clock := rfl
@[simp] theorem modChan_tcmp (n : Nat) (f : DmaChan → DmaChan) : (modChan n f s).tcmp = s.tcmp := rfl
@[simp] theorem modChan_sync (n : Nat) (f : DmaChan → DmaChan) : (modChan n f s).sync = s.sync := rfl
@[simp] theorem modChan_host (n : Nat) (f : DmaChan → DmaChan) : (modChan n f s).host = s.host := rfl
@[simp] theorem modChan_dma (n : Nat) (f : DmaChan → DmaChan) : (modChan n f s).dma = { s.dma with chans := vmod s.dma.chans n f } := rfl
@[simp] theorem modChan_wdg (n : Nat) (f : DmaChan → DmaChan) : (modChan n f s).wdg = s.wdg := rfl
@[simp] theorem modChan_purse (n : Nat) (f : DmaChan → DmaChan) : (modChan n f s).purse = s.purse := rfl
@[simp] theorem modChan_errs (n : Nat) (f : DmaChan → DmaChan) : (modChan n f s).errs = s.errs := rfl
@[simp] theorem modChan_rtc (n : Nat) (f : DmaChan → DmaChan) : (modChan n f s).rtc = s.rtc := rfl
@[simp] theorem modChan_recorder (n : Nat) (f : DmaChan → DmaChan) : (modChan n f s).recorder = s.recorder := rfl
@[simp] theorem modChan_trends (n : Nat) (f : DmaChan → DmaChan) : (modChan n f s).trends = s.trends := rfl
@[simp] theorem modChan_engines (n : Nat) (f : DmaChan → DmaChan) : (modChan n f s).engines = s.engines := rfl
@[simp] theorem modChan_net (n : Nat) (f : DmaChan → DmaChan) : (modChan n f s).net = s.net := rfl
@[simp] theorem modChan_field (n : Nat) (f : DmaChan → DmaChan) : (modChan n f s).field = s.field := rfl
@[simp] theorem modChan_red (n : Nat) (f : DmaChan → DmaChan) : (modChan n f s).red = s.red := rfl
@[simp] theorem modChan_nvs (n : Nat) (f : DmaChan → DmaChan) : (modChan n f s).nvs = s.nvs := rfl
@[simp] theorem modChan_power (n : Nat) (f : DmaChan → DmaChan) : (modChan n f s).power = s.power := rfl

/-! ### modEngine -/

@[simp] theorem modEngine_pending (n : Nat) (f : Engine → Engine) : (modEngine n f s).pending = s.pending := rfl
@[simp] theorem modEngine_mono (n : Nat) (f : Engine → Engine) : (modEngine n f s).mono = s.mono := rfl
@[simp] theorem modEngine_fresh (n : Nat) (f : Engine → Engine) : (modEngine n f s).fresh = s.fresh := rfl
@[simp] theorem modEngine_mem (n : Nat) (f : Engine → Engine) : (modEngine n f s).mem = s.mem := rfl
@[simp] theorem modEngine_ue (n : Nat) (f : Engine → Engine) : (modEngine n f s).ue = s.ue := rfl
@[simp] theorem modEngine_ctl (n : Nat) (f : Engine → Engine) : (modEngine n f s).ctl = s.ctl := rfl
@[simp] theorem modEngine_stalls (n : Nat) (f : Engine → Engine) : (modEngine n f s).stalls = s.stalls := rfl
@[simp] theorem modEngine_markets (n : Nat) (f : Engine → Engine) : (modEngine n f s).markets = s.markets := rfl
@[simp] theorem modEngine_tasks (n : Nat) (f : Engine → Engine) : (modEngine n f s).tasks = s.tasks := rfl
@[simp] theorem modEngine_signals (n : Nat) (f : Engine → Engine) : (modEngine n f s).signals = s.signals := rfl
@[simp] theorem modEngine_spctl (n : Nat) (f : Engine → Engine) : (modEngine n f s).spctl = s.spctl := rfl
@[simp] theorem modEngine_project (n : Nat) (f : Engine → Engine) : (modEngine n f s).project = s.project := rfl
@[simp] theorem modEngine_package (n : Nat) (f : Engine → Engine) : (modEngine n f s).package = s.package := rfl
@[simp] theorem modEngine_change (n : Nat) (f : Engine → Engine) : (modEngine n f s).change = s.change := rfl
@[simp] theorem modEngine_forces (n : Nat) (f : Engine → Engine) : (modEngine n f s).forces = s.forces := rfl
@[simp] theorem modEngine_routeJobs (n : Nat) (f : Engine → Engine) : (modEngine n f s).routeJobs = s.routeJobs := rfl
@[simp] theorem modEngine_trigs (n : Nat) (f : Engine → Engine) : (modEngine n f s).trigs = s.trigs := rfl
@[simp] theorem modEngine_directs (n : Nat) (f : Engine → Engine) : (modEngine n f s).directs = s.directs := rfl
@[simp] theorem modEngine_sysTurn (n : Nat) (f : Engine → Engine) : (modEngine n f s).sysTurn = s.sysTurn := rfl
@[simp] theorem modEngine_scrubPos (n : Nat) (f : Engine → Engine) : (modEngine n f s).scrubPos = s.scrubPos := rfl
@[simp] theorem modEngine_clock (n : Nat) (f : Engine → Engine) : (modEngine n f s).clock = s.clock := rfl
@[simp] theorem modEngine_tcmp (n : Nat) (f : Engine → Engine) : (modEngine n f s).tcmp = s.tcmp := rfl
@[simp] theorem modEngine_sync (n : Nat) (f : Engine → Engine) : (modEngine n f s).sync = s.sync := rfl
@[simp] theorem modEngine_host (n : Nat) (f : Engine → Engine) : (modEngine n f s).host = s.host := rfl
@[simp] theorem modEngine_dma (n : Nat) (f : Engine → Engine) : (modEngine n f s).dma = s.dma := rfl
@[simp] theorem modEngine_wdg (n : Nat) (f : Engine → Engine) : (modEngine n f s).wdg = s.wdg := rfl
@[simp] theorem modEngine_purse (n : Nat) (f : Engine → Engine) : (modEngine n f s).purse = s.purse := rfl
@[simp] theorem modEngine_errs (n : Nat) (f : Engine → Engine) : (modEngine n f s).errs = s.errs := rfl
@[simp] theorem modEngine_rtc (n : Nat) (f : Engine → Engine) : (modEngine n f s).rtc = s.rtc := rfl
@[simp] theorem modEngine_recorder (n : Nat) (f : Engine → Engine) : (modEngine n f s).recorder = s.recorder := rfl
@[simp] theorem modEngine_trends (n : Nat) (f : Engine → Engine) : (modEngine n f s).trends = s.trends := rfl
@[simp] theorem modEngine_engines (n : Nat) (f : Engine → Engine) : (modEngine n f s).engines = vmod s.engines n f := rfl
@[simp] theorem modEngine_net (n : Nat) (f : Engine → Engine) : (modEngine n f s).net = s.net := rfl
@[simp] theorem modEngine_field (n : Nat) (f : Engine → Engine) : (modEngine n f s).field = s.field := rfl
@[simp] theorem modEngine_red (n : Nat) (f : Engine → Engine) : (modEngine n f s).red = s.red := rfl
@[simp] theorem modEngine_nvs (n : Nat) (f : Engine → Engine) : (modEngine n f s).nvs = s.nvs := rfl
@[simp] theorem modEngine_power (n : Nat) (f : Engine → Engine) : (modEngine n f s).power = s.power := rfl

/-! ### modPort -/

@[simp] theorem modPort_pending (n : Nat) (f : Port → Port) : (modPort n f s).pending = s.pending := rfl
@[simp] theorem modPort_mono (n : Nat) (f : Port → Port) : (modPort n f s).mono = s.mono := rfl
@[simp] theorem modPort_fresh (n : Nat) (f : Port → Port) : (modPort n f s).fresh = s.fresh := rfl
@[simp] theorem modPort_mem (n : Nat) (f : Port → Port) : (modPort n f s).mem = s.mem := rfl
@[simp] theorem modPort_ue (n : Nat) (f : Port → Port) : (modPort n f s).ue = s.ue := rfl
@[simp] theorem modPort_ctl (n : Nat) (f : Port → Port) : (modPort n f s).ctl = s.ctl := rfl
@[simp] theorem modPort_stalls (n : Nat) (f : Port → Port) : (modPort n f s).stalls = s.stalls := rfl
@[simp] theorem modPort_markets (n : Nat) (f : Port → Port) : (modPort n f s).markets = s.markets := rfl
@[simp] theorem modPort_tasks (n : Nat) (f : Port → Port) : (modPort n f s).tasks = s.tasks := rfl
@[simp] theorem modPort_signals (n : Nat) (f : Port → Port) : (modPort n f s).signals = s.signals := rfl
@[simp] theorem modPort_spctl (n : Nat) (f : Port → Port) : (modPort n f s).spctl = s.spctl := rfl
@[simp] theorem modPort_project (n : Nat) (f : Port → Port) : (modPort n f s).project = s.project := rfl
@[simp] theorem modPort_package (n : Nat) (f : Port → Port) : (modPort n f s).package = s.package := rfl
@[simp] theorem modPort_change (n : Nat) (f : Port → Port) : (modPort n f s).change = s.change := rfl
@[simp] theorem modPort_forces (n : Nat) (f : Port → Port) : (modPort n f s).forces = s.forces := rfl
@[simp] theorem modPort_routeJobs (n : Nat) (f : Port → Port) : (modPort n f s).routeJobs = s.routeJobs := rfl
@[simp] theorem modPort_trigs (n : Nat) (f : Port → Port) : (modPort n f s).trigs = s.trigs := rfl
@[simp] theorem modPort_directs (n : Nat) (f : Port → Port) : (modPort n f s).directs = s.directs := rfl
@[simp] theorem modPort_sysTurn (n : Nat) (f : Port → Port) : (modPort n f s).sysTurn = s.sysTurn := rfl
@[simp] theorem modPort_scrubPos (n : Nat) (f : Port → Port) : (modPort n f s).scrubPos = s.scrubPos := rfl
@[simp] theorem modPort_clock (n : Nat) (f : Port → Port) : (modPort n f s).clock = s.clock := rfl
@[simp] theorem modPort_tcmp (n : Nat) (f : Port → Port) : (modPort n f s).tcmp = s.tcmp := rfl
@[simp] theorem modPort_sync (n : Nat) (f : Port → Port) : (modPort n f s).sync = s.sync := rfl
@[simp] theorem modPort_host (n : Nat) (f : Port → Port) : (modPort n f s).host = s.host := rfl
@[simp] theorem modPort_dma (n : Nat) (f : Port → Port) : (modPort n f s).dma = s.dma := rfl
@[simp] theorem modPort_wdg (n : Nat) (f : Port → Port) : (modPort n f s).wdg = s.wdg := rfl
@[simp] theorem modPort_purse (n : Nat) (f : Port → Port) : (modPort n f s).purse = s.purse := rfl
@[simp] theorem modPort_errs (n : Nat) (f : Port → Port) : (modPort n f s).errs = s.errs := rfl
@[simp] theorem modPort_rtc (n : Nat) (f : Port → Port) : (modPort n f s).rtc = s.rtc := rfl
@[simp] theorem modPort_recorder (n : Nat) (f : Port → Port) : (modPort n f s).recorder = s.recorder := rfl
@[simp] theorem modPort_trends (n : Nat) (f : Port → Port) : (modPort n f s).trends = s.trends := rfl
@[simp] theorem modPort_engines (n : Nat) (f : Port → Port) : (modPort n f s).engines = s.engines := rfl
@[simp] theorem modPort_net (n : Nat) (f : Port → Port) : (modPort n f s).net = { s.net with ports := vmod s.net.ports n f } := rfl
@[simp] theorem modPort_field (n : Nat) (f : Port → Port) : (modPort n f s).field = s.field := rfl
@[simp] theorem modPort_red (n : Nat) (f : Port → Port) : (modPort n f s).red = s.red := rfl
@[simp] theorem modPort_nvs (n : Nat) (f : Port → Port) : (modPort n f s).nvs = s.nvs := rfl
@[simp] theorem modPort_power (n : Nat) (f : Port → Port) : (modPort n f s).power = s.power := rfl

/-! ### modSched -/

@[simp] theorem modSched_pending (n : Nat) (f : SchedEntry → SchedEntry) : (modSched n f s).pending = s.pending := rfl
@[simp] theorem modSched_mono (n : Nat) (f : SchedEntry → SchedEntry) : (modSched n f s).mono = s.mono := rfl
@[simp] theorem modSched_fresh (n : Nat) (f : SchedEntry → SchedEntry) : (modSched n f s).fresh = s.fresh := rfl
@[simp] theorem modSched_mem (n : Nat) (f : SchedEntry → SchedEntry) : (modSched n f s).mem = s.mem := rfl
@[simp] theorem modSched_ue (n : Nat) (f : SchedEntry → SchedEntry) : (modSched n f s).ue = s.ue := rfl
@[simp] theorem modSched_ctl (n : Nat) (f : SchedEntry → SchedEntry) : (modSched n f s).ctl = s.ctl := rfl
@[simp] theorem modSched_stalls (n : Nat) (f : SchedEntry → SchedEntry) : (modSched n f s).stalls = s.stalls := rfl
@[simp] theorem modSched_markets (n : Nat) (f : SchedEntry → SchedEntry) : (modSched n f s).markets = s.markets := rfl
@[simp] theorem modSched_tasks (n : Nat) (f : SchedEntry → SchedEntry) : (modSched n f s).tasks = s.tasks := rfl
@[simp] theorem modSched_signals (n : Nat) (f : SchedEntry → SchedEntry) : (modSched n f s).signals = s.signals := rfl
@[simp] theorem modSched_spctl (n : Nat) (f : SchedEntry → SchedEntry) : (modSched n f s).spctl = s.spctl := rfl
@[simp] theorem modSched_project (n : Nat) (f : SchedEntry → SchedEntry) : (modSched n f s).project = s.project := rfl
@[simp] theorem modSched_package (n : Nat) (f : SchedEntry → SchedEntry) : (modSched n f s).package = s.package := rfl
@[simp] theorem modSched_change (n : Nat) (f : SchedEntry → SchedEntry) : (modSched n f s).change = s.change := rfl
@[simp] theorem modSched_forces (n : Nat) (f : SchedEntry → SchedEntry) : (modSched n f s).forces = s.forces := rfl
@[simp] theorem modSched_routeJobs (n : Nat) (f : SchedEntry → SchedEntry) : (modSched n f s).routeJobs = s.routeJobs := rfl
@[simp] theorem modSched_trigs (n : Nat) (f : SchedEntry → SchedEntry) : (modSched n f s).trigs = s.trigs := rfl
@[simp] theorem modSched_directs (n : Nat) (f : SchedEntry → SchedEntry) : (modSched n f s).directs = s.directs := rfl
@[simp] theorem modSched_sysTurn (n : Nat) (f : SchedEntry → SchedEntry) : (modSched n f s).sysTurn = s.sysTurn := rfl
@[simp] theorem modSched_scrubPos (n : Nat) (f : SchedEntry → SchedEntry) : (modSched n f s).scrubPos = s.scrubPos := rfl
@[simp] theorem modSched_clock (n : Nat) (f : SchedEntry → SchedEntry) : (modSched n f s).clock = s.clock := rfl
@[simp] theorem modSched_tcmp (n : Nat) (f : SchedEntry → SchedEntry) : (modSched n f s).tcmp = s.tcmp := rfl
@[simp] theorem modSched_sync (n : Nat) (f : SchedEntry → SchedEntry) : (modSched n f s).sync = s.sync := rfl
@[simp] theorem modSched_host (n : Nat) (f : SchedEntry → SchedEntry) : (modSched n f s).host = s.host := rfl
@[simp] theorem modSched_dma (n : Nat) (f : SchedEntry → SchedEntry) : (modSched n f s).dma = s.dma := rfl
@[simp] theorem modSched_wdg (n : Nat) (f : SchedEntry → SchedEntry) : (modSched n f s).wdg = s.wdg := rfl
@[simp] theorem modSched_purse (n : Nat) (f : SchedEntry → SchedEntry) : (modSched n f s).purse = s.purse := rfl
@[simp] theorem modSched_errs (n : Nat) (f : SchedEntry → SchedEntry) : (modSched n f s).errs = s.errs := rfl
@[simp] theorem modSched_rtc (n : Nat) (f : SchedEntry → SchedEntry) : (modSched n f s).rtc = s.rtc := rfl
@[simp] theorem modSched_recorder (n : Nat) (f : SchedEntry → SchedEntry) : (modSched n f s).recorder = s.recorder := rfl
@[simp] theorem modSched_trends (n : Nat) (f : SchedEntry → SchedEntry) : (modSched n f s).trends = s.trends := rfl
@[simp] theorem modSched_engines (n : Nat) (f : SchedEntry → SchedEntry) : (modSched n f s).engines = s.engines := rfl
@[simp] theorem modSched_net (n : Nat) (f : SchedEntry → SchedEntry) : (modSched n f s).net = { s.net with sched := s.net.sched.modify n f } := rfl
@[simp] theorem modSched_field (n : Nat) (f : SchedEntry → SchedEntry) : (modSched n f s).field = s.field := rfl
@[simp] theorem modSched_red (n : Nat) (f : SchedEntry → SchedEntry) : (modSched n f s).red = s.red := rfl
@[simp] theorem modSched_nvs (n : Nat) (f : SchedEntry → SchedEntry) : (modSched n f s).nvs = s.nvs := rfl
@[simp] theorem modSched_power (n : Nat) (f : SchedEntry → SchedEntry) : (modSched n f s).power = s.power := rfl

/-! ### modChannel -/

@[simp] theorem modChannel_pending (n : Nat) (f : Channel → Channel) : (modChannel n f s).pending = s.pending := rfl
@[simp] theorem modChannel_mono (n : Nat) (f : Channel → Channel) : (modChannel n f s).mono = s.mono := rfl
@[simp] theorem modChannel_fresh (n : Nat) (f : Channel → Channel) : (modChannel n f s).fresh = s.fresh := rfl
@[simp] theorem modChannel_mem (n : Nat) (f : Channel → Channel) : (modChannel n f s).mem = s.mem := rfl
@[simp] theorem modChannel_ue (n : Nat) (f : Channel → Channel) : (modChannel n f s).ue = s.ue := rfl
@[simp] theorem modChannel_ctl (n : Nat) (f : Channel → Channel) : (modChannel n f s).ctl = s.ctl := rfl
@[simp] theorem modChannel_stalls (n : Nat) (f : Channel → Channel) : (modChannel n f s).stalls = s.stalls := rfl
@[simp] theorem modChannel_markets (n : Nat) (f : Channel → Channel) : (modChannel n f s).markets = s.markets := rfl
@[simp] theorem modChannel_tasks (n : Nat) (f : Channel → Channel) : (modChannel n f s).tasks = s.tasks := rfl
@[simp] theorem modChannel_signals (n : Nat) (f : Channel → Channel) : (modChannel n f s).signals = s.signals := rfl
@[simp] theorem modChannel_spctl (n : Nat) (f : Channel → Channel) : (modChannel n f s).spctl = s.spctl := rfl
@[simp] theorem modChannel_project (n : Nat) (f : Channel → Channel) : (modChannel n f s).project = s.project := rfl
@[simp] theorem modChannel_package (n : Nat) (f : Channel → Channel) : (modChannel n f s).package = s.package := rfl
@[simp] theorem modChannel_change (n : Nat) (f : Channel → Channel) : (modChannel n f s).change = s.change := rfl
@[simp] theorem modChannel_forces (n : Nat) (f : Channel → Channel) : (modChannel n f s).forces = s.forces := rfl
@[simp] theorem modChannel_routeJobs (n : Nat) (f : Channel → Channel) : (modChannel n f s).routeJobs = s.routeJobs := rfl
@[simp] theorem modChannel_trigs (n : Nat) (f : Channel → Channel) : (modChannel n f s).trigs = s.trigs := rfl
@[simp] theorem modChannel_directs (n : Nat) (f : Channel → Channel) : (modChannel n f s).directs = s.directs := rfl
@[simp] theorem modChannel_sysTurn (n : Nat) (f : Channel → Channel) : (modChannel n f s).sysTurn = s.sysTurn := rfl
@[simp] theorem modChannel_scrubPos (n : Nat) (f : Channel → Channel) : (modChannel n f s).scrubPos = s.scrubPos := rfl
@[simp] theorem modChannel_clock (n : Nat) (f : Channel → Channel) : (modChannel n f s).clock = s.clock := rfl
@[simp] theorem modChannel_tcmp (n : Nat) (f : Channel → Channel) : (modChannel n f s).tcmp = s.tcmp := rfl
@[simp] theorem modChannel_sync (n : Nat) (f : Channel → Channel) : (modChannel n f s).sync = s.sync := rfl
@[simp] theorem modChannel_host (n : Nat) (f : Channel → Channel) : (modChannel n f s).host = s.host := rfl
@[simp] theorem modChannel_dma (n : Nat) (f : Channel → Channel) : (modChannel n f s).dma = s.dma := rfl
@[simp] theorem modChannel_wdg (n : Nat) (f : Channel → Channel) : (modChannel n f s).wdg = s.wdg := rfl
@[simp] theorem modChannel_purse (n : Nat) (f : Channel → Channel) : (modChannel n f s).purse = s.purse := rfl
@[simp] theorem modChannel_errs (n : Nat) (f : Channel → Channel) : (modChannel n f s).errs = s.errs := rfl
@[simp] theorem modChannel_rtc (n : Nat) (f : Channel → Channel) : (modChannel n f s).rtc = s.rtc := rfl
@[simp] theorem modChannel_recorder (n : Nat) (f : Channel → Channel) : (modChannel n f s).recorder = s.recorder := rfl
@[simp] theorem modChannel_trends (n : Nat) (f : Channel → Channel) : (modChannel n f s).trends = s.trends := rfl
@[simp] theorem modChannel_engines (n : Nat) (f : Channel → Channel) : (modChannel n f s).engines = s.engines := rfl
@[simp] theorem modChannel_net (n : Nat) (f : Channel → Channel) : (modChannel n f s).net = s.net := rfl
@[simp] theorem modChannel_field (n : Nat) (f : Channel → Channel) : (modChannel n f s).field = { s.field with channels := vmod s.field.channels n f } := rfl
@[simp] theorem modChannel_red (n : Nat) (f : Channel → Channel) : (modChannel n f s).red = s.red := rfl
@[simp] theorem modChannel_nvs (n : Nat) (f : Channel → Channel) : (modChannel n f s).nvs = s.nvs := rfl
@[simp] theorem modChannel_power (n : Nat) (f : Channel → Channel) : (modChannel n f s).power = s.power := rfl

/-! ### post -/

@[simp] theorem post_pending (l : List HostOut) : (post l s).pending = s.pending := rfl
@[simp] theorem post_mono (l : List HostOut) : (post l s).mono = s.mono := rfl
@[simp] theorem post_fresh (l : List HostOut) : (post l s).fresh = s.fresh := rfl
@[simp] theorem post_mem (l : List HostOut) : (post l s).mem = s.mem := rfl
@[simp] theorem post_ue (l : List HostOut) : (post l s).ue = s.ue := rfl
@[simp] theorem post_ctl (l : List HostOut) : (post l s).ctl = s.ctl := rfl
@[simp] theorem post_stalls (l : List HostOut) : (post l s).stalls = s.stalls := rfl
@[simp] theorem post_markets (l : List HostOut) : (post l s).markets = s.markets := rfl
@[simp] theorem post_tasks (l : List HostOut) : (post l s).tasks = s.tasks := rfl
@[simp] theorem post_signals (l : List HostOut) : (post l s).signals = s.signals := rfl
@[simp] theorem post_spctl (l : List HostOut) : (post l s).spctl = s.spctl := rfl
@[simp] theorem post_project (l : List HostOut) : (post l s).project = s.project := rfl
@[simp] theorem post_package (l : List HostOut) : (post l s).package = s.package := rfl
@[simp] theorem post_change (l : List HostOut) : (post l s).change = s.change := rfl
@[simp] theorem post_forces (l : List HostOut) : (post l s).forces = s.forces := rfl
@[simp] theorem post_routeJobs (l : List HostOut) : (post l s).routeJobs = s.routeJobs := rfl
@[simp] theorem post_trigs (l : List HostOut) : (post l s).trigs = s.trigs := rfl
@[simp] theorem post_directs (l : List HostOut) : (post l s).directs = s.directs := rfl
@[simp] theorem post_sysTurn (l : List HostOut) : (post l s).sysTurn = s.sysTurn := rfl
@[simp] theorem post_scrubPos (l : List HostOut) : (post l s).scrubPos = s.scrubPos := rfl
@[simp] theorem post_clock (l : List HostOut) : (post l s).clock = s.clock := rfl
@[simp] theorem post_tcmp (l : List HostOut) : (post l s).tcmp = s.tcmp := rfl
@[simp] theorem post_sync (l : List HostOut) : (post l s).sync = s.sync := rfl
@[simp] theorem post_host (l : List HostOut) : (post l s).host = { s.host with posted := s.host.posted ++ l } := rfl
@[simp] theorem post_dma (l : List HostOut) : (post l s).dma = s.dma := rfl
@[simp] theorem post_wdg (l : List HostOut) : (post l s).wdg = s.wdg := rfl
@[simp] theorem post_purse (l : List HostOut) : (post l s).purse = s.purse := rfl
@[simp] theorem post_errs (l : List HostOut) : (post l s).errs = s.errs := rfl
@[simp] theorem post_rtc (l : List HostOut) : (post l s).rtc = s.rtc := rfl
@[simp] theorem post_recorder (l : List HostOut) : (post l s).recorder = s.recorder := rfl
@[simp] theorem post_trends (l : List HostOut) : (post l s).trends = s.trends := rfl
@[simp] theorem post_engines (l : List HostOut) : (post l s).engines = s.engines := rfl
@[simp] theorem post_net (l : List HostOut) : (post l s).net = s.net := rfl
@[simp] theorem post_field (l : List HostOut) : (post l s).field = s.field := rfl
@[simp] theorem post_red (l : List HostOut) : (post l s).red = s.red := rfl
@[simp] theorem post_nvs (l : List HostOut) : (post l s).nvs = s.nvs := rfl
@[simp] theorem post_power (l : List HostOut) : (post l s).power = s.power := rfl

/-! ### putBytes -/

@[simp] theorem putBytes_pending (a : Nat) (l : List Byte) : (putBytes s a l).pending = s.pending := rfl
@[simp] theorem putBytes_mono (a : Nat) (l : List Byte) : (putBytes s a l).mono = s.mono := rfl
@[simp] theorem putBytes_fresh (a : Nat) (l : List Byte) : (putBytes s a l).fresh = s.fresh := rfl
@[simp] theorem putBytes_mem (a : Nat) (l : List Byte) : (putBytes s a l).mem = memSplice s.mem a l := rfl
@[simp] theorem putBytes_ue (a : Nat) (l : List Byte) : (putBytes s a l).ue = s.ue := rfl
@[simp] theorem putBytes_ctl (a : Nat) (l : List Byte) : (putBytes s a l).ctl = s.ctl := rfl
@[simp] theorem putBytes_stalls (a : Nat) (l : List Byte) : (putBytes s a l).stalls = s.stalls := rfl
@[simp] theorem putBytes_markets (a : Nat) (l : List Byte) : (putBytes s a l).markets = s.markets := rfl
@[simp] theorem putBytes_tasks (a : Nat) (l : List Byte) : (putBytes s a l).tasks = s.tasks := rfl
@[simp] theorem putBytes_signals (a : Nat) (l : List Byte) : (putBytes s a l).signals = s.signals := rfl
@[simp] theorem putBytes_spctl (a : Nat) (l : List Byte) : (putBytes s a l).spctl = s.spctl := rfl
@[simp] theorem putBytes_project (a : Nat) (l : List Byte) : (putBytes s a l).project = s.project := rfl
@[simp] theorem putBytes_package (a : Nat) (l : List Byte) : (putBytes s a l).package = s.package := rfl
@[simp] theorem putBytes_change (a : Nat) (l : List Byte) : (putBytes s a l).change = s.change := rfl
@[simp] theorem putBytes_forces (a : Nat) (l : List Byte) : (putBytes s a l).forces = s.forces := rfl
@[simp] theorem putBytes_routeJobs (a : Nat) (l : List Byte) : (putBytes s a l).routeJobs = s.routeJobs := rfl
@[simp] theorem putBytes_trigs (a : Nat) (l : List Byte) : (putBytes s a l).trigs = s.trigs := rfl
@[simp] theorem putBytes_directs (a : Nat) (l : List Byte) : (putBytes s a l).directs = s.directs := rfl
@[simp] theorem putBytes_sysTurn (a : Nat) (l : List Byte) : (putBytes s a l).sysTurn = s.sysTurn := rfl
@[simp] theorem putBytes_scrubPos (a : Nat) (l : List Byte) : (putBytes s a l).scrubPos = s.scrubPos := rfl
@[simp] theorem putBytes_clock (a : Nat) (l : List Byte) : (putBytes s a l).clock = s.clock := rfl
@[simp] theorem putBytes_tcmp (a : Nat) (l : List Byte) : (putBytes s a l).tcmp = s.tcmp := rfl
@[simp] theorem putBytes_sync (a : Nat) (l : List Byte) : (putBytes s a l).sync = s.sync := rfl
@[simp] theorem putBytes_host (a : Nat) (l : List Byte) : (putBytes s a l).host = s.host := rfl
@[simp] theorem putBytes_dma (a : Nat) (l : List Byte) : (putBytes s a l).dma = s.dma := rfl
@[simp] theorem putBytes_wdg (a : Nat) (l : List Byte) : (putBytes s a l).wdg = s.wdg := rfl
@[simp] theorem putBytes_purse (a : Nat) (l : List Byte) : (putBytes s a l).purse = s.purse := rfl
@[simp] theorem putBytes_errs (a : Nat) (l : List Byte) : (putBytes s a l).errs = s.errs := rfl
@[simp] theorem putBytes_rtc (a : Nat) (l : List Byte) : (putBytes s a l).rtc = s.rtc := rfl
@[simp] theorem putBytes_recorder (a : Nat) (l : List Byte) : (putBytes s a l).recorder = s.recorder := rfl
@[simp] theorem putBytes_trends (a : Nat) (l : List Byte) : (putBytes s a l).trends = s.trends := rfl
@[simp] theorem putBytes_engines (a : Nat) (l : List Byte) : (putBytes s a l).engines = s.engines := rfl
@[simp] theorem putBytes_net (a : Nat) (l : List Byte) : (putBytes s a l).net = s.net := rfl
@[simp] theorem putBytes_field (a : Nat) (l : List Byte) : (putBytes s a l).field = s.field := rfl
@[simp] theorem putBytes_red (a : Nat) (l : List Byte) : (putBytes s a l).red = s.red := rfl
@[simp] theorem putBytes_nvs (a : Nat) (l : List Byte) : (putBytes s a l).nvs = s.nvs := rfl
@[simp] theorem putBytes_power (a : Nat) (l : List Byte) : (putBytes s a l).power = s.power := rfl

/-! ### modCtl -/

@[simp] theorem modCtl_pending (f : Control → Control) : (modCtl f s).pending = s.pending := rfl
@[simp] theorem modCtl_mono (f : Control → Control) : (modCtl f s).mono = s.mono := rfl
@[simp] theorem modCtl_fresh (f : Control → Control) : (modCtl f s).fresh = s.fresh := rfl
@[simp] theorem modCtl_mem (f : Control → Control) : (modCtl f s).mem = s.mem := rfl
@[simp] theorem modCtl_ue (f : Control → Control) : (modCtl f s).ue = s.ue := rfl
@[simp] theorem modCtl_ctl (f : Control → Control) : (modCtl f s).ctl = f s.ctl := rfl
@[simp] theorem modCtl_stalls (f : Control → Control) : (modCtl f s).stalls = s.stalls := rfl
@[simp] theorem modCtl_markets (f : Control → Control) : (modCtl f s).markets = s.markets := rfl
@[simp] theorem modCtl_tasks (f : Control → Control) : (modCtl f s).tasks = s.tasks := rfl
@[simp] theorem modCtl_signals (f : Control → Control) : (modCtl f s).signals = s.signals := rfl
@[simp] theorem modCtl_spctl (f : Control → Control) : (modCtl f s).spctl = s.spctl := rfl
@[simp] theorem modCtl_project (f : Control → Control) : (modCtl f s).project = s.project := rfl
@[simp] theorem modCtl_package (f : Control → Control) : (modCtl f s).package = s.package := rfl
@[simp] theorem modCtl_change (f : Control → Control) : (modCtl f s).change = s.change := rfl
@[simp] theorem modCtl_forces (f : Control → Control) : (modCtl f s).forces = s.forces := rfl
@[simp] theorem modCtl_routeJobs (f : Control → Control) : (modCtl f s).routeJobs = s.routeJobs := rfl
@[simp] theorem modCtl_trigs (f : Control → Control) : (modCtl f s).trigs = s.trigs := rfl
@[simp] theorem modCtl_directs (f : Control → Control) : (modCtl f s).directs = s.directs := rfl
@[simp] theorem modCtl_sysTurn (f : Control → Control) : (modCtl f s).sysTurn = s.sysTurn := rfl
@[simp] theorem modCtl_scrubPos (f : Control → Control) : (modCtl f s).scrubPos = s.scrubPos := rfl
@[simp] theorem modCtl_clock (f : Control → Control) : (modCtl f s).clock = s.clock := rfl
@[simp] theorem modCtl_tcmp (f : Control → Control) : (modCtl f s).tcmp = s.tcmp := rfl
@[simp] theorem modCtl_sync (f : Control → Control) : (modCtl f s).sync = s.sync := rfl
@[simp] theorem modCtl_host (f : Control → Control) : (modCtl f s).host = s.host := rfl
@[simp] theorem modCtl_dma (f : Control → Control) : (modCtl f s).dma = s.dma := rfl
@[simp] theorem modCtl_wdg (f : Control → Control) : (modCtl f s).wdg = s.wdg := rfl
@[simp] theorem modCtl_purse (f : Control → Control) : (modCtl f s).purse = s.purse := rfl
@[simp] theorem modCtl_errs (f : Control → Control) : (modCtl f s).errs = s.errs := rfl
@[simp] theorem modCtl_rtc (f : Control → Control) : (modCtl f s).rtc = s.rtc := rfl
@[simp] theorem modCtl_recorder (f : Control → Control) : (modCtl f s).recorder = s.recorder := rfl
@[simp] theorem modCtl_trends (f : Control → Control) : (modCtl f s).trends = s.trends := rfl
@[simp] theorem modCtl_engines (f : Control → Control) : (modCtl f s).engines = s.engines := rfl
@[simp] theorem modCtl_net (f : Control → Control) : (modCtl f s).net = s.net := rfl
@[simp] theorem modCtl_field (f : Control → Control) : (modCtl f s).field = s.field := rfl
@[simp] theorem modCtl_red (f : Control → Control) : (modCtl f s).red = s.red := rfl
@[simp] theorem modCtl_nvs (f : Control → Control) : (modCtl f s).nvs = s.nvs := rfl
@[simp] theorem modCtl_power (f : Control → Control) : (modCtl f s).power = s.power := rfl

/-! ### modNvs -/

@[simp] theorem modNvs_pending (f : Nvs → Nvs) : (modNvs f s).pending = s.pending := rfl
@[simp] theorem modNvs_mono (f : Nvs → Nvs) : (modNvs f s).mono = s.mono := rfl
@[simp] theorem modNvs_fresh (f : Nvs → Nvs) : (modNvs f s).fresh = s.fresh := rfl
@[simp] theorem modNvs_mem (f : Nvs → Nvs) : (modNvs f s).mem = s.mem := rfl
@[simp] theorem modNvs_ue (f : Nvs → Nvs) : (modNvs f s).ue = s.ue := rfl
@[simp] theorem modNvs_ctl (f : Nvs → Nvs) : (modNvs f s).ctl = s.ctl := rfl
@[simp] theorem modNvs_stalls (f : Nvs → Nvs) : (modNvs f s).stalls = s.stalls := rfl
@[simp] theorem modNvs_markets (f : Nvs → Nvs) : (modNvs f s).markets = s.markets := rfl
@[simp] theorem modNvs_tasks (f : Nvs → Nvs) : (modNvs f s).tasks = s.tasks := rfl
@[simp] theorem modNvs_signals (f : Nvs → Nvs) : (modNvs f s).signals = s.signals := rfl
@[simp] theorem modNvs_spctl (f : Nvs → Nvs) : (modNvs f s).spctl = s.spctl := rfl
@[simp] theorem modNvs_project (f : Nvs → Nvs) : (modNvs f s).project = s.project := rfl
@[simp] theorem modNvs_package (f : Nvs → Nvs) : (modNvs f s).package = s.package := rfl
@[simp] theorem modNvs_change (f : Nvs → Nvs) : (modNvs f s).change = s.change := rfl
@[simp] theorem modNvs_forces (f : Nvs → Nvs) : (modNvs f s).forces = s.forces := rfl
@[simp] theorem modNvs_routeJobs (f : Nvs → Nvs) : (modNvs f s).routeJobs = s.routeJobs := rfl
@[simp] theorem modNvs_trigs (f : Nvs → Nvs) : (modNvs f s).trigs = s.trigs := rfl
@[simp] theorem modNvs_directs (f : Nvs → Nvs) : (modNvs f s).directs = s.directs := rfl
@[simp] theorem modNvs_sysTurn (f : Nvs → Nvs) : (modNvs f s).sysTurn = s.sysTurn := rfl
@[simp] theorem modNvs_scrubPos (f : Nvs → Nvs) : (modNvs f s).scrubPos = s.scrubPos := rfl
@[simp] theorem modNvs_clock (f : Nvs → Nvs) : (modNvs f s).clock = s.clock := rfl
@[simp] theorem modNvs_tcmp (f : Nvs → Nvs) : (modNvs f s).tcmp = s.tcmp := rfl
@[simp] theorem modNvs_sync (f : Nvs → Nvs) : (modNvs f s).sync = s.sync := rfl
@[simp] theorem modNvs_host (f : Nvs → Nvs) : (modNvs f s).host = s.host := rfl
@[simp] theorem modNvs_dma (f : Nvs → Nvs) : (modNvs f s).dma = s.dma := rfl
@[simp] theorem modNvs_wdg (f : Nvs → Nvs) : (modNvs f s).wdg = s.wdg := rfl
@[simp] theorem modNvs_purse (f : Nvs → Nvs) : (modNvs f s).purse = s.purse := rfl
@[simp] theorem modNvs_errs (f : Nvs → Nvs) : (modNvs f s).errs = s.errs := rfl
@[simp] theorem modNvs_rtc (f : Nvs → Nvs) : (modNvs f s).rtc = s.rtc := rfl
@[simp] theorem modNvs_recorder (f : Nvs → Nvs) : (modNvs f s).recorder = s.recorder := rfl
@[simp] theorem modNvs_trends (f : Nvs → Nvs) : (modNvs f s).trends = s.trends := rfl
@[simp] theorem modNvs_engines (f : Nvs → Nvs) : (modNvs f s).engines = s.engines := rfl
@[simp] theorem modNvs_net (f : Nvs → Nvs) : (modNvs f s).net = s.net := rfl
@[simp] theorem modNvs_field (f : Nvs → Nvs) : (modNvs f s).field = s.field := rfl
@[simp] theorem modNvs_red (f : Nvs → Nvs) : (modNvs f s).red = s.red := rfl
@[simp] theorem modNvs_nvs (f : Nvs → Nvs) : (modNvs f s).nvs = f s.nvs := rfl
@[simp] theorem modNvs_power (f : Nvs → Nvs) : (modNvs f s).power = s.power := rfl

/-! ### modRed -/

@[simp] theorem modRed_pending (f : Red → Red) : (modRed f s).pending = s.pending := rfl
@[simp] theorem modRed_mono (f : Red → Red) : (modRed f s).mono = s.mono := rfl
@[simp] theorem modRed_fresh (f : Red → Red) : (modRed f s).fresh = s.fresh := rfl
@[simp] theorem modRed_mem (f : Red → Red) : (modRed f s).mem = s.mem := rfl
@[simp] theorem modRed_ue (f : Red → Red) : (modRed f s).ue = s.ue := rfl
@[simp] theorem modRed_ctl (f : Red → Red) : (modRed f s).ctl = s.ctl := rfl
@[simp] theorem modRed_stalls (f : Red → Red) : (modRed f s).stalls = s.stalls := rfl
@[simp] theorem modRed_markets (f : Red → Red) : (modRed f s).markets = s.markets := rfl
@[simp] theorem modRed_tasks (f : Red → Red) : (modRed f s).tasks = s.tasks := rfl
@[simp] theorem modRed_signals (f : Red → Red) : (modRed f s).signals = s.signals := rfl
@[simp] theorem modRed_spctl (f : Red → Red) : (modRed f s).spctl = s.spctl := rfl
@[simp] theorem modRed_project (f : Red → Red) : (modRed f s).project = s.project := rfl
@[simp] theorem modRed_package (f : Red → Red) : (modRed f s).package = s.package := rfl
@[simp] theorem modRed_change (f : Red → Red) : (modRed f s).change = s.change := rfl
@[simp] theorem modRed_forces (f : Red → Red) : (modRed f s).forces = s.forces := rfl
@[simp] theorem modRed_routeJobs (f : Red → Red) : (modRed f s).routeJobs = s.routeJobs := rfl
@[simp] theorem modRed_trigs (f : Red → Red) : (modRed f s).trigs = s.trigs := rfl
@[simp] theorem modRed_directs (f : Red → Red) : (modRed f s).directs = s.directs := rfl
@[simp] theorem modRed_sysTurn (f : Red → Red) : (modRed f s).sysTurn = s.sysTurn := rfl
@[simp] theorem modRed_scrubPos (f : Red → Red) : (modRed f s).scrubPos = s.scrubPos := rfl
@[simp] theorem modRed_clock (f : Red → Red) : (modRed f s).clock = s.clock := rfl
@[simp] theorem modRed_tcmp (f : Red → Red) : (modRed f s).tcmp = s.tcmp := rfl
@[simp] theorem modRed_sync (f : Red → Red) : (modRed f s).sync = s.sync := rfl
@[simp] theorem modRed_host (f : Red → Red) : (modRed f s).host = s.host := rfl
@[simp] theorem modRed_dma (f : Red → Red) : (modRed f s).dma = s.dma := rfl
@[simp] theorem modRed_wdg (f : Red → Red) : (modRed f s).wdg = s.wdg := rfl
@[simp] theorem modRed_purse (f : Red → Red) : (modRed f s).purse = s.purse := rfl
@[simp] theorem modRed_errs (f : Red → Red) : (modRed f s).errs = s.errs := rfl
@[simp] theorem modRed_rtc (f : Red → Red) : (modRed f s).rtc = s.rtc := rfl
@[simp] theorem modRed_recorder (f : Red → Red) : (modRed f s).recorder = s.recorder := rfl
@[simp] theorem modRed_trends (f : Red → Red) : (modRed f s).trends = s.trends := rfl
@[simp] theorem modRed_engines (f : Red → Red) : (modRed f s).engines = s.engines := rfl
@[simp] theorem modRed_net (f : Red → Red) : (modRed f s).net = s.net := rfl
@[simp] theorem modRed_field (f : Red → Red) : (modRed f s).field = s.field := rfl
@[simp] theorem modRed_red (f : Red → Red) : (modRed f s).red = f s.red := rfl
@[simp] theorem modRed_nvs (f : Red → Red) : (modRed f s).nvs = s.nvs := rfl
@[simp] theorem modRed_power (f : Red → Red) : (modRed f s).power = s.power := rfl

/-! ### modPower -/

@[simp] theorem modPower_pending (f : Power → Power) : (modPower f s).pending = s.pending := rfl
@[simp] theorem modPower_mono (f : Power → Power) : (modPower f s).mono = s.mono := rfl
@[simp] theorem modPower_fresh (f : Power → Power) : (modPower f s).fresh = s.fresh := rfl
@[simp] theorem modPower_mem (f : Power → Power) : (modPower f s).mem = s.mem := rfl
@[simp] theorem modPower_ue (f : Power → Power) : (modPower f s).ue = s.ue := rfl
@[simp] theorem modPower_ctl (f : Power → Power) : (modPower f s).ctl = s.ctl := rfl
@[simp] theorem modPower_stalls (f : Power → Power) : (modPower f s).stalls = s.stalls := rfl
@[simp] theorem modPower_markets (f : Power → Power) : (modPower f s).markets = s.markets := rfl
@[simp] theorem modPower_tasks (f : Power → Power) : (modPower f s).tasks = s.tasks := rfl
@[simp] theorem modPower_signals (f : Power → Power) : (modPower f s).signals = s.signals := rfl
@[simp] theorem modPower_spctl (f : Power → Power) : (modPower f s).spctl = s.spctl := rfl
@[simp] theorem modPower_project (f : Power → Power) : (modPower f s).project = s.project := rfl
@[simp] theorem modPower_package (f : Power → Power) : (modPower f s).package = s.package := rfl
@[simp] theorem modPower_change (f : Power → Power) : (modPower f s).change = s.change := rfl
@[simp] theorem modPower_forces (f : Power → Power) : (modPower f s).forces = s.forces := rfl
@[simp] theorem modPower_routeJobs (f : Power → Power) : (modPower f s).routeJobs = s.routeJobs := rfl
@[simp] theorem modPower_trigs (f : Power → Power) : (modPower f s).trigs = s.trigs := rfl
@[simp] theorem modPower_directs (f : Power → Power) : (modPower f s).directs = s.directs := rfl
@[simp] theorem modPower_sysTurn (f : Power → Power) : (modPower f s).sysTurn = s.sysTurn := rfl
@[simp] theorem modPower_scrubPos (f : Power → Power) : (modPower f s).scrubPos = s.scrubPos := rfl
@[simp] theorem modPower_clock (f : Power → Power) : (modPower f s).clock = s.clock := rfl
@[simp] theorem modPower_tcmp (f : Power → Power) : (modPower f s).tcmp = s.tcmp := rfl
@[simp] theorem modPower_sync (f : Power → Power) : (modPower f s).sync = s.sync := rfl
@[simp] theorem modPower_host (f : Power → Power) : (modPower f s).host = s.host := rfl
@[simp] theorem modPower_dma (f : Power → Power) : (modPower f s).dma = s.dma := rfl
@[simp] theorem modPower_wdg (f : Power → Power) : (modPower f s).wdg = s.wdg := rfl
@[simp] theorem modPower_purse (f : Power → Power) : (modPower f s).purse = s.purse := rfl
@[simp] theorem modPower_errs (f : Power → Power) : (modPower f s).errs = s.errs := rfl
@[simp] theorem modPower_rtc (f : Power → Power) : (modPower f s).rtc = s.rtc := rfl
@[simp] theorem modPower_recorder (f : Power → Power) : (modPower f s).recorder = s.recorder := rfl
@[simp] theorem modPower_trends (f : Power → Power) : (modPower f s).trends = s.trends := rfl
@[simp] theorem modPower_engines (f : Power → Power) : (modPower f s).engines = s.engines := rfl
@[simp] theorem modPower_net (f : Power → Power) : (modPower f s).net = s.net := rfl
@[simp] theorem modPower_field (f : Power → Power) : (modPower f s).field = s.field := rfl
@[simp] theorem modPower_red (f : Power → Power) : (modPower f s).red = s.red := rfl
@[simp] theorem modPower_nvs (f : Power → Power) : (modPower f s).nvs = s.nvs := rfl
@[simp] theorem modPower_power (f : Power → Power) : (modPower f s).power = f s.power := rfl

/-! ### modRecorder -/

@[simp] theorem modRecorder_pending (f : Recorder → Recorder) : (modRecorder f s).pending = s.pending := rfl
@[simp] theorem modRecorder_mono (f : Recorder → Recorder) : (modRecorder f s).mono = s.mono := rfl
@[simp] theorem modRecorder_fresh (f : Recorder → Recorder) : (modRecorder f s).fresh = s.fresh := rfl
@[simp] theorem modRecorder_mem (f : Recorder → Recorder) : (modRecorder f s).mem = s.mem := rfl
@[simp] theorem modRecorder_ue (f : Recorder → Recorder) : (modRecorder f s).ue = s.ue := rfl
@[simp] theorem modRecorder_ctl (f : Recorder → Recorder) : (modRecorder f s).ctl = s.ctl := rfl
@[simp] theorem modRecorder_stalls (f : Recorder → Recorder) : (modRecorder f s).stalls = s.stalls := rfl
@[simp] theorem modRecorder_markets (f : Recorder → Recorder) : (modRecorder f s).markets = s.markets := rfl
@[simp] theorem modRecorder_tasks (f : Recorder → Recorder) : (modRecorder f s).tasks = s.tasks := rfl
@[simp] theorem modRecorder_signals (f : Recorder → Recorder) : (modRecorder f s).signals = s.signals := rfl
@[simp] theorem modRecorder_spctl (f : Recorder → Recorder) : (modRecorder f s).spctl = s.spctl := rfl
@[simp] theorem modRecorder_project (f : Recorder → Recorder) : (modRecorder f s).project = s.project := rfl
@[simp] theorem modRecorder_package (f : Recorder → Recorder) : (modRecorder f s).package = s.package := rfl
@[simp] theorem modRecorder_change (f : Recorder → Recorder) : (modRecorder f s).change = s.change := rfl
@[simp] theorem modRecorder_forces (f : Recorder → Recorder) : (modRecorder f s).forces = s.forces := rfl
@[simp] theorem modRecorder_routeJobs (f : Recorder → Recorder) : (modRecorder f s).routeJobs = s.routeJobs := rfl
@[simp] theorem modRecorder_trigs (f : Recorder → Recorder) : (modRecorder f s).trigs = s.trigs := rfl
@[simp] theorem modRecorder_directs (f : Recorder → Recorder) : (modRecorder f s).directs = s.directs := rfl
@[simp] theorem modRecorder_sysTurn (f : Recorder → Recorder) : (modRecorder f s).sysTurn = s.sysTurn := rfl
@[simp] theorem modRecorder_scrubPos (f : Recorder → Recorder) : (modRecorder f s).scrubPos = s.scrubPos := rfl
@[simp] theorem modRecorder_clock (f : Recorder → Recorder) : (modRecorder f s).clock = s.clock := rfl
@[simp] theorem modRecorder_tcmp (f : Recorder → Recorder) : (modRecorder f s).tcmp = s.tcmp := rfl
@[simp] theorem modRecorder_sync (f : Recorder → Recorder) : (modRecorder f s).sync = s.sync := rfl
@[simp] theorem modRecorder_host (f : Recorder → Recorder) : (modRecorder f s).host = s.host := rfl
@[simp] theorem modRecorder_dma (f : Recorder → Recorder) : (modRecorder f s).dma = s.dma := rfl
@[simp] theorem modRecorder_wdg (f : Recorder → Recorder) : (modRecorder f s).wdg = s.wdg := rfl
@[simp] theorem modRecorder_purse (f : Recorder → Recorder) : (modRecorder f s).purse = s.purse := rfl
@[simp] theorem modRecorder_errs (f : Recorder → Recorder) : (modRecorder f s).errs = s.errs := rfl
@[simp] theorem modRecorder_rtc (f : Recorder → Recorder) : (modRecorder f s).rtc = s.rtc := rfl
@[simp] theorem modRecorder_recorder (f : Recorder → Recorder) : (modRecorder f s).recorder = f s.recorder := rfl
@[simp] theorem modRecorder_trends (f : Recorder → Recorder) : (modRecorder f s).trends = s.trends := rfl
@[simp] theorem modRecorder_engines (f : Recorder → Recorder) : (modRecorder f s).engines = s.engines := rfl
@[simp] theorem modRecorder_net (f : Recorder → Recorder) : (modRecorder f s).net = s.net := rfl
@[simp] theorem modRecorder_field (f : Recorder → Recorder) : (modRecorder f s).field = s.field := rfl
@[simp] theorem modRecorder_red (f : Recorder → Recorder) : (modRecorder f s).red = s.red := rfl
@[simp] theorem modRecorder_nvs (f : Recorder → Recorder) : (modRecorder f s).nvs = s.nvs := rfl
@[simp] theorem modRecorder_power (f : Recorder → Recorder) : (modRecorder f s).power = s.power := rfl

/-! ### modRtc -/

@[simp] theorem modRtc_pending (f : Rtc → Rtc) : (modRtc f s).pending = s.pending := rfl
@[simp] theorem modRtc_mono (f : Rtc → Rtc) : (modRtc f s).mono = s.mono := rfl
@[simp] theorem modRtc_fresh (f : Rtc → Rtc) : (modRtc f s).fresh = s.fresh := rfl
@[simp] theorem modRtc_mem (f : Rtc → Rtc) : (modRtc f s).mem = s.mem := rfl
@[simp] theorem modRtc_ue (f : Rtc → Rtc) : (modRtc f s).ue = s.ue := rfl
@[simp] theorem modRtc_ctl (f : Rtc → Rtc) : (modRtc f s).ctl = s.ctl := rfl
@[simp] theorem modRtc_stalls (f : Rtc → Rtc) : (modRtc f s).stalls = s.stalls := rfl
@[simp] theorem modRtc_markets (f : Rtc → Rtc) : (modRtc f s).markets = s.markets := rfl
@[simp] theorem modRtc_tasks (f : Rtc → Rtc) : (modRtc f s).tasks = s.tasks := rfl
@[simp] theorem modRtc_signals (f : Rtc → Rtc) : (modRtc f s).signals = s.signals := rfl
@[simp] theorem modRtc_spctl (f : Rtc → Rtc) : (modRtc f s).spctl = s.spctl := rfl
@[simp] theorem modRtc_project (f : Rtc → Rtc) : (modRtc f s).project = s.project := rfl
@[simp] theorem modRtc_package (f : Rtc → Rtc) : (modRtc f s).package = s.package := rfl
@[simp] theorem modRtc_change (f : Rtc → Rtc) : (modRtc f s).change = s.change := rfl
@[simp] theorem modRtc_forces (f : Rtc → Rtc) : (modRtc f s).forces = s.forces := rfl
@[simp] theorem modRtc_routeJobs (f : Rtc → Rtc) : (modRtc f s).routeJobs = s.routeJobs := rfl
@[simp] theorem modRtc_trigs (f : Rtc → Rtc) : (modRtc f s).trigs = s.trigs := rfl
@[simp] theorem modRtc_directs (f : Rtc → Rtc) : (modRtc f s).directs = s.directs := rfl
@[simp] theorem modRtc_sysTurn (f : Rtc → Rtc) : (modRtc f s).sysTurn = s.sysTurn := rfl
@[simp] theorem modRtc_scrubPos (f : Rtc → Rtc) : (modRtc f s).scrubPos = s.scrubPos := rfl
@[simp] theorem modRtc_clock (f : Rtc → Rtc) : (modRtc f s).clock = s.clock := rfl
@[simp] theorem modRtc_tcmp (f : Rtc → Rtc) : (modRtc f s).tcmp = s.tcmp := rfl
@[simp] theorem modRtc_sync (f : Rtc → Rtc) : (modRtc f s).sync = s.sync := rfl
@[simp] theorem modRtc_host (f : Rtc → Rtc) : (modRtc f s).host = s.host := rfl
@[simp] theorem modRtc_dma (f : Rtc → Rtc) : (modRtc f s).dma = s.dma := rfl
@[simp] theorem modRtc_wdg (f : Rtc → Rtc) : (modRtc f s).wdg = s.wdg := rfl
@[simp] theorem modRtc_purse (f : Rtc → Rtc) : (modRtc f s).purse = s.purse := rfl
@[simp] theorem modRtc_errs (f : Rtc → Rtc) : (modRtc f s).errs = s.errs := rfl
@[simp] theorem modRtc_rtc (f : Rtc → Rtc) : (modRtc f s).rtc = f s.rtc := rfl
@[simp] theorem modRtc_recorder (f : Rtc → Rtc) : (modRtc f s).recorder = s.recorder := rfl
@[simp] theorem modRtc_trends (f : Rtc → Rtc) : (modRtc f s).trends = s.trends := rfl
@[simp] theorem modRtc_engines (f : Rtc → Rtc) : (modRtc f s).engines = s.engines := rfl
@[simp] theorem modRtc_net (f : Rtc → Rtc) : (modRtc f s).net = s.net := rfl
@[simp] theorem modRtc_field (f : Rtc → Rtc) : (modRtc f s).field = s.field := rfl
@[simp] theorem modRtc_red (f : Rtc → Rtc) : (modRtc f s).red = s.red := rfl
@[simp] theorem modRtc_nvs (f : Rtc → Rtc) : (modRtc f s).nvs = s.nvs := rfl
@[simp] theorem modRtc_power (f : Rtc → Rtc) : (modRtc f s).power = s.power := rfl

/-! ### modClock -/

@[simp] theorem modClock_pending (f : Clock → Clock) : (modClock f s).pending = s.pending := rfl
@[simp] theorem modClock_mono (f : Clock → Clock) : (modClock f s).mono = s.mono := rfl
@[simp] theorem modClock_fresh (f : Clock → Clock) : (modClock f s).fresh = s.fresh := rfl
@[simp] theorem modClock_mem (f : Clock → Clock) : (modClock f s).mem = s.mem := rfl
@[simp] theorem modClock_ue (f : Clock → Clock) : (modClock f s).ue = s.ue := rfl
@[simp] theorem modClock_ctl (f : Clock → Clock) : (modClock f s).ctl = s.ctl := rfl
@[simp] theorem modClock_stalls (f : Clock → Clock) : (modClock f s).stalls = s.stalls := rfl
@[simp] theorem modClock_markets (f : Clock → Clock) : (modClock f s).markets = s.markets := rfl
@[simp] theorem modClock_tasks (f : Clock → Clock) : (modClock f s).tasks = s.tasks := rfl
@[simp] theorem modClock_signals (f : Clock → Clock) : (modClock f s).signals = s.signals := rfl
@[simp] theorem modClock_spctl (f : Clock → Clock) : (modClock f s).spctl = s.spctl := rfl
@[simp] theorem modClock_project (f : Clock → Clock) : (modClock f s).project = s.project := rfl
@[simp] theorem modClock_package (f : Clock → Clock) : (modClock f s).package = s.package := rfl
@[simp] theorem modClock_change (f : Clock → Clock) : (modClock f s).change = s.change := rfl
@[simp] theorem modClock_forces (f : Clock → Clock) : (modClock f s).forces = s.forces := rfl
@[simp] theorem modClock_routeJobs (f : Clock → Clock) : (modClock f s).routeJobs = s.routeJobs := rfl
@[simp] theorem modClock_trigs (f : Clock → Clock) : (modClock f s).trigs = s.trigs := rfl
@[simp] theorem modClock_directs (f : Clock → Clock) : (modClock f s).directs = s.directs := rfl
@[simp] theorem modClock_sysTurn (f : Clock → Clock) : (modClock f s).sysTurn = s.sysTurn := rfl
@[simp] theorem modClock_scrubPos (f : Clock → Clock) : (modClock f s).scrubPos = s.scrubPos := rfl
@[simp] theorem modClock_clock (f : Clock → Clock) : (modClock f s).clock = f s.clock := rfl
@[simp] theorem modClock_tcmp (f : Clock → Clock) : (modClock f s).tcmp = s.tcmp := rfl
@[simp] theorem modClock_sync (f : Clock → Clock) : (modClock f s).sync = s.sync := rfl
@[simp] theorem modClock_host (f : Clock → Clock) : (modClock f s).host = s.host := rfl
@[simp] theorem modClock_dma (f : Clock → Clock) : (modClock f s).dma = s.dma := rfl
@[simp] theorem modClock_wdg (f : Clock → Clock) : (modClock f s).wdg = s.wdg := rfl
@[simp] theorem modClock_purse (f : Clock → Clock) : (modClock f s).purse = s.purse := rfl
@[simp] theorem modClock_errs (f : Clock → Clock) : (modClock f s).errs = s.errs := rfl
@[simp] theorem modClock_rtc (f : Clock → Clock) : (modClock f s).rtc = s.rtc := rfl
@[simp] theorem modClock_recorder (f : Clock → Clock) : (modClock f s).recorder = s.recorder := rfl
@[simp] theorem modClock_trends (f : Clock → Clock) : (modClock f s).trends = s.trends := rfl
@[simp] theorem modClock_engines (f : Clock → Clock) : (modClock f s).engines = s.engines := rfl
@[simp] theorem modClock_net (f : Clock → Clock) : (modClock f s).net = s.net := rfl
@[simp] theorem modClock_field (f : Clock → Clock) : (modClock f s).field = s.field := rfl
@[simp] theorem modClock_red (f : Clock → Clock) : (modClock f s).red = s.red := rfl
@[simp] theorem modClock_nvs (f : Clock → Clock) : (modClock f s).nvs = s.nvs := rfl
@[simp] theorem modClock_power (f : Clock → Clock) : (modClock f s).power = s.power := rfl

/-! ### modSync -/

@[simp] theorem modSync_pending (f : TimeSync → TimeSync) : (modSync f s).pending = s.pending := rfl
@[simp] theorem modSync_mono (f : TimeSync → TimeSync) : (modSync f s).mono = s.mono := rfl
@[simp] theorem modSync_fresh (f : TimeSync → TimeSync) : (modSync f s).fresh = s.fresh := rfl
@[simp] theorem modSync_mem (f : TimeSync → TimeSync) : (modSync f s).mem = s.mem := rfl
@[simp] theorem modSync_ue (f : TimeSync → TimeSync) : (modSync f s).ue = s.ue := rfl
@[simp] theorem modSync_ctl (f : TimeSync → TimeSync) : (modSync f s).ctl = s.ctl := rfl
@[simp] theorem modSync_stalls (f : TimeSync → TimeSync) : (modSync f s).stalls = s.stalls := rfl
@[simp] theorem modSync_markets (f : TimeSync → TimeSync) : (modSync f s).markets = s.markets := rfl
@[simp] theorem modSync_tasks (f : TimeSync → TimeSync) : (modSync f s).tasks = s.tasks := rfl
@[simp] theorem modSync_signals (f : TimeSync → TimeSync) : (modSync f s).signals = s.signals := rfl
@[simp] theorem modSync_spctl (f : TimeSync → TimeSync) : (modSync f s).spctl = s.spctl := rfl
@[simp] theorem modSync_project (f : TimeSync → TimeSync) : (modSync f s).project = s.project := rfl
@[simp] theorem modSync_package (f : TimeSync → TimeSync) : (modSync f s).package = s.package := rfl
@[simp] theorem modSync_change (f : TimeSync → TimeSync) : (modSync f s).change = s.change := rfl
@[simp] theorem modSync_forces (f : TimeSync → TimeSync) : (modSync f s).forces = s.forces := rfl
@[simp] theorem modSync_routeJobs (f : TimeSync → TimeSync) : (modSync f s).routeJobs = s.routeJobs := rfl
@[simp] theorem modSync_trigs (f : TimeSync → TimeSync) : (modSync f s).trigs = s.trigs := rfl
@[simp] theorem modSync_directs (f : TimeSync → TimeSync) : (modSync f s).directs = s.directs := rfl
@[simp] theorem modSync_sysTurn (f : TimeSync → TimeSync) : (modSync f s).sysTurn = s.sysTurn := rfl
@[simp] theorem modSync_scrubPos (f : TimeSync → TimeSync) : (modSync f s).scrubPos = s.scrubPos := rfl
@[simp] theorem modSync_clock (f : TimeSync → TimeSync) : (modSync f s).clock = s.clock := rfl
@[simp] theorem modSync_tcmp (f : TimeSync → TimeSync) : (modSync f s).tcmp = s.tcmp := rfl
@[simp] theorem modSync_sync (f : TimeSync → TimeSync) : (modSync f s).sync = f s.sync := rfl
@[simp] theorem modSync_host (f : TimeSync → TimeSync) : (modSync f s).host = s.host := rfl
@[simp] theorem modSync_dma (f : TimeSync → TimeSync) : (modSync f s).dma = s.dma := rfl
@[simp] theorem modSync_wdg (f : TimeSync → TimeSync) : (modSync f s).wdg = s.wdg := rfl
@[simp] theorem modSync_purse (f : TimeSync → TimeSync) : (modSync f s).purse = s.purse := rfl
@[simp] theorem modSync_errs (f : TimeSync → TimeSync) : (modSync f s).errs = s.errs := rfl
@[simp] theorem modSync_rtc (f : TimeSync → TimeSync) : (modSync f s).rtc = s.rtc := rfl
@[simp] theorem modSync_recorder (f : TimeSync → TimeSync) : (modSync f s).recorder = s.recorder := rfl
@[simp] theorem modSync_trends (f : TimeSync → TimeSync) : (modSync f s).trends = s.trends := rfl
@[simp] theorem modSync_engines (f : TimeSync → TimeSync) : (modSync f s).engines = s.engines := rfl
@[simp] theorem modSync_net (f : TimeSync → TimeSync) : (modSync f s).net = s.net := rfl
@[simp] theorem modSync_field (f : TimeSync → TimeSync) : (modSync f s).field = s.field := rfl
@[simp] theorem modSync_red (f : TimeSync → TimeSync) : (modSync f s).red = s.red := rfl
@[simp] theorem modSync_nvs (f : TimeSync → TimeSync) : (modSync f s).nvs = s.nvs := rfl
@[simp] theorem modSync_power (f : TimeSync → TimeSync) : (modSync f s).power = s.power := rfl

/-! ### modWdg -/

@[simp] theorem modWdg_pending (f : Watchdog → Watchdog) : (modWdg f s).pending = s.pending := rfl
@[simp] theorem modWdg_mono (f : Watchdog → Watchdog) : (modWdg f s).mono = s.mono := rfl
@[simp] theorem modWdg_fresh (f : Watchdog → Watchdog) : (modWdg f s).fresh = s.fresh := rfl
@[simp] theorem modWdg_mem (f : Watchdog → Watchdog) : (modWdg f s).mem = s.mem := rfl
@[simp] theorem modWdg_ue (f : Watchdog → Watchdog) : (modWdg f s).ue = s.ue := rfl
@[simp] theorem modWdg_ctl (f : Watchdog → Watchdog) : (modWdg f s).ctl = s.ctl := rfl
@[simp] theorem modWdg_stalls (f : Watchdog → Watchdog) : (modWdg f s).stalls = s.stalls := rfl
@[simp] theorem modWdg_markets (f : Watchdog → Watchdog) : (modWdg f s).markets = s.markets := rfl
@[simp] theorem modWdg_tasks (f : Watchdog → Watchdog) : (modWdg f s).tasks = s.tasks := rfl
@[simp] theorem modWdg_signals (f : Watchdog → Watchdog) : (modWdg f s).signals = s.signals := rfl
@[simp] theorem modWdg_spctl (f : Watchdog → Watchdog) : (modWdg f s).spctl = s.spctl := rfl
@[simp] theorem modWdg_project (f : Watchdog → Watchdog) : (modWdg f s).project = s.project := rfl
@[simp] theorem modWdg_package (f : Watchdog → Watchdog) : (modWdg f s).package = s.package := rfl
@[simp] theorem modWdg_change (f : Watchdog → Watchdog) : (modWdg f s).change = s.change := rfl
@[simp] theorem modWdg_forces (f : Watchdog → Watchdog) : (modWdg f s).forces = s.forces := rfl
@[simp] theorem modWdg_routeJobs (f : Watchdog → Watchdog) : (modWdg f s).routeJobs = s.routeJobs := rfl
@[simp] theorem modWdg_trigs (f : Watchdog → Watchdog) : (modWdg f s).trigs = s.trigs := rfl
@[simp] theorem modWdg_directs (f : Watchdog → Watchdog) : (modWdg f s).directs = s.directs := rfl
@[simp] theorem modWdg_sysTurn (f : Watchdog → Watchdog) : (modWdg f s).sysTurn = s.sysTurn := rfl
@[simp] theorem modWdg_scrubPos (f : Watchdog → Watchdog) : (modWdg f s).scrubPos = s.scrubPos := rfl
@[simp] theorem modWdg_clock (f : Watchdog → Watchdog) : (modWdg f s).clock = s.clock := rfl
@[simp] theorem modWdg_tcmp (f : Watchdog → Watchdog) : (modWdg f s).tcmp = s.tcmp := rfl
@[simp] theorem modWdg_sync (f : Watchdog → Watchdog) : (modWdg f s).sync = s.sync := rfl
@[simp] theorem modWdg_host (f : Watchdog → Watchdog) : (modWdg f s).host = s.host := rfl
@[simp] theorem modWdg_dma (f : Watchdog → Watchdog) : (modWdg f s).dma = s.dma := rfl
@[simp] theorem modWdg_wdg (f : Watchdog → Watchdog) : (modWdg f s).wdg = f s.wdg := rfl
@[simp] theorem modWdg_purse (f : Watchdog → Watchdog) : (modWdg f s).purse = s.purse := rfl
@[simp] theorem modWdg_errs (f : Watchdog → Watchdog) : (modWdg f s).errs = s.errs := rfl
@[simp] theorem modWdg_rtc (f : Watchdog → Watchdog) : (modWdg f s).rtc = s.rtc := rfl
@[simp] theorem modWdg_recorder (f : Watchdog → Watchdog) : (modWdg f s).recorder = s.recorder := rfl
@[simp] theorem modWdg_trends (f : Watchdog → Watchdog) : (modWdg f s).trends = s.trends := rfl
@[simp] theorem modWdg_engines (f : Watchdog → Watchdog) : (modWdg f s).engines = s.engines := rfl
@[simp] theorem modWdg_net (f : Watchdog → Watchdog) : (modWdg f s).net = s.net := rfl
@[simp] theorem modWdg_field (f : Watchdog → Watchdog) : (modWdg f s).field = s.field := rfl
@[simp] theorem modWdg_red (f : Watchdog → Watchdog) : (modWdg f s).red = s.red := rfl
@[simp] theorem modWdg_nvs (f : Watchdog → Watchdog) : (modWdg f s).nvs = s.nvs := rfl
@[simp] theorem modWdg_power (f : Watchdog → Watchdog) : (modWdg f s).power = s.power := rfl

/-! ### modPurse -/

@[simp] theorem modPurse_pending (f : Purse → Purse) : (modPurse f s).pending = s.pending := rfl
@[simp] theorem modPurse_mono (f : Purse → Purse) : (modPurse f s).mono = s.mono := rfl
@[simp] theorem modPurse_fresh (f : Purse → Purse) : (modPurse f s).fresh = s.fresh := rfl
@[simp] theorem modPurse_mem (f : Purse → Purse) : (modPurse f s).mem = s.mem := rfl
@[simp] theorem modPurse_ue (f : Purse → Purse) : (modPurse f s).ue = s.ue := rfl
@[simp] theorem modPurse_ctl (f : Purse → Purse) : (modPurse f s).ctl = s.ctl := rfl
@[simp] theorem modPurse_stalls (f : Purse → Purse) : (modPurse f s).stalls = s.stalls := rfl
@[simp] theorem modPurse_markets (f : Purse → Purse) : (modPurse f s).markets = s.markets := rfl
@[simp] theorem modPurse_tasks (f : Purse → Purse) : (modPurse f s).tasks = s.tasks := rfl
@[simp] theorem modPurse_signals (f : Purse → Purse) : (modPurse f s).signals = s.signals := rfl
@[simp] theorem modPurse_spctl (f : Purse → Purse) : (modPurse f s).spctl = s.spctl := rfl
@[simp] theorem modPurse_project (f : Purse → Purse) : (modPurse f s).project = s.project := rfl
@[simp] theorem modPurse_package (f : Purse → Purse) : (modPurse f s).package = s.package := rfl
@[simp] theorem modPurse_change (f : Purse → Purse) : (modPurse f s).change = s.change := rfl
@[simp] theorem modPurse_forces (f : Purse → Purse) : (modPurse f s).forces = s.forces := rfl
@[simp] theorem modPurse_routeJobs (f : Purse → Purse) : (modPurse f s).routeJobs = s.routeJobs := rfl
@[simp] theorem modPurse_trigs (f : Purse → Purse) : (modPurse f s).trigs = s.trigs := rfl
@[simp] theorem modPurse_directs (f : Purse → Purse) : (modPurse f s).directs = s.directs := rfl
@[simp] theorem modPurse_sysTurn (f : Purse → Purse) : (modPurse f s).sysTurn = s.sysTurn := rfl
@[simp] theorem modPurse_scrubPos (f : Purse → Purse) : (modPurse f s).scrubPos = s.scrubPos := rfl
@[simp] theorem modPurse_clock (f : Purse → Purse) : (modPurse f s).clock = s.clock := rfl
@[simp] theorem modPurse_tcmp (f : Purse → Purse) : (modPurse f s).tcmp = s.tcmp := rfl
@[simp] theorem modPurse_sync (f : Purse → Purse) : (modPurse f s).sync = s.sync := rfl
@[simp] theorem modPurse_host (f : Purse → Purse) : (modPurse f s).host = s.host := rfl
@[simp] theorem modPurse_dma (f : Purse → Purse) : (modPurse f s).dma = s.dma := rfl
@[simp] theorem modPurse_wdg (f : Purse → Purse) : (modPurse f s).wdg = s.wdg := rfl
@[simp] theorem modPurse_purse (f : Purse → Purse) : (modPurse f s).purse = f s.purse := rfl
@[simp] theorem modPurse_errs (f : Purse → Purse) : (modPurse f s).errs = s.errs := rfl
@[simp] theorem modPurse_rtc (f : Purse → Purse) : (modPurse f s).rtc = s.rtc := rfl
@[simp] theorem modPurse_recorder (f : Purse → Purse) : (modPurse f s).recorder = s.recorder := rfl
@[simp] theorem modPurse_trends (f : Purse → Purse) : (modPurse f s).trends = s.trends := rfl
@[simp] theorem modPurse_engines (f : Purse → Purse) : (modPurse f s).engines = s.engines := rfl
@[simp] theorem modPurse_net (f : Purse → Purse) : (modPurse f s).net = s.net := rfl
@[simp] theorem modPurse_field (f : Purse → Purse) : (modPurse f s).field = s.field := rfl
@[simp] theorem modPurse_red (f : Purse → Purse) : (modPurse f s).red = s.red := rfl
@[simp] theorem modPurse_nvs (f : Purse → Purse) : (modPurse f s).nvs = s.nvs := rfl
@[simp] theorem modPurse_power (f : Purse → Purse) : (modPurse f s).power = s.power := rfl

/-! ### modTcmp -/

@[simp] theorem modTcmp_pending (n : Nat) (f : Comparator → Comparator) : (modTcmp n f s).pending = s.pending := rfl
@[simp] theorem modTcmp_mono (n : Nat) (f : Comparator → Comparator) : (modTcmp n f s).mono = s.mono := rfl
@[simp] theorem modTcmp_fresh (n : Nat) (f : Comparator → Comparator) : (modTcmp n f s).fresh = s.fresh := rfl
@[simp] theorem modTcmp_mem (n : Nat) (f : Comparator → Comparator) : (modTcmp n f s).mem = s.mem := rfl
@[simp] theorem modTcmp_ue (n : Nat) (f : Comparator → Comparator) : (modTcmp n f s).ue = s.ue := rfl
@[simp] theorem modTcmp_ctl (n : Nat) (f : Comparator → Comparator) : (modTcmp n f s).ctl = s.ctl := rfl
@[simp] theorem modTcmp_stalls (n : Nat) (f : Comparator → Comparator) : (modTcmp n f s).stalls = s.stalls := rfl
@[simp] theorem modTcmp_markets (n : Nat) (f : Comparator → Comparator) : (modTcmp n f s).markets = s.markets := rfl
@[simp] theorem modTcmp_tasks (n : Nat) (f : Comparator → Comparator) : (modTcmp n f s).tasks = s.tasks := rfl
@[simp] theorem modTcmp_signals (n : Nat) (f : Comparator → Comparator) : (modTcmp n f s).signals = s.signals := rfl
@[simp] theorem modTcmp_spctl (n : Nat) (f : Comparator → Comparator) : (modTcmp n f s).spctl = s.spctl := rfl
@[simp] theorem modTcmp_project (n : Nat) (f : Comparator → Comparator) : (modTcmp n f s).project = s.project := rfl
@[simp] theorem modTcmp_package (n : Nat) (f : Comparator → Comparator) : (modTcmp n f s).package = s.package := rfl
@[simp] theorem modTcmp_change (n : Nat) (f : Comparator → Comparator) : (modTcmp n f s).change = s.change := rfl
@[simp] theorem modTcmp_forces (n : Nat) (f : Comparator → Comparator) : (modTcmp n f s).forces = s.forces := rfl
@[simp] theorem modTcmp_routeJobs (n : Nat) (f : Comparator → Comparator) : (modTcmp n f s).routeJobs = s.routeJobs := rfl
@[simp] theorem modTcmp_trigs (n : Nat) (f : Comparator → Comparator) : (modTcmp n f s).trigs = s.trigs := rfl
@[simp] theorem modTcmp_directs (n : Nat) (f : Comparator → Comparator) : (modTcmp n f s).directs = s.directs := rfl
@[simp] theorem modTcmp_sysTurn (n : Nat) (f : Comparator → Comparator) : (modTcmp n f s).sysTurn = s.sysTurn := rfl
@[simp] theorem modTcmp_scrubPos (n : Nat) (f : Comparator → Comparator) : (modTcmp n f s).scrubPos = s.scrubPos := rfl
@[simp] theorem modTcmp_clock (n : Nat) (f : Comparator → Comparator) : (modTcmp n f s).clock = s.clock := rfl
@[simp] theorem modTcmp_tcmp (n : Nat) (f : Comparator → Comparator) : (modTcmp n f s).tcmp = vmod s.tcmp n f := rfl
@[simp] theorem modTcmp_sync (n : Nat) (f : Comparator → Comparator) : (modTcmp n f s).sync = s.sync := rfl
@[simp] theorem modTcmp_host (n : Nat) (f : Comparator → Comparator) : (modTcmp n f s).host = s.host := rfl
@[simp] theorem modTcmp_dma (n : Nat) (f : Comparator → Comparator) : (modTcmp n f s).dma = s.dma := rfl
@[simp] theorem modTcmp_wdg (n : Nat) (f : Comparator → Comparator) : (modTcmp n f s).wdg = s.wdg := rfl
@[simp] theorem modTcmp_purse (n : Nat) (f : Comparator → Comparator) : (modTcmp n f s).purse = s.purse := rfl
@[simp] theorem modTcmp_errs (n : Nat) (f : Comparator → Comparator) : (modTcmp n f s).errs = s.errs := rfl
@[simp] theorem modTcmp_rtc (n : Nat) (f : Comparator → Comparator) : (modTcmp n f s).rtc = s.rtc := rfl
@[simp] theorem modTcmp_recorder (n : Nat) (f : Comparator → Comparator) : (modTcmp n f s).recorder = s.recorder := rfl
@[simp] theorem modTcmp_trends (n : Nat) (f : Comparator → Comparator) : (modTcmp n f s).trends = s.trends := rfl
@[simp] theorem modTcmp_engines (n : Nat) (f : Comparator → Comparator) : (modTcmp n f s).engines = s.engines := rfl
@[simp] theorem modTcmp_net (n : Nat) (f : Comparator → Comparator) : (modTcmp n f s).net = s.net := rfl
@[simp] theorem modTcmp_field (n : Nat) (f : Comparator → Comparator) : (modTcmp n f s).field = s.field := rfl
@[simp] theorem modTcmp_red (n : Nat) (f : Comparator → Comparator) : (modTcmp n f s).red = s.red := rfl
@[simp] theorem modTcmp_nvs (n : Nat) (f : Comparator → Comparator) : (modTcmp n f s).nvs = s.nvs := rfl
@[simp] theorem modTcmp_power (n : Nat) (f : Comparator → Comparator) : (modTcmp n f s).power = s.power := rfl

/-! ### modTrend -/

@[simp] theorem modTrend_pending (n : Nat) (f : Trend → Trend) : (modTrend n f s).pending = s.pending := rfl
@[simp] theorem modTrend_mono (n : Nat) (f : Trend → Trend) : (modTrend n f s).mono = s.mono := rfl
@[simp] theorem modTrend_fresh (n : Nat) (f : Trend → Trend) : (modTrend n f s).fresh = s.fresh := rfl
@[simp] theorem modTrend_mem (n : Nat) (f : Trend → Trend) : (modTrend n f s).mem = s.mem := rfl
@[simp] theorem modTrend_ue (n : Nat) (f : Trend → Trend) : (modTrend n f s).ue = s.ue := rfl
@[simp] theorem modTrend_ctl (n : Nat) (f : Trend → Trend) : (modTrend n f s).ctl = s.ctl := rfl
@[simp] theorem modTrend_stalls (n : Nat) (f : Trend → Trend) : (modTrend n f s).stalls = s.stalls := rfl
@[simp] theorem modTrend_markets (n : Nat) (f : Trend → Trend) : (modTrend n f s).markets = s.markets := rfl
@[simp] theorem modTrend_tasks (n : Nat) (f : Trend → Trend) : (modTrend n f s).tasks = s.tasks := rfl
@[simp] theorem modTrend_signals (n : Nat) (f : Trend → Trend) : (modTrend n f s).signals = s.signals := rfl
@[simp] theorem modTrend_spctl (n : Nat) (f : Trend → Trend) : (modTrend n f s).spctl = s.spctl := rfl
@[simp] theorem modTrend_project (n : Nat) (f : Trend → Trend) : (modTrend n f s).project = s.project := rfl
@[simp] theorem modTrend_package (n : Nat) (f : Trend → Trend) : (modTrend n f s).package = s.package := rfl
@[simp] theorem modTrend_change (n : Nat) (f : Trend → Trend) : (modTrend n f s).change = s.change := rfl
@[simp] theorem modTrend_forces (n : Nat) (f : Trend → Trend) : (modTrend n f s).forces = s.forces := rfl
@[simp] theorem modTrend_routeJobs (n : Nat) (f : Trend → Trend) : (modTrend n f s).routeJobs = s.routeJobs := rfl
@[simp] theorem modTrend_trigs (n : Nat) (f : Trend → Trend) : (modTrend n f s).trigs = s.trigs := rfl
@[simp] theorem modTrend_directs (n : Nat) (f : Trend → Trend) : (modTrend n f s).directs = s.directs := rfl
@[simp] theorem modTrend_sysTurn (n : Nat) (f : Trend → Trend) : (modTrend n f s).sysTurn = s.sysTurn := rfl
@[simp] theorem modTrend_scrubPos (n : Nat) (f : Trend → Trend) : (modTrend n f s).scrubPos = s.scrubPos := rfl
@[simp] theorem modTrend_clock (n : Nat) (f : Trend → Trend) : (modTrend n f s).clock = s.clock := rfl
@[simp] theorem modTrend_tcmp (n : Nat) (f : Trend → Trend) : (modTrend n f s).tcmp = s.tcmp := rfl
@[simp] theorem modTrend_sync (n : Nat) (f : Trend → Trend) : (modTrend n f s).sync = s.sync := rfl
@[simp] theorem modTrend_host (n : Nat) (f : Trend → Trend) : (modTrend n f s).host = s.host := rfl
@[simp] theorem modTrend_dma (n : Nat) (f : Trend → Trend) : (modTrend n f s).dma = s.dma := rfl
@[simp] theorem modTrend_wdg (n : Nat) (f : Trend → Trend) : (modTrend n f s).wdg = s.wdg := rfl
@[simp] theorem modTrend_purse (n : Nat) (f : Trend → Trend) : (modTrend n f s).purse = s.purse := rfl
@[simp] theorem modTrend_errs (n : Nat) (f : Trend → Trend) : (modTrend n f s).errs = s.errs := rfl
@[simp] theorem modTrend_rtc (n : Nat) (f : Trend → Trend) : (modTrend n f s).rtc = s.rtc := rfl
@[simp] theorem modTrend_recorder (n : Nat) (f : Trend → Trend) : (modTrend n f s).recorder = s.recorder := rfl
@[simp] theorem modTrend_trends (n : Nat) (f : Trend → Trend) : (modTrend n f s).trends = vmod s.trends n f := rfl
@[simp] theorem modTrend_engines (n : Nat) (f : Trend → Trend) : (modTrend n f s).engines = s.engines := rfl
@[simp] theorem modTrend_net (n : Nat) (f : Trend → Trend) : (modTrend n f s).net = s.net := rfl
@[simp] theorem modTrend_field (n : Nat) (f : Trend → Trend) : (modTrend n f s).field = s.field := rfl
@[simp] theorem modTrend_red (n : Nat) (f : Trend → Trend) : (modTrend n f s).red = s.red := rfl
@[simp] theorem modTrend_nvs (n : Nat) (f : Trend → Trend) : (modTrend n f s).nvs = s.nvs := rfl
@[simp] theorem modTrend_power (n : Nat) (f : Trend → Trend) : (modTrend n f s).power = s.power := rfl

/-! ### One element read after an update -/

@[simp] theorem tillAt_modTill (t : TillId) (f : Till → Till) : tillAt (modTill t f s) t = f (tillAt s t) := by
  simp [tillAt, modTill, modStall]

theorem tillAt_modTill_other (t u : TillId) (f : Till → Till) (h : u ≠ t) : tillAt (modTill t f s) u = tillAt s u := by
  unfold tillAt modTill modStall
  by_cases e : u.stall = t.stall
  · have e2 : u.till ≠ t.till := fun x => h (by cases u; cases t; simp_all)
    have e3 : (t.till : Nat) ≠ u.till := fun x => e2 (Fin.ext x.symm)
    simp [e, e3]
  · have e2 : (t.stall : Nat) ≠ u.stall := fun x => e (Fin.ext x.symm)
    simp [e2]

/-- Two updates of one Till are one. -/
@[simp] theorem modTill_modTill (t : TillId) (f g : Till → Till) : modTill t g (modTill t f s) = modTill t (fun k => g (f k)) s := by
  simp [modTill, modStall]

theorem vget_vmod {α : Type} {n : Nat} (v : Vector α n) (i : Nat) (f : α → α) (d : α) (h : i < n) :
    vget (vmod v i f) i d = f (vget v i d) := by
  simp [vget, vmod, h]

theorem vget_vmod_other {α : Type} {n : Nat} (v : Vector α n) (i j : Nat) (f : α → α) (d : α) (h : j ≠ i) :
    vget (vmod v i f) j d = vget v j d := by
  unfold vget vmod
  split
  · by_cases hj : j < n
    · simp [hj, Ne.symm h]
    · simp [hj]
  · rfl

@[simp] theorem cmdRing_modRing (n : Fin 16) (f : CmdRing → CmdRing) : cmdRing (modRing n.val f s) n.val = f (cmdRing s n.val) :=
  vget_vmod _ _ _ _ n.isLt

theorem cmdRing_modRing_other (n m : Nat) (f : CmdRing → CmdRing) (h : m ≠ n) : cmdRing (modRing n f s) m = cmdRing s m :=
  vget_vmod_other _ _ _ _ _ h

@[simp] theorem channelAt_modChannel (n : Fin 32) (f : Channel → Channel) :
    channelAt (modChannel n.val f s) n.val = f (channelAt s n.val) := vget_vmod _ _ _ _ n.isLt

theorem channelAt_modChannel_other (n m : Nat) (f : Channel → Channel) (h : m ≠ n) :
    channelAt (modChannel n f s) m = channelAt s m := vget_vmod_other _ _ _ _ _ h

/-! ### Folds -/

/-- What one change keeps, a fold of it keeps. -/
theorem forEach_keeps {α : Type} (P : State → Prop) {f : α → State → State} (h : ∀ a q, P q → P (f a q)) (l : List α) {q : State}
    (hq : P q) : P (forEach l f q) := by
  unfold forEach
  induction l generalizing q with
  | nil => exact hq
  | cons a r ih => exact ih (h a q hq)

@[simp] theorem forEach_nil {α : Type} (f : α → State → State) : forEach [] f s = s := rfl

@[simp] theorem forEach_cons {α : Type} (a : α) (r : List α) (f : α → State → State) :
    forEach (a :: r) f s = forEach r f (f a s) := rfl

@[simp] theorem withNat_eq {α : Type} (v : Nat) (f : Nat → α) : withNat v f = f v := by cases v <;> rfl

end Sys2Proof.Machine
end

