-- ==== Sys2Proof/Laws/Ops.lean ====
section
/-!
SUPPORT. What each shared operation can do, said once: time, host output, events, errors, the Purse, ring commands, and link messages.
-/
namespace Sys2Proof.Machine

/-! ### Time -/

/-- Only the time base and F move while time passes. -/
theorem passTime_frame (d : Nat) (s : State) :
    ∃ f, passTime d s = { s with mono := s.mono + d, clock := { s.clock with f := f } } := by
  unfold passTime
  split
  · exact ⟨s.clock.f, rfl⟩
  · exact ⟨_, rfl⟩

theorem passTime_zero (s : State) : passTime 0 s = s := by
  simp [passTime]

/-- The block idles until an instant: the time base is there, or stays where it was past it. -/
theorem untilMono_frame (t : Nat) (s : State) :
    ∃ f, untilMono t s = { s with mono := max s.mono t, clock := { s.clock with f := f } } := by
  obtain ⟨f, h⟩ := passTime_frame (t - s.mono) s
  exact ⟨f, by rw [untilMono, h, show s.mono + (t - s.mono) = max s.mono t by omega]⟩

theorem waitForT_frame (fuel t : Nat) (s : State) :
    ∃ m f, s.mono ≤ m ∧ waitForT fuel t s = { s with mono := m, clock := { s.clock with f := f } } := by
  induction fuel generalizing s with
  | zero => exact ⟨s.mono, s.clock.f, Nat.le_refl _, rfl⟩
  | succ n ih =>
    unfold waitForT
    split
    · exact ⟨s.mono, s.clock.f, Nat.le_refl _, rfl⟩
    · obtain ⟨f, h⟩ := passTime_frame (max 1 ((t - nowT s) * 997 / 1003)) s
      obtain ⟨m, g, hm, hq⟩ := ih (passTime (max 1 ((t - nowT s) * 997 / 1003)) s)
      rw [hq, h] at *
      exact ⟨m, g, by simp at hm; omega, rfl⟩

/-- Waiting for a T moves the time base forward, and F with it; nothing else. -/
theorem untilT_frame (t : Nat) (s : State) :
    ∃ m f, s.mono ≤ m ∧ untilT t s = { s with mono := m, clock := { s.clock with f := f } } := waitForT_frame 4096 t s

/-! ### Host output and events -/

theorem when_frame {P : State → State → Prop} (c : Bool) (f : State → State) (s : State) (hid : P s s) (hf : P s (f s)) :
    P s (when_ c f s) := by
  unfold when_; split
  · exact hf
  · exact hid

/-- Bytes toward the host leave everything but the host interface alone. -/
theorem hostWrite_frame (a : Nat) (bs : List Byte) (s : State) : ∃ h, hostWrite a bs s = { s with host := h } := by
  unfold hostWrite when_; split
  · exact ⟨_, rfl⟩
  · exact ⟨s.host, rfl⟩

theorem sendMsix_frame (v : Nat) (s : State) : ∃ h, sendMsix v s = { s with host := h } := by
  unfold sendMsix
  dsimp only
  split
  · exact ⟨s.host, rfl⟩
  · split
    · exact ⟨_, rfl⟩
    · exact ⟨_, rfl⟩

theorem modOut_frame (n : Nat) (f : OutRing → OutRing) (s : State) : ∃ h, modOut n f s = { s with host := h } := by
  unfold modOut; split
  · exact ⟨_, rfl⟩
  · exact ⟨_, rfl⟩

theorem modOut_evSeq (n : Nat) (f : OutRing → OutRing) (s : State) : (modOut n f s).host.evSeq = s.host.evSeq := by
  unfold modOut; split <;> rfl

theorem sendMsix_evSeq (v : Nat) (s : State) : (sendMsix v s).host.evSeq = s.host.evSeq := by
  unfold sendMsix
  dsimp only
  split
  · rfl
  · split <;> rfl

theorem announce_frame (n : Nat) (s : State) :
    ∃ h, announce n s = { s with host := h } ∧ h.evSeq = s.host.evSeq := by
  unfold announce
  dsimp only
  split <;> split
  all_goals first
    | (obtain ⟨a, ha⟩ := modOut_frame n (fun r => { r with lastMsg := some s.mono, announce := false }) s
       obtain ⟨b, hb⟩ := sendMsix_frame (bits (outRing s n).cfg 10 5)
         (modOut n (fun r => { r with lastMsg := some s.mono, announce := false }) s)
       have e := sendMsix_evSeq (bits (outRing s n).cfg 10 5)
         (modOut n (fun r => { r with lastMsg := some s.mono, announce := false }) s)
       rw [modOut_evSeq, hb] at e
       exact ⟨b, by rw [hb, ha], e⟩)
    | (obtain ⟨a, ha⟩ := modOut_frame n (fun r => { r with announce := true }) s
       have e := modOut_evSeq n (fun r => { r with announce := true }) s
       rw [ha] at e
       exact ⟨a, ha, e⟩)

/-- An entry handed over changes the host interface alone. -/
theorem writeEntry_frame (n : Nat) (ws : List Word) (s : State) :
    ∃ h, writeEntry n ws s = { s with host := h } ∧ h.evSeq = s.host.evSeq := by
  unfold writeEntry
  dsimp only
  generalize hp : post _ (ringMoved 64 s) = p
  have hq : ∃ g, p = { s with host := g } ∧ g.evSeq = s.host.evSeq := ⟨_, hp.symm, rfl⟩
  clear hp
  obtain ⟨g, rfl, hg⟩ := hq
  obtain ⟨a, ha⟩ := modOut_frame n (fun r => { r with prod := (r.prod + 1) % 65536 }) { s with host := g }
  have e := modOut_evSeq n (fun r => { r with prod := (r.prod + 1) % 65536 }) { s with host := g }
  obtain ⟨b, hb, hs⟩ := announce_frame n (modOut n (fun r => { r with prod := (r.prod + 1) % 65536 }) { s with host := g })
  rw [ha] at hb hs e
  exact ⟨b, by rw [ha, hb], by rw [hs, e, hg]⟩

theorem deliverEvent_frame (e : Event) (s : State) :
    ∃ h, deliverEvent e s = { s with host := h } ∧ h.evSeq = s.host.evSeq := by
  unfold deliverEvent
  split
  · exact writeEntry_frame _ _ _
  · split
    · exact ⟨_, rfl, rfl⟩
    · exact ⟨_, rfl, rfl⟩

theorem capture_frame (e : Event) (s : State) : ∃ r, (capture e s).1 = { s with recorder := r } := by
  unfold capture
  dsimp only
  split
  · exact ⟨_, rfl⟩
  · exact ⟨_, rfl⟩

theorem raiseOne_frame (code sev : Nat) (p0 p1 p2 p3 : Word) (s : State) :
    ∃ h r, (raiseOne code sev p0 p1 p2 p3 s).1 = { s with host := h, recorder := r } ∧ h.evSeq = s.host.evSeq + 1 := by
  unfold raiseOne
  dsimp only
  generalize ({ code := code, sev := sev, seq := s.host.evSeq, t := localT s, p0 := p0, p1 := p1, p2 := p2, p3 := p3 } : Event) = e
  obtain ⟨r, hr⟩ := capture_frame e { s with host := { s.host with evSeq := s.host.evSeq + 1 } }
  obtain ⟨h, hh, hs⟩ := deliverEvent_frame e (capture e { s with host := { s.host with evSeq := s.host.evSeq + 1 } }).1
  rw [hr] at hh hs
  refine ⟨h, r, ?_, hs⟩
  rw [hr, hh]

/-- An event raised changes the host interface and the recorder alone, and the event number moves on. -/
theorem raise_frame (s : State) (code sev : Nat) (p0 p1 p2 p3 : Word) :
    ∃ h r, raise s code sev p0 p1 p2 p3 = { s with host := h, recorder := r } ∧ s.host.evSeq < h.evSeq := by
  unfold raise
  dsimp only
  generalize hx : raiseOne code sev p0 p1 p2 p3 s = a
  obtain ⟨h, r, ha, hs⟩ := raiseOne_frame code sev p0 p1 p2 p3 s
  rw [hx] at ha
  have second : ∃ h' r', (if 0 < a.2.1 then (raiseOne 0x0900 1 (field 0 a.2.1) 0 0 0 a.1).1 else a.1) =
      { s with host := h', recorder := r' } ∧ s.host.evSeq < h'.evSeq := by
    split
    · obtain ⟨h', r', hb, hs'⟩ := raiseOne_frame 0x0900 1 (field 0 a.2.1) 0 0 0 a.1
      refine ⟨h', r', by rw [hb, ha], ?_⟩
      rw [ha] at hs'; simp at hs'; omega
    · exact ⟨h, r, ha, by omega⟩
  generalize hy : (if 0 < a.2.1 then (raiseOne 0x0900 1 (field 0 a.2.1) 0 0 0 a.1).1 else a.1) = b at *
  obtain ⟨h', r', hb, hs'⟩ := second
  split
  · obtain ⟨h'', r'', hc, hs''⟩ := raiseOne_frame 0x0003 1 0 (field 0 0x3028) 0 0 b
    refine ⟨h'', r'', by rw [hc, hb], ?_⟩
    rw [hb] at hs''; simp at hs''; omega
  · exact ⟨h', r', hb, hs'⟩

theorem counterFull_frame (off : Nat) (reached : Bool) (s : State) :
    ∃ h r, counterFull off reached s = { s with host := h, recorder := r } := by
  unfold counterFull; split
  · obtain ⟨h, r, e, _⟩ := raise_frame s 0x0003 1 0 (field 0 off) 0 0
    exact ⟨h, r, e⟩
  · exact ⟨s.host, s.recorder, rfl⟩

/-! ### Errors -/

theorem accessError_frame (bar : Bool) (agent : Nat) (write : Bool) (addr : Nat) (s : State) :
    ∃ e, accessError bar agent write addr s = { s with errs := e } := ⟨_, rfl⟩

theorem countCe_frame (a : Nat) (s : State) : ∃ e h r, countCe a s = { s with errs := e, host := h, recorder := r } := by
  unfold countCe
  dsimp only
  generalize hq : ({ s with errs := _ } : State) = q
  obtain ⟨h, r, e⟩ := counterFull_frame (0x400 + 8 * ownerOf a) (satStep 32 (vget s.errs.ces (ownerOf a) 0)).2 q
  exact ⟨q.errs, h, r, by rw [e, ← hq]⟩

theorem countUe_frame (a : Nat) (s : State) : ∃ e h r, countUe a s = { s with errs := e, host := h, recorder := r } := by
  unfold countUe
  dsimp only
  generalize hq : ({ s with errs := _ } : State) = q
  obtain ⟨h, r, e⟩ := counterFull_frame (0x800 + 8 * ownerOf a) (satStep 32 (vget s.errs.ues (ownerOf a) 0)).2 q
  exact ⟨q.errs, h, r, by rw [e, ← hq]⟩

/-- A reported flash group changes the host interface, the recorder and the count of such groups alone. -/
theorem flashUe_frame (a : Nat) (s : State) : ∃ h r n, flashUe a s = { s with host := h, recorder := r, nvs := n } := by
  unfold flashUe
  dsimp only
  generalize hq : ({ s with nvs := _ } : State) = q
  obtain ⟨h, r, hc⟩ := counterFull_frame 0x5028 (satStep 32 s.nvs.flashue).2 q
  obtain ⟨h', r', hr, _⟩ := raise_frame (counterFull 0x5028 (satStep 32 s.nvs.flashue).2 q) 0x0A02 2
    (field 0 (8 * ((a - flashBase) / 8))) 0 0 0
  exact ⟨h', r', q.nvs, by rw [hr, hc, ← hq]⟩

/-- A reported uncorrectable error changes the error registers, the host interface, the recorder and the counters of the store alone. -/
theorem memUe_frame (a : Nat) (s : State) : ∃ e h r n, memUe a s = { s with errs := e, host := h, recorder := r, nvs := n } := by
  unfold memUe
  split
  · obtain ⟨h, r, n, hf⟩ := flashUe_frame a s
    exact ⟨s.errs, h, r, n, by rw [hf]⟩
  · obtain ⟨e, h, r, hc⟩ := countUe_frame a s
    obtain ⟨h', r', hr, _⟩ := raise_frame (countUe a s) 0x0107 2 (field 0 (ownerOf a)) (field 0 (8 * (a / 8)))
      (field 0 (camidAt s (8 * (a / 8)))) 0
    exact ⟨e, h', r', s.nvs, by rw [hr, hc]⟩

theorem writePiece_frame (s : State) (a : Nat) (bs : List Byte) : ∃ m u, (writePiece s a bs).1 = { s with mem := m, ue := u } := by
  unfold writePiece
  dsimp only
  split
  · exact ⟨_, _, rfl⟩
  · split
    · exact ⟨s.mem, s.ue, rfl⟩
    · exact ⟨_, s.ue, rfl⟩

theorem writeMem_frame (s : State) (a : Nat) (bs : List Byte) : ∃ m u, (writeMem s a bs).1 = { s with mem := m, ue := u } := by
  unfold writeMem
  generalize bs.length + 1 = fuel
  induction fuel generalizing s a bs with
  | zero => exact ⟨s.mem, s.ue, rfl⟩
  | succ n ih =>
    simp only [writeMemAux]
    split
    · exact ⟨s.mem, s.ue, rfl⟩
    · obtain ⟨m, u, h⟩ := writePiece_frame s a (bs.take (8 - a % 8))
      obtain ⟨m', u', h'⟩ := ih (writePiece s a (bs.take (8 - a % 8))).1 (a + (8 - a % 8)) (bs.drop (8 - a % 8))
      exact ⟨m', u', by rw [h', h]⟩

/-- A write of an agent changes memory, its error marks, and what reports damaged words. -/
theorem storeMem_frame (a : Nat) (bs : List Byte) (s : State) :
    ∃ m u e h r n, storeMem a bs s = { s with mem := m, ue := u, errs := e, host := h, recorder := r, nvs := n } := by
  unfold storeMem
  obtain ⟨m, u, hw⟩ := writeMem_frame s a bs
  refine forEach_keeps (fun q => ∃ m u e h r n, q = { s with mem := m, ue := u, errs := e, host := h, recorder := r, nvs := n }) ?_ _ ?_
  · rintro x q ⟨m, u, e, h, r, n, rfl⟩
    obtain ⟨e', h', r', n', hm⟩ := memUe_frame x { s with mem := m, ue := u, errs := e, host := h, recorder := r, nvs := n }
    exact ⟨m, u, e', h', r', n', hm⟩
  · exact ⟨m, u, s.errs, s.host, s.recorder, s.nvs, hw⟩

/-- A write of an agent keeps the canonical form of memory. -/
theorem storeMem_wf (a : Nat) (bs : List Byte) {s : State} (w : Memory.wf s.mem = true) : Memory.wf (storeMem a bs s).mem = true := by
  unfold storeMem
  refine forEach_keeps (fun q => Memory.wf q.mem = true) ?_ _ (writeMem_wf a bs w)
  intro x q hq
  obtain ⟨e, h, r, n, hm⟩ := memUe_frame x q
  rw [hm]; exact hq

/-! ### Ring commands -/

theorem begun_iff (s : State) (ring opcode : Nat) (c : Cmd) :
    begun s ring opcode = some c ↔ (cmdRing s ring).cur = some c ∧ c.opcode = opcode := by
  unfold begun
  cases hd : (cmdRing s ring).cur with
  | none => simp
  | some d =>
    dsimp only
    by_cases ho : d.opcode = opcode
    · rw [if_pos ho, Option.some.injEq]
      exact ⟨fun e => ⟨e, e ▸ ho⟩, fun e => e.1⟩
    · rw [if_neg ho, Option.some.injEq]
      exact ⟨fun e => (by cases e), fun e => absurd (e.1 ▸ e.2) ho⟩

theorem onRing_of_begun {s : State} {ring opcode : Nat} {c : Cmd} (h : begun s ring opcode = some c) (f : Cmd → State → State) :
    onRing ring opcode s f = ok (f c s) := by
  unfold onRing; rw [h]

theorem onRing_of_none {s : State} {ring opcode : Nat} (h : begun s ring opcode = none) (f : Cmd → State → State) :
    onRing ring opcode s f = ok s := by
  unfold onRing; rw [h]

/-- Everything that the end of a command can do: nothing when the ring no longer knows it, else one completion more and its place freed. -/
theorem finish_cases (c : Cmd) (status : Nat) (r0 r1 : Word) (s : State) :
    (knowsCmd s c = false ∧ finish c status r0 r1 s = s) ∨
    (knowsCmd s c = true ∧ ∃ h, finish c status r0 r1 s = { s with host := h } ∧
      h.finished = s.host.finished ++ [{ cmd := c, status := status, result0 := r0, result1 := r1 }]) := by
  unfold finish
  cases hk : knowsCmd s c with
  | false => exact .inl ⟨rfl, by simp⟩
  | true => exact .inr ⟨rfl, _, by simp [modRing]; rfl, rfl⟩

theorem knowsCmd_of_begun {s : State} {ring opcode : Nat} {c : Cmd} (h : begun s ring opcode = some c) (hr : c.ring = ring) :
    knowsCmd s c = true := by
  have e := ((begun_iff s ring opcode c).mp h).1
  simp [knowsCmd, hr, e]

/-- Taking a command on changes the host interface alone. -/
theorem accept_frame (c : Cmd) (s : State) : ∃ h, accept c s = { s with host := h } := ⟨_, rfl⟩

theorem handOff_frame (c : Cmd) (s : State) : ∃ h, handOff c s = { s with host := h } := ⟨_, rfl⟩

/-! ### The Purse -/

theorem purseAsk_frame (src tokens who : Nat) (s : State) : ∃ p, purseAsk src tokens who s = { s with purse := p } := ⟨_, rfl⟩

theorem purseReturn_frame (src n : Nat) (s : State) : ∃ p, purseReturn src n s = { s with purse := p } := ⟨_, rfl⟩

theorem purseDrop_frame (src who : Nat) (s : State) : ∃ p, purseDrop src who s = { s with purse := p } := ⟨_, rfl⟩

/-! ### The Bolist link -/

/-- What the reception of a message can do: nothing on an unpowered lane, the lane's state alone for a number that was seen, else the message's effect. -/
theorem receive_cases (lane : Fin 2) (mseq : BitVec 32) (f : State → State) (s : State) :
    ((laneAt s lane.val).granted = false ∧ receive lane mseq f s = ok s) ∨
    ((laneAt s lane.val).granted = true ∧ (laneValid lane.val s).red.seenSeq.contains mseq = true ∧
      receive lane mseq f s = ok (laneValid lane.val s)) ∨
    ((laneAt s lane.val).granted = true ∧ (laneValid lane.val s).red.seenSeq.contains mseq = false ∧
      receive lane mseq f s = ok (f (modRed (fun r => { r with seenSeq := (mseq :: r.seenSeq).take 4096 }) (laneValid lane.val s)))) := by
  unfold receive
  cases hg : (laneAt s lane.val).granted with
  | false => exact .inl ⟨rfl, by simp⟩
  | true =>
    cases hc : (laneValid lane.val s).red.seenSeq.contains mseq with
    | true => exact .inr (.inl ⟨rfl, rfl, by rw [if_neg (by simp)]; dsimp only; rw [if_pos hc]⟩)
    | false => exact .inr (.inr ⟨rfl, rfl, by
      rw [if_neg (by simp)]; dsimp only; rw [if_neg (by rw [hc]; simp)]⟩)

/-- A message sent changes the redundancy unit alone. -/
theorem linkSend_frame (mtype : Nat) (ref : Word) (payload : List Byte) (s : State) :
    ∃ r, linkSend mtype ref payload s = { s with red := r } := by
  unfold linkSend; split
  · exact ⟨_, rfl⟩
  · exact ⟨s.red, rfl⟩

end Sys2Proof.Machine
end

