-- ==== Sys2Proof/Laws/Commands.lean ====
section
/-!
SUPPORT. What the shared parts of ring commands, services and bank requests can do.
-/
namespace Sys2Proof.Machine

/-- What a command that moves host data does before its own work: BAD_DESC, ABORTED, or a wait for its channel. -/
theorem dataOn_cases (ch : Nat) (c : Cmd) (clean : Bool) (f : State → State) (s : State) :
    (clean = false ∧ dataOn ch c clean f s = finish c 2 0 0 s) ∨
    (clean = true ∧ dmaOff s = true ∧ dataOn ch c clean f s = finish c 5 0 0 s) ∨
    (clean = true ∧ dmaOff s = false ∧ chanTaken s ch = true ∧ dataOn ch c clean f s = s) ∨
    (clean = true ∧ dmaOff s = false ∧ chanTaken s ch = false ∧ dataOn ch c clean f s = f s) := by
  unfold dataOn
  cases clean <;> cases dmaOff s <;> cases chanTaken s ch <;> simp

/-- A record given to the host: BAD_ADDRESS, a halted channel, or the bytes and the completion. -/
theorem giveOn_cases (ch : Nat) (c : Cmd) (a : Word) (bs : List Byte) (r0 r1 : Word) (s : State) :
    (hostRangeOk a bs.length = false ∧ giveOn ch c a bs r0 r1 s = finish c 3 0 0 s) ∨
    (hostRangeOk a bs.length = true ∧ canReq s = false ∧
      giveOn ch c a bs r0 r1 s = finish c 4 0 0 (chanHalt ch 7 true false a.toNat s)) ∨
    (hostRangeOk a bs.length = true ∧ canReq s = true ∧
      giveOn ch c a bs r0 r1 s = finish c 0 r0 r1 (chanBytes ch bs.length (post [.write a.toNat bs] s))) := by
  unfold giveOn hostWrite when_
  cases hostRangeOk a bs.length <;> cases canReq s <;> simp

/-- Host bytes taken: BAD_ADDRESS, a halted channel, or the work on the bytes. -/
theorem takeOn_cases (ch : Nat) (c : Cmd) (a : Word) (n : Nat) (data : List Byte) (f : List Byte → State → State) (s : State) :
    (hostRangeOk a n = false ∧ takeOn ch c a n data f s = finish c 3 0 0 s) ∨
    (hostRangeOk a n = true ∧ canReq s = false ∧
      takeOn ch c a n data f s = finish c 4 0 0 (chanHalt ch 7 false false a.toNat s)) ∨
    (hostRangeOk a n = true ∧ canReq s = true ∧ takeOn ch c a n data f s = f (fitBytes n data) (chanBytes ch n s)) := by
  unfold takeOn
  cases hostRangeOk a n <;> cases canReq s <;> simp

/-- A command that the standby refuses. -/
theorem notOnStandby_cases (c : Cmd) (f : State → State) (s : State) :
    (s.red.role = .standby ∧ notOnStandby c f s = finish c 6 16 0 s) ∨ (s.red.role ≠ .standby ∧ notOnStandby c f s = f s) := by
  unfold notOnStandby isStandby
  by_cases h : s.red.role = .standby
  · exact .inl ⟨h, by simp [h]⟩
  · exact .inr ⟨h, by simp [h]⟩

theorem onService_of_request {s : State} {m : MarketId} {service : Nat} {r : SysReq} (h : reqFor s m service = some r)
    (f : SysReq → State → State) : onService m service s f = ok (f r { s with sysTurn := (m.val + 1) % 4 }) := by
  unfold onService; rw [h]

theorem onService_of_none {s : State} {m : MarketId} {service : Nat} (h : reqFor s m service = none) (f : SysReq → State → State) :
    onService m service s f = ok s := by
  unfold onService; rw [h]

/-- A request served leaves its Market's queue; only that Market changes. -/
theorem served_frame (r : SysReq) (s : State) : ∃ m, served r s = { s with markets := m } := ⟨_, rfl⟩

/-- A transaction asked of a bank joins its queue; only the bank's Market changes. -/
theorem bankAsk_frame (m : MarketId) (kind : BankKind) (len : Nat) (s : State) : ∃ v, bankAsk m kind len s = { s with markets := v } :=
  ⟨_, rfl⟩

end Sys2Proof.Machine
end

