-- ==== Sys2Proof/Laws/Keep.lean ====
section
/-!
SUPPORT. The operations that clear, program or move whole ranges keep the canonical form of memory.
-/
namespace Sys2Proof.Machine

theorem zeroMarket_wf (keep : Bool) (m : Nat) {s : State} (w : Memory.wf s.mem = true) : Memory.wf (zeroMarket keep m s).mem = true :=
  filter_wf _ w

theorem raise_wf (s : State) (code sev : Nat) (p0 p1 p2 p3 : Word) (w : Memory.wf s.mem = true) :
    Memory.wf (raise s code sev p0 p1 p2 p3).mem = true := by
  obtain ⟨h, r, e, _⟩ := raise_frame s code sev p0 p1 p2 p3
  rw [e]; exact w

theorem openGroup_wf (off : Nat) {s : State} (w : Memory.wf s.mem = true) : Memory.wf (openGroup off s).mem = true := by
  unfold openGroup
  dsimp only
  split <;> exact memSplice_wf _ _ w

theorem programBytes_wf (good : Bool) (off : Nat) (bs : List Byte) {s : State} (w : Memory.wf s.mem = true) :
    Memory.wf (programBytes good off bs s).mem = true := by
  unfold programBytes noteProgram
  cases good
  · exact forEach_keeps (fun q => Memory.wf q.mem = true) (fun i q h => openGroup_wf _ h) _ w
  · exact memSplice_wf _ _ w

theorem eraseSector_wf (n : Nat) {s : State} (w : Memory.wf s.mem = true) : Memory.wf (eraseSector n s).mem = true := by
  unfold eraseSector
  dsimp only
  generalize (_ + 1 : Nat) = c
  split
  · refine raise_wf _ _ _ _ _ _ _ ?_
    exact filter_wf _ w
  · exact filter_wf _ w

theorem eraseArea_wf (base sectors : Nat) {s : State} (w : Memory.wf s.mem = true) : Memory.wf (eraseArea base sectors s).mem = true := by
  refine forEach_keeps (fun q => Memory.wf q.mem = true) (fun i q h => ?_) _ w
  split
  · exact eraseSector_wf _ h
  · exact h

theorem putImageBits_wf (m off n v : Nat) {s : State} (w : Memory.wf s.mem = true) : Memory.wf (putImageBits m off n v s).mem = true :=
  memSplice_wf _ _ w

theorem moveSymbols_wf (p : Package) (m : MarketId) {s : State} (w : Memory.wf s.mem = true) :
    Memory.wf (moveSymbols p m s).mem = true := by
  unfold moveSymbols
  dsimp only
  exact filter_wf _ (forEach_keeps (fun q => Memory.wf q.mem = true) (fun x q h => putImageBits_wf _ _ _ _ h) _ w)

end Sys2Proof.Machine
end

