-- ==== Sys2Proof/Laws/Tally.lean ====
section
/-!
SUPPORT. What the issue of one Tally instruction can do, case by case, and the registers of a Till.
-/
namespace Sys2Proof.Machine

open Sys2Proof.Safety

/-! ### Registers (R119) -/

@[simp] theorem getReg_zero (k : Till) : getReg k 0 = 0 := by simp [getReg]

@[simp] theorem putReg_zero (r : Vector Word 32) (v : Word) : putReg r 0 v = r := by simp [putReg]

theorem setReg_frame (t : TillId) (r : RegNo) (v : Word) (s : State) :
    ∃ k, setReg t r v s = { s with stalls := k } := ⟨_, rfl⟩

/-! ### Issue (R163 to R167) -/

section
variable {t : TillId} {word : BitVec 32} {legal falls mayEnd : Bool} {own : State → Option (Nat × Word)}
  {body : State → Acc} {s : State}

/-- A Till that may not run, or stands at a breakpoint, issues nothing. -/
theorem runInstr_idle (h : runnable s t = false ∨ (breakHere s t).isSome = true) :
    runInstr t word legal own falls mayEnd body s = s := by
  unfold runInstr
  rw [if_pos]
  rcases h with h | h <;> simp [h]

/-- A reserved field or function code raises ILLEGAL before anything else. -/
theorem runInstr_illegal (h : issues s t) (hl : legal = false) :
    runInstr t word legal own falls mayEnd body s = takeTrap t 1 0 word s s := by
  obtain ⟨h1, h2, h3⟩ := h
  simp [runInstr, h1, h2, h3, hl]

/-- The trap of an instruction's own address comes before its effect. -/
theorem runInstr_own {x : Nat × Word} (h : issues s t) (hl : legal = true) (ho : own s = some x) :
    runInstr t word legal own falls mayEnd body s = takeTrap t x.1 x.2 word s s := by
  obtain ⟨h1, h2, h3⟩ := h
  simp [runInstr, h1, h2, h3, hl, ho]

/-- An instruction with a next PC inside the program store retires with its effect. -/
theorem runInstr_retires {next : Word} {q : State} (h : issues s t) (hl : legal = true) (ho : own s = none)
    (hf : falls = true → (tillAt s t).pc ≠ 0xFFFFC) (hb : body s = .done next q) (hn : targetOk next) :
    runInstr t word legal own falls mayEnd body s = retire t next q := by
  obtain ⟨h1, h2, h3⟩ := h
  obtain ⟨n1, n2⟩ := hn
  have hlast : (falls && (tillAt s t).pc == 0xFFFFC) = false := by
    cases falls with
    | false => rfl
    | true => simpa using hf rfl
  have hend : (mayEnd && next == field 0 endAddress) = false := by
    cases mayEnd with
    | false => rfl
    | true =>
      have : next ≠ field 0 endAddress := by
        intro e
        rw [e] at n2
        exact absurd n2 (by decide)
      simpa using this
  simp only [runInstr, h1, h2, h3, hl, ho, hb, hlast, hend]
  simp [n1, Nat.not_le.mpr n2]

/-- An instruction at the last word that would fall off the program store raises ACCESS without its effect. -/
theorem runInstr_last {next : Word} {q : State} (h : issues s t) (hl : legal = true) (ho : own s = none)
    (hf : falls = true) (hp : (tillAt s t).pc = 0xFFFFC) (hb : body s = .done next q) :
    runInstr t word legal own falls mayEnd body s = takeTrap t 2 (field 0 endAddress) word s s := by
  obtain ⟨h1, h2, h3⟩ := h
  simp [runInstr, h1, h2, h3, hl, ho, hb, hf, hp]

/-- An instruction that speculation may not execute stops the release with its cause. -/
theorem runInstr_stops {c : Nat} (h : issues s t) (hl : legal = true) (ho : own s = none)
    (hf : falls = true → (tillAt s t).pc ≠ 0xFFFFC) (hb : body s = .stop c) :
    runInstr t word legal own falls mayEnd body s = stalled t c s := by
  obtain ⟨h1, h2, h3⟩ := h
  have hlast : (falls && (tillAt s t).pc == 0xFFFFC) = false := by
    cases falls with
    | false => rfl
    | true => simpa using hf rfl
  simp only [runInstr, h1, h2, h3, hl, ho, hb, hlast]
  rfl

/-- A speculative release defers a trap. -/
theorem takeTrap_speculative (c : Nat) (addr : Word) (q : State) (h : isSpec s t = true) :
    takeTrap t c addr word s q = deferred t c word addr s := by
  have e : (tillAt s t).area = .speculative := by simpa [isSpec] using h
  unfold takeTrap
  rw [e]
  rfl

end

/-! ### The next PC (R120) -/

/-- PC + 4 is an instruction address unless PC is the last one. -/
theorem pcNext_targetOk {s : State} {t : TillId} (h : fallsOk s t) : targetOk (pcNext s t) := by
  obtain ⟨p1, p2⟩ := h
  have lt := (tillAt s t).pc.isLt
  have ne : (tillAt s t).pc.toNat ≠ 0xFFFFC := fun e => p2 (BitVec.eq_of_toNat_eq (by simpa using e))
  have e : (pcNext s t).toNat = (tillAt s t).pc.toNat + 4 := by
    simp only [pcNext, pcWord, BitVec.toNat_add, BitVec.toNat_setWidth]
    simp; omega
  constructor
  · rw [e]; omega
  · rw [e]; simp only [endAddress]; omega

end Sys2Proof.Machine
end

