-- ==== Sys2Proof/Tests/Slice0.lean ====
section
/-!
SUPPORT. Tests: ill-formed commands refused by WellFormed, words read as the encoding tables lay them out, small steps with results taken from the manual, and for every statement with hypotheses a state and operands that meet them.
-/
namespace Sys2Proof.Tests

set_option Elab.async false

open Sys2Proof.Machine Sys2Proof.Safety

/-! ### Small states -/

/-- The state after a command. -/
def after (o : Out) : State :=
  match o with
  | .next q => q
  | _ => State.reset

/-- The Till of the tests. -/
def till0 : TillId := ⟨0, 0⟩

/-- A task of Stall 0: 16 input bytes at 0, 16 output bytes at 16#100, 64 instance bytes at 16#1000, period 4, entry 16#100. -/
def entry1 : TaskEntry :=
  { TaskEntry.absent with
    id := 1, prio := 3, inOff := 0, inLen := 16, outOff := 0x100, outLen := 16, entry := 0x100, instOff := 0x1000, instLen := 64,
    periodM1 := 3, faultReact := 3 }

/-- A device after READY in RUN with that task. -/
def inRun : State :=
  { State.reset with
    ctl := { State.reset.ctl with mode := .run }, tasks := [Task.fresh entry1]
    power := { State.reset.power with ready := true }
    clock := { State.reset.clock with set := true }
    project := { State.reset.project with loaded := true, id := 5 }
    stalls := Vector.replicate 16 { Stall.reset with awake := true } }

/-- The same in STOP. -/
def inStop : State := { inRun with ctl := { inRun.ctl with mode := .stop } }

/-- A release of that task. -/
def rel1 : Release := { task := 1, instant := 125000, tick := 4, relnum := 1, arrived := 0, evt := [] }

/-- A Till in an area at a PC, with registers 1 and 2 of its own. -/
def tillIn (a : AreaState) (pc : BitVec 20) (r1 r2 : Word) : Till :=
  { startTill entry1 rel1 a 0 with
    pc := pc, latched := true, dispatched := a == .live, regs := putReg (putReg (startRegs entry1) 1 r1) 2 r2 }

/-- The live release of the task runs in that Till, with registers 1 and 2 and a PC. -/
def live (pc : BitVec 20) (r1 r2 : Word) : State :=
  modStall 0 (fun k => { k with running := some 0 }) (modTill till0 (fun _ => tillIn .live pc r1 r2) inRun)

/-- A speculative release of the task runs in that Till. -/
def spec (pc : BitVec 20) (r1 r2 : Word) : State := modTill till0 (fun _ => tillIn .speculative pc r1 r2) inRun

/-- A command on ring 0 with its operands. -/
def cmd (op : Nat) (w : Vector Word 5) : Cmd := { ring := 0, idx := 2, opcode := op, nocq := false, tag := 7, w := w }

/-- Ring 0 has begun that command. -/
def atCmd (op : Nat) (w : Vector Word 5) (s : State) : State := modRing 0 (fun r => { r with cur := some (cmd op w) }) s

/-- Ring 0 works on that command. -/
def busyCmd (op : Nat) (w : Vector Word 5) (s : State) : State := modRing 0 (fun r => { r with busy := some (cmd op w) }) s

/-- DMA channels run and requests may be issued. -/
def withDma (s : State) : State := { s with dma := { s.dma with en := true }, host := { s.host with bme := true } }

/-- Every Till has a property when those of the sixteen Stalls have it. -/
theorem all_tills {P : TillId → Prop} (h : ∀ (k : Fin 16) (x : Fin 2), P ⟨k, x⟩) (t : TillId) : P t := h t.stall t.till

/-! ### Well-formed commands -/

theorem test_reserved_rs2_refused : Instr.wellFormed (.lzc till0 1 2 3) = false ∧ Instr.wellFormed (.dsqrt till0 1 2 3) = false ∧
    Instr.wellFormed (.lrD till0 1 2 3) = false ∧ Instr.wellFormed (.lzc till0 1 2 0) = true := by decide +kernel

theorem test_lengths_refused : Instr.wellFormed (.descriptorArrival 0 true [1]) = false ∧
    Instr.wellFormed (.attest 0 [1, 2]) = false ∧ Instr.wellFormed (.secKeyload 0 []) = false ∧
    Instr.wellFormed (.secProvision 0 [0]) = false ∧ Instr.wellFormed (.eventPiece 0 0 0 1 [0]) = false ∧
    Instr.wellFormed (.journal 0 0 0 1 [0]) = false ∧ Instr.wellFormed (.motionPiece 0 0 0 0 [0]) = false ∧
    Instr.wellFormed (.control 0 0 0 [0]) = false ∧ Instr.wellFormed (.stateCopy 0 0 0 [0]) = false ∧
    Instr.wellFormed (.epochcopy 0 0 0 true [0]) = false ∧ Instr.wellFormed (.mailboxWrite 0 8 [0]) = false ∧
    Instr.wellFormed (.pollDataArrival true []) = false ∧ Instr.wellFormed (.cycleFrameReceive 0 0 []) = false := by decide +kernel

theorem test_ranges_refused : Instr.wellFormed (.abdicate 0 0 0 1) = false ∧ Instr.wellFormed (.abdicate 0 0 0 6) = false ∧
    Instr.wellFormed (.heartbeat 0 0 0 0x400000 0) = false ∧ Instr.wellFormed (.marginScan [2048]) = false ∧
    Instr.wellFormed (.motionDeadline 0 [128]) = false ∧ Instr.wellFormed (.registerWrite 4 0 true) = false ∧
    Instr.wellFormed (.ringConfigWrite 4 0) = false ∧ Instr.wellFormed (.dmaRequestFailure 0 0 true) = false ∧
    Instr.wellFormed (.frameTransmit 65536) = false ∧ Instr.wellFormed (.abdicate 0 0 0 5) = true := by decide +kernel

/-! ### Tally words -/

theorem test_words_alu : decodeTally till0 0x00041185 = some (.add till0 3 1 2) ∧ encodeTally (.sub till0 3 1 2) = some 0x00441185 ∧
    decodeTally till0 0x00441185 = some (.sub till0 3 1 2) := by decide +kernel

theorem test_words_of_no_meaning : decodeTally till0 0 = none ∧ decodeTally till0 0xFFFFFFFF = none := by decide +kernel

/-! ### Tally: witnesses and steps -/

theorem witness_alu_rows : issues (live 8 6 7) till0 ∧ fallsOk (live 8 6 7) till0 := by
  simp only [issues, fallsOk]; decide +kernel

theorem witness_alu_rows_at_end : issues (live 0xFFFF8 6 7) till0 ∧ fallsOk (live 0xFFFF8 6 7) till0 := by
  simp only [issues, fallsOk]; decide +kernel

theorem test_add_wraps : reg (after (exec (.add till0 3 1 2) (live 8 0xFFFF_FFFF_FFFF_FFFF 2))) till0 3 = 1 := by decide +kernel

theorem test_shl_takes_six_bits : reg (after (exec (.shl till0 3 1 2) (live 8 1 65))) till0 3 = 2 := by decide +kernel

theorem test_lzc_of_zero : reg (after (exec (.lzc till0 3 1 0) (live 8 0 0))) till0 3 = 64 := by decide +kernel

theorem witness_division : issues (live 8 6 7) till0 ∧ fallsOk (live 8 6 7) till0 ∧ reg (live 8 6 7) till0 2 ≠ 0 := by
  simp only [issues, fallsOk]; decide +kernel

theorem witness_division_by_zero_speculative : issues (spec 8 6 0) till0 ∧ fallsOk (spec 8 6 0) till0 ∧
    reg (spec 8 6 0) till0 2 = 0 ∧ isSpec (spec 8 6 0) till0 = true := by simp only [issues, fallsOk]; decide +kernel

theorem witness_division_by_zero_holds : issues (live 8 6 0) till0 ∧ fallsOk (live 8 6 0) till0 ∧
    reg (live 8 6 0) till0 2 = 0 ∧ holdsOnFault (live 8 6 0) till0 := by simp only [issues, fallsOk, holdsOnFault]; decide +kernel

theorem witness_division_overflow : issues (live 8 0x8000_0000_0000_0000 0xFFFF_FFFF_FFFF_FFFF) till0 ∧
    reg (live 8 0x8000_0000_0000_0000 0xFFFF_FFFF_FFFF_FFFF) till0 1 = 0x8000_0000_0000_0000 ∧
    reg (live 8 0x8000_0000_0000_0000 0xFFFF_FFFF_FFFF_FFFF) till0 2 = 0xFFFF_FFFF_FFFF_FFFF := by simp only [issues]; decide +kernel

theorem witness_reserved_field : issues (spec 8 6 7) till0 ∧ (3 : RegNo) ≠ 0 ∧ isSpec (spec 8 6 7) till0 = true := by
  simp only [issues]; decide +kernel

/-- Local data of the tests: address 16#10_0010 in register 1. -/
def inLocal : State := live 8 0x10_0010 0x1122_3344_5566_7788

theorem witness_local_access : issues inLocal till0 ∧ fallsOk inLocal till0 ∧ replayOf inLocal till0 = none ∧
    accessIn (effAddr inLocal till0 1 0) 8 0x10_0000 0x14_0000 ∧
    undamaged inLocal (localBase till0.stall.val + ((effAddr inLocal till0 1 0).toNat - 0x10_0000)) 8 := by
  simp only [issues, fallsOk, accessIn, undamaged]; decide +kernel

/-- The last word of local data. -/
def atLocalEnd : State := live 8 0x13_FFF8 1

theorem witness_local_access_at_end : issues atLocalEnd till0 ∧ accessIn (effAddr atLocalEnd till0 1 0) 8 0x10_0000 0x14_0000 := by
  simp only [issues, accessIn]; decide +kernel

theorem test_store_then_load : readByte (after (exec (.stH till0 1 2 0) inLocal)) (localBase 0 + 0x11) = 0x77 := by decide +kernel

/-- The task's instance area: address 16#100_1000 in register 1. -/
def inInst : State := live 8 0x100_1000 0x55

theorem witness_instance_access : issues inInst till0 ∧ fallsOk inInst till0 ∧ replayOf inInst till0 = none ∧
    accessIn (effAddr inInst till0 1 0) 8 (0x100_0000 + (tillEntry inInst till0).instOff)
      (0x100_0000 + (tillEntry inInst till0).instOff + (tillEntry inInst till0).instLen) ∧
    (effAddr inInst till0 1 0).toNat + 8 ≤ 0x140_0000 ∧ fenceHolds inInst till0 1 = false ∧
    undamaged inInst (marketSys till0 (effAddr inInst till0 1 0).toNat) 8 := by
  simp only [issues, fallsOk, accessIn, undamaged]; decide +kernel

/-- The input section: address 16#200_0008 in register 1. -/
def inInput : State := live 8 0x200_0008 0

theorem witness_input_load : issues inInput till0 ∧ fallsOk inInput till0 ∧ plain inInput till0 ∧
    (tillEntry inInput till0).event = false ∧ fenceHolds inInput till0 0 = false ∧
    accessIn (effAddr inInput till0 1 0) 8 (0x200_0000 + (tillEntry inInput till0).inOff)
      (0x200_0000 + (tillEntry inInput till0).inOff + (tillEntry inInput till0).inLen) ∧
    (effAddr inInput till0 1 0).toNat + 8 ≤ 0x204_0000 ∧
    undamaged inInput (dayBase till0.stall.val + ((effAddr inInput till0 1 0).toNat - 0x200_0000 -
      (tillEntry inInput till0).inOff)) 8 := by simp only [issues, fallsOk, plain, accessIn, undamaged]; decide +kernel

/-- The output section: address 16#204_0108 in register 1, the section's last word. -/
def inOutput : State := live 8 0x204_0108 0xAA

theorem witness_output_access : issues inOutput till0 ∧ fallsOk inOutput till0 ∧ plain inOutput till0 ∧
    (tillEntry inOutput till0).event = false ∧ fenceHolds inOutput till0 0 = false ∧ (tillAt inOutput till0).held = [] ∧
    accessIn (effAddr inOutput till0 1 0) 8 (0x204_0000 + (tillEntry inOutput till0).outOff)
      (0x204_0000 + (tillEntry inOutput till0).outOff + (tillEntry inOutput till0).outLen) ∧
    (effAddr inOutput till0 1 0).toNat + 8 ≤ 0x208_0000 ∧
    undamaged inOutput (outBase (marketOf till0.stall).val + ((effAddr inOutput till0 1 0).toNat - 0x204_0000)) 8 ∧
    undamaged inOutput (outBase (marketOf till0.stall).val + 8 * (((effAddr inOutput till0 1 0).toNat - 0x204_0000) / 8)) 8 := by
  simp only [issues, fallsOk, plain, accessIn, undamaged]; decide +kernel

theorem test_output_store_is_held : readByte (after (exec (.stB till0 1 2 0) inOutput)) (outBase 0 + 0x108) = 0 ∧
    (tillAt (after (exec (.stB till0 1 2 0) inOutput)) till0).held ≠ [] := by decide +kernel

theorem witness_align_trap : issues (spec 8 0x10_0001 0) till0 ∧ isSpec (spec 8 0x10_0001 0) till0 = true ∧
    (effAddr (spec 8 0x10_0001 0) till0 1 0).toNat % 2 ≠ 0 := by simp only [issues]; decide +kernel

theorem witness_access_trap : issues (spec 8 0x0F_FFF8 0) till0 ∧ isSpec (spec 8 0x0F_FFF8 0) till0 = true ∧
    (effAddr (spec 8 0x0F_FFF8 0) till0 1 0).toNat % 8 = 0 ∧ (effAddr (spec 8 0x0F_FFF8 0) till0 1 0).toNat < 0x10_0000 := by
  simp only [issues]; decide +kernel

theorem witness_input_store_trap : issues (spec 8 0x200_0000 0) till0 ∧ isSpec (spec 8 0x200_0000 0) till0 = true ∧
    0x200_0000 ≤ (effAddr (spec 8 0x200_0000 0) till0 1 0).toNat ∧ (effAddr (spec 8 0x200_0000 0) till0 1 0).toNat < 0x204_0000 := by
  simp only [issues]; decide +kernel

theorem witness_lane : issues inOutput till0 ∧ fallsOk inOutput till0 ∧
    accessIn (Safety.laneAt inOutput till0 1 0) 8 (0x204_0000 + (tillEntry inOutput till0).outOff)
      (0x204_0000 + (tillEntry inOutput till0).outOff + (tillEntry inOutput till0).outLen) ∧
    (Safety.laneAt inOutput till0 1 0).toNat + 8 ≤ 0x208_0000 ∧ fenceHolds inOutput till0 0 = false ∧
    (tillAt inOutput till0).held = [] ∧
    undamaged inOutput (outBase (marketOf till0.stall).val + ((Safety.laneAt inOutput till0 1 0).toNat - 0x204_0000)) 8 := by
  simp only [issues, fallsOk, accessIn, undamaged]; decide +kernel

theorem test_lput_puts_masked_bits : valueAt (overlay (tillAt (after (exec (.lput till0 2 1 0 0) inOutput)) till0).held
    (fun _ => 0) 0x108 8) = 0xAA := by decide +kernel

theorem witness_edge : issues inInst till0 ∧ fallsOk inInst till0 ∧ plain inInst till0 ∧
    undamaged inInst (marketSys till0 (Safety.laneAt inInst till0 1 0).toNat) 8 ∧ fenceHolds inInst till0 1 = false ∧
    (∀ u, (tillAt inInst u).area ≠ .speculative) ∧
    accessIn (Safety.laneAt inInst till0 1 0) 8 (0x100_0000 + (tillEntry inInst till0).instOff)
      (0x100_0000 + (tillEntry inInst till0).instOff + (tillEntry inInst till0).instLen) ∧
    (Safety.laneAt inInst till0 1 0).toNat + 8 ≤ 0x140_0000 := by
  refine ⟨?_, ?_, ?_, ?_, ?_, all_tills (by decide +kernel), ?_, ?_⟩ <;>
    (try simp only [issues, fallsOk, plain, accessIn, undamaged]) <;> decide +kernel

theorem test_edge_rises : reg (after (exec (.edgeR till0 2 1 0) inInst)) till0 2 = 1 ∧
    readWord (after (exec (.edgeR till0 2 1 0) inInst)) (marketSys till0 0x100_1000) = 1 := by decide +kernel

theorem witness_atomics : issues inInst till0 ∧ fallsOk inInst till0 ∧ fenceHolds inInst till0 1 = false ∧
    accessIn (reg inInst till0 1) 8 0x100_0000 0x140_0000 ∧ plain inInst till0 ∧
    undamaged inInst (marketSys till0 (reg inInst till0 1).toNat) 8 ∧ (tillAt inInst till0).resv ≠ some (reg inInst till0 1).toNat := by
  simp only [issues, fallsOk, plain, accessIn, undamaged]; decide +kernel

/-- LR.D has reserved the address. -/
def reserved : State := after (exec (.lrD till0 3 1 0) inInst)

theorem witness_store_conditional : issues reserved till0 ∧ fallsOk reserved till0 ∧ fenceHolds reserved till0 1 = false ∧
    accessIn (reg reserved till0 1) 8 0x100_0000 0x140_0000 ∧ plain reserved till0 ∧
    (tillAt reserved till0).resv = some (reg reserved till0 1).toNat := by
  simp only [issues, fallsOk, plain, accessIn]; decide +kernel

theorem witness_stores_are_done : ∃ v q, storeAt till0 (reg reserved till0 1) 8 (reg reserved till0 2) reserved = .done v q :=
  ⟨_, _, rfl⟩

theorem witness_byte_stores_are_done : ∃ v q, storeAt till0 (reg inInst till0 1) 1 1 inInst = .done v q := ⟨_, _, rfl⟩

theorem test_sc_succeeds_once : reg (after (exec (.scD till0 3 1 2) reserved)) till0 3 = 1 ∧
    (tillAt (after (exec (.scD till0 3 1 2) reserved)) till0).resv = none := by decide +kernel

/-- A speculative release at the instance area. -/
def specInst : State := spec 8 0x100_1000 0

theorem witness_speculative_atomic : issues specInst till0 ∧ fallsOk specInst till0 ∧ fenceHolds specInst till0 1 = false ∧
    isSpec specInst till0 = true ∧ accessIn (reg specInst till0 1) 8 0x100_0000 0x140_0000 := by
  simp only [issues, fallsOk, accessIn]; decide +kernel

theorem witness_branch : issues (live 8 6 7) till0 ∧ (tillAt (live 8 6 7) till0).pc ≠ 0xFFFFC ∧
    targetOk (branchTo (live 8 6 7) till0 (condition 1 (reg (live 8 6 7) till0 1) (reg (live 8 6 7) till0 2)) 4) ∧
    targetOk (branchTo (live 8 6 7) till0 (condition 1 (reg (live 8 6 7) till0 1) (immFive 1 3)) 4) := by
  simp only [issues, targetOk]; decide +kernel

theorem witness_bit_branch : issues inLocal till0 ∧ replayOf inLocal till0 = none ∧
    accessIn (reg inLocal till0 1) 8 0x10_0000 0x14_0000 ∧
    undamaged inLocal (localBase till0.stall.val + ((reg inLocal till0 1).toNat - 0x10_0000)) 8 ∧
    (readWord inLocal (localBase till0.stall.val + ((reg inLocal till0 1).toNat - 0x10_0000))).getLsbD 5 = false ∧
    targetOk (branchTo inLocal till0 false 4) ∧ targetOk (branchTo inLocal till0 true 4) := by
  simp only [issues, accessIn, undamaged, targetOk]; decide +kernel

theorem witness_jumps : issues (live 8 0x200 7) till0 ∧ targetOk (pcOf (live 8 0x200 7) till0 + BitVec.ofInt 64 (4 * (4 : BitVec 20).toInt)) ∧
    targetOk (reg (live 8 0x200 7) till0 1 + BitVec.ofInt 64 (8 : BitVec 12).toInt) ∧ isSpec (live 8 0x200 7) till0 = false := by
  simp only [issues, targetOk]; decide +kernel

/-- A Till whose return link is 16#200. -/
def returning : State := setReg till0 30 0x200 (live 8 0 0)

theorem witness_return : issues returning till0 ∧ targetOk (reg returning till0 30) := by simp only [issues, targetOk]; decide +kernel

theorem witness_speculative_call : issues (spec 8 0x200 7) till0 ∧ isSpec (spec 8 0x200 7) till0 = true ∧
    targetOk (pcOf (spec 8 0x200 7) till0 + BitVec.ofInt 64 (4 * (4 : BitVec 20).toInt)) ∧
    (tillAt (spec 8 0x200 7) till0).ckpts.length < 256 := by simp only [issues, targetOk]; decide +kernel

theorem test_call_saves : reg (after (exec (.call till0 1 4) (live 8 0x100_1000 7))) till0 29 = 0x100_1000 ∧
    reg (after (exec (.call till0 1 4) (live 8 0x100_1000 7))) till0 30 = 12 := by decide +kernel

theorem witness_body_end_speculative : issues (spec 8 0 0) till0 ∧ reg (spec 8 0 0) till0 30 = BitVec.ofNat 64 endAddress ∧
    isSpec (spec 8 0 0) till0 = true := by simp only [issues]; decide +kernel

theorem witness_body_end : issues (live 8 0 0) till0 ∧ reg (live 8 0 0) till0 30 = BitVec.ofNat 64 endAddress ∧
    isLive (tillAt (live 8 0 0) till0) = true ∧ (tillEntry (live 8 0 0) till0).event = false ∧
    earlierPosted (live 8 0 0) till0 = false := by simp only [issues]; decide +kernel

theorem witness_tmrq : issues (live 8 0 0) till0 ∧ fallsOk (live 8 0 0) till0 ∧ (tillEntry (live 8 0 0) till0).event = false := by
  simp only [issues, fallsOk]; decide +kernel

theorem test_tmrq_period : reg (after (exec (.tmrq till0 3 0 2) (live 8 0 0))) till0 3 = 125000 := by decide +kernel

theorem witness_sys : issues inInst till0 ∧ fallsOk inInst till0 ∧ following inInst = false ∧ plain inInst till0 ∧
    0x100_0000 ≤ (reg inInst till0 1).toNat ∧ (reg inInst till0 1).toNat < 0x140_0000 ∧
    inInst.markets[marketOf till0.stall].sysQueue.length < 32 := by simp only [issues, fallsOk, plain]; decide +kernel

theorem witness_speculative_sys : issues specInst till0 ∧ fallsOk specInst till0 ∧ following specInst = false ∧
    isSpec specInst till0 = true := by simp only [issues, fallsOk]; decide +kernel

theorem witness_fence : issues (live 8 0 0) till0 ∧ fallsOk (live 8 0 0) till0 ∧ isSpec (live 8 0 0) till0 = false ∧
    (live 8 0 0).stalls[till0.stall].fence = none ∧
    fenceWaits (live 8 0 0) till0.stall { mask := 0x3F, tickets := openTickets (live 8 0 0) till0.stall 0x3F } = false := by
  simp only [issues, fallsOk]; decide +kernel

/-- A SYS request of the Stall is on its way. -/
def withRequest : State := after (exec (.sysCall till0 3 1 4) inInst)

theorem witness_fence_waits : issues withRequest till0 ∧ fallsOk withRequest till0 ∧ isSpec withRequest till0 = false ∧
    withRequest.stalls[till0.stall].fence = none ∧
    fenceWaits withRequest till0.stall { mask := 0x3F, tickets := openTickets withRequest till0.stall 0x3F } = true := by
  simp only [issues, fallsOk]; decide +kernel

theorem witness_speculative_fence : issues (spec 8 0 0) till0 ∧ isSpec (spec 8 0 0) till0 = true ∧
    (tillAt (spec 8 0 0) till0).pc ≠ 0xFFFFC ∧ (8 : BitVec 6).getLsbD 3 = true := by simp only [issues]; decide +kernel

/-- A fence with nothing left to wait for. -/
def fenced : State := modStall 0 (fun k => { k with fence := some { mask := 0x3F, tickets := [] } }) (live 8 0 0)

theorem witness_fence_complete : fenced.stalls[till0.stall].fence = some { mask := 0x3F, tickets := [] } ∧
    fenceWaits fenced till0.stall { mask := 0x3F, tickets := [] } = false := by decide +kernel

/-! ### Till events, releases and speculation: witnesses and steps -/

/-- A breakpoint of the task at PC 8. -/
def withBreak (s : State) : State :=
  modStall 0 (fun k => { k with bps := k.bps.set 0 (some { task := 1, addr := 8, scopeAll := true }) }) s

theorem witness_breakpoint : runnable (withBreak (live 8 0 0)) till0 = true ∧
    breakHere (withBreak (live 8 0 0)) till0 = some { task := 1, addr := 8, scopeAll := true } ∧
    isSpec (withBreak (live 8 0 0)) till0 = false ∧ (withBreak (live 8 0 0)).ctl.mode = .run := by decide +kernel

theorem witness_breakpoint_speculative : runnable (withBreak (spec 8 0 0)) till0 = true ∧
    breakHere (withBreak (spec 8 0 0)) till0 = some { task := 1, addr := 8, scopeAll := true } ∧
    isSpec (withBreak (spec 8 0 0)) till0 = true := by decide +kernel

theorem witness_reservation : (tillAt reserved till0).resv = some 0x100_1000 := by decide +kernel

theorem witness_undefined_word : decodeTally till0 0 = none ∧ issues (live 8 0 0) till0 ∧ holdsOnFault (live 8 0 0) till0 := by
  simp only [issues, holdsOnFault]; decide +kernel

theorem witness_undefined_word_speculative : decodeTally till0 0 = none ∧ issues (spec 8 0 0) till0 ∧
    isSpec (spec 8 0 0) till0 = true := by simp only [issues]; decide +kernel

theorem test_breakpoint_holds : (after (exec (.breakpointReached till0) (withBreak (live 8 0 0)))).ctl.mode = .hold := by decide +kernel

theorem witness_transient_fault : runnable (live 8 0 0) till0 = true ∧ isLive (tillAt (live 8 0 0) till0) = true ∧
    (tillAt (live 8 0 0) till0).replayed = false ∧ (tillAt (live 8 0 0) till0).unprot = false ∧
    bit (live 8 0 0).spctl 1 = true := by decide +kernel

theorem witness_transient_fault_speculative : runnable (spec 8 0 0) till0 = true ∧ isSpec (spec 8 0 0) till0 = true ∧
    (tillAt (spec 8 0 0) till0).dispatched = false := by decide +kernel

/-- A release signal of the task has arrived while Stall 0 runs another task's release. -/
def signalled : State :=
  { modStall 0 (fun k => { k with running := some 0 }) (modTill till0 (fun _ => { tillIn .live 8 0 0 with rel := { rel1 with task := 2 } }) inRun) with
    signals := [{ task := 1, tick := 8 }] }

theorem witness_release_signal : signalled.signals.find? (fun y => y.task == 1) = some { task := 1, tick := 8 } ∧
    taskOf signalled 1 = some (Task.fresh entry1) ∧ signalled.ctl.mode = .run ∧ signalled.red.role = .solo ∧
    signalled.red.adjudication = none ∧ taskFrozen signalled 1 = false ∧ uncommitted signalled 1 = false ∧
    signalled.stalls[(Task.fresh entry1).e.stall].running ≠ none := by decide +kernel

/-- A release signal of the task while its release still runs. -/
def overrunning : State := { live 8 0 0 with signals := [{ task := 1, tick := 8 }] }

theorem witness_release_signal_skipped : overrunning.signals.find? (fun y => y.task == 1) = some { task := 1, tick := 8 } ∧
    taskOf overrunning 1 = some (Task.fresh entry1) ∧ overrunning.ctl.mode = .run ∧ overrunning.red.role = .solo ∧
    taskFrozen overrunning 1 = false ∧ uncommitted overrunning 1 = true ∧ (Task.fresh entry1).e.ovrlim = 0 := by decide +kernel

/-- A pending release on a free Stall. -/
def pendingOne : State := modStall 0 (fun k => { k with pend := [rel1] }) inRun

theorem witness_dispatch : minBy (releaseKey pendingOne) pendingOne.stalls[(0 : StallId)].pend = some rel1 ∧
    dispatchable pendingOne 0 rel1 = true ∧ specTill pendingOne 0 = none ∧ pickTill pendingOne 0 = some till0 ∧
    taskOf pendingOne rel1.task = some (Task.fresh entry1) ∧ mirrorOf pendingOne rel1 = none := by decide +kernel

/-- The task permits run-ahead and has had a release whose commit was in time. -/
def aheadTask : Task := { Task.fresh { entry1 with runahead := true } with hadRelease := true, lastCommitted := true }

/-- A Stall on which that task may run ahead. -/
def mayRunAhead : State := { inRun with spctl := 3, tasks := [aheadTask] }

theorem witness_speculation : mayRunAhead.stalls[(0 : StallId)].awake = true ∧ stallFree mayRunAhead 0 = true ∧
    mayRunAhead.stalls[(0 : StallId)].pend = [] ∧ specTill mayRunAhead 0 = none ∧ windowOpen mayRunAhead 0 = false ∧
    mayRunAhead.red.role = .solo ∧ mayRunAhead.red.adjudication = none ∧ pickTill mayRunAhead 0 = some till0 ∧
    minBy (fun x => (nextInstant mayRunAhead x.e * 16 + x.e.prio) * 128 + x.e.id.toNat)
      (mayRunAhead.tasks.filter (fun x => x.e.stall == 0 && eligible mayRunAhead x)) = some aheadTask := by decide +kernel

/-- A dispatched speculative release whose input is latched. -/
def comparing : State := modTill till0 (fun k => { k with dispatched := true }) (spec 8 0 0)

theorem witness_comparison : (tillAt comparing till0).area = .speculative ∧ (tillAt comparing till0).dispatched = true ∧
    (tillAt comparing till0).latched = true ∧ lowestChange comparing till0 = none ∧ (tillAt comparing till0).waiting = false ∧
    (tillAt comparing till0).trap = none ∧ (tillAt comparing till0).frozen = none := by decide +kernel

/-- The same with a Market word watched in interval 0 that has changed. -/
def comparingChanged : State := modTill till0 (fun k => { k with watch := [{ off := 0x1000, interval := 0, changed := true }] }) comparing

theorem witness_comparison_changed : (tillAt comparingChanged till0).area = .speculative ∧
    lowestChange comparingChanged till0 = some 0 ∧ ((tillAt comparingChanged till0).ckpts[0]?).isSome = true := by decide +kernel

/-- A verification replay that has ended. -/
def verified_ : State := modTill till0 (fun k => { k with
  area := .retained, waiting := true
  replay := some { verify := true, base := 0, nextEffect := 0, nextGlobal := 0, stores := [], kind := .tillState, addr := 0 } }) (live 8 0 0)

theorem witness_verification : (tillAt verified_ till0).area = .retained ∧ (tillAt verified_ till0).waiting = true ∧
    ((tillAt verified_ till0).replay.map Replay.verify) = some true ∧ verified_.red.adjudication = none := by decide +kernel

/-- An adjudication of that release. -/
def case1 : Adjudication := { stall := 0, task := 1, relnum := 1, own := 5, peer := 6, ownVerdict := none, peerVerdict := none }

theorem witness_verdict_of_verification :
    (modRed (fun r => { r with adjudication := some case1 }) verified_).red.adjudication = some case1 ∧ case1.peerVerdict = none ∧
    (tillAt (modRed (fun r => { r with adjudication := some case1 }) verified_) till0).waiting = true := by decide +kernel

/-- An event task with a trigger under way while its Stall runs another task's release. -/
def triggered : State :=
  { signalled with
    tasks := [Task.fresh { entry1 with event := true }], signals := [],
    trigs := [{ task := 1, src := 0, index := 3, edge := 1, t := 900, pins := 8, count := 0 }] }

theorem witness_trigger : (triggered.trigs.find? (fun y => y.task == 1)).isSome = true ∧
    taskOf triggered 1 = some (Task.fresh { entry1 with event := true }) ∧ triggered.ctl.mode = .run ∧ triggered.red.role = .solo ∧
    triggered.stalls[(0 : StallId)].pend.any (fun r => r.task == 1) = false ∧ triggered.stalls[(0 : StallId)].running ≠ none := by decide +kernel

theorem witness_trigger_dropped :
    (modStall 0 (fun k => { k with pend := [rel1] }) triggered).stalls[(0 : StallId)].pend.any (fun r => r.task == 1) = true ∧
    (taskOf (modStall 0 (fun k => { k with pend := [rel1] }) triggered) 1) = some (Task.fresh { entry1 with event := true }) := by decide +kernel

theorem witness_direct_output : ({ inRun with directs := [(1, 0x8_0000_0008)] } : State).directs = (1, 0x8_0000_0008) :: [] := by
  decide +kernel

/-! ### Banks: witnesses -/

/-- A transaction of a kind. -/
def tx (kind : BankKind) (len : Nat) : BankTx := { kind := kind, len := len, since := 0, aged := false, start := 0, data := [] }

/-- Bank 0 with a waiting and an active transaction. -/
def bank (waiting : List BankTx) (active : Option BankTx) (s : State) : State :=
  modMarket 0 (fun k => { k with queue := waiting, active := active }) s

theorem witness_bank_start : (bank [tx (.latch till0) 16] none inRun).markets[(0 : MarketId)].active = none ∧
    pickTx (bank [tx (.latch till0) 16] none inRun) 0 = some (tx (.latch till0) 16) := by decide +kernel

theorem witness_bank_ageing : minBy BankTx.since
    ((bank [tx (.latch till0) 16] none inRun).markets[(0 : MarketId)].queue.filter (fun x => !x.aged)) = some (tx (.latch till0) 16) := by
  decide +kernel

/-- A route of the task's output into Market 1. -/
def routed : State :=
  { inRun with routeJobs := [0], project := { inRun.project with routes := [{ srcTask := 1, dstMkt := 1, len := 8, srcOff := 0x100, dstOff := 0 }] } }

theorem witness_route : routed.routeJobs.contains 0 = true ∧
    routed.project.routes[0]? = some { srcTask := 1, dstMkt := 1, len := 8, srcOff := 0x100, dstOff := 0 } := by decide +kernel

theorem witness_bank_ends : ∀ x ∈ [tx (.fieldSample [(imageBase 0, [1, 2])]) 2, tx (.gather .field []) 8, tx (.latch till0) 16,
    tx (.motionRead 0) 64], (bank [] (some x) inRun).markets[(0 : MarketId)].active = some x ∧ inRun.ue = [] := by decide +kernel

/-- The release commits. -/
def committing : State :=
  bank [] (some (tx (.commit till0) 16)) (modTill till0 (fun k => { k with committing := true, held := [(0x100, 7)] }) (live 8 0 0))

theorem witness_commit : committing.markets[(0 : MarketId)].active = some (tx (.commit till0) 16) ∧ marketOf till0.stall = 0 ∧
    taskOf committing (tillAt committing till0).rel.task = some (Task.fresh entry1) ∧ committing.forces = [] ∧ committing.ue = [] ∧
    committing.red.role = .solo ∧ committing.ctl.mode = .run ∧ committing.stalls[till0.stall].running = some till0.till ∧
    (tillAt committing till0).frozen = none ∧ (tillAt committing till0).area = .live := by decide +kernel

/-- The header of a Till area as the DMA engine reads it: task 1, STATE 2, one checkpoint; and a damaged word of it halts the read (R101, R431). -/
theorem test_till_area_header : dayWord (live 8 0 0) 0 0x3000 = 0x0000_0400_0000_0201 ∧
    dayWord (live 8 0 0) 0 0x3003 = 0x100 := by decide +kernel

theorem test_till_area_damage : (sourceBytes (tillArea till0) 8 (damageWord (tillArea till0) (live 8 0 0))).1 = none ∧
    (sourceBytes (tillArea till0) 16 (live 8 0 0)).1 = some (bytesOfWords [0x0000_0400_0000_0201, 1]) := by decide +kernel

theorem test_commit_retains : (tillAt (after (exec (.bankTransactionEnd 0) committing)) till0).area = .retained := by decide +kernel

/-! ### The host interface: witnesses and steps -/

/-- Ring 0, completion ring 0 and the event ring enabled, the host reachable. -/
def hosted (s : State) : State :=
  modOut 16 (fun r => { r with cfg := 0x9 }) (modOut 0 (fun r => { r with cfg := 0x9 })
    (modRing 0 (fun r => { r with cfg := 0x409 }) { s with host := { s.host with ctl := 1, bme := true } }))

/-- A poll is outstanding. -/
def polling : State := { hosted inRun with host := { (hosted inRun).host with pollOut := true, lastPoll := some 0 } }

theorem witness_polling : polls (hosted inRun) = true ∧ (hosted inRun).host.pollOut = false ∧ polls polling = true ∧
    polling.host.pollOut = true ∧ polling.host.nudged = false ∧ polling.host.lastPoll = some polling.mono ∧ 0 < polling.host.dbper := by
  decide +kernel

/-- A descriptor of an opcode that the host has handed over. -/
def desc (op : Nat) : Desc := { idx := 0, w := #v[BitVec.ofNat 64 op, 0, 0, 0, 0, 0, 0, 0x8000_0000_0000_0000] }

/-- A fetch of one descriptor is under way while the ring has begun a command. -/
def fetching_ : State := modRing 0 (fun r => { r with fetching := some (0, 1), cur := some (cmd 0 #v[0, 0, 0, 0, 0]) }) (hosted inRun)

theorem witness_fetch : (cmdRing fetching_ 0).fetching = some (0, 1) ∧ (cmdRing fetching_ 0).cur ≠ none ∧
    (cmdRing fetching_ 0).halt = false := by decide +kernel

theorem witness_own_timeout : (cmdRing (modRing 0 (fun r => { r with notOwned := some 0 }) inRun) 0).notOwned = some 0 ∧
    (cmdRing (modRing 0 (fun r => { r with notOwned := some 0 }) inRun) 0).halt = false := by decide +kernel

/-- A fetched NOP waits on ring 0. -/
def fetched_ : State := modRing 0 (fun r => { r with fetched := [desc 0], prod := 1 }) (hosted inRun)

theorem witness_turn : (cmdRing fetched_ 0).fetched = desc 0 :: [] ∧ slotState fetched_ 0 (desc 0) ≠ 0 ∧
    opcodeDefined (bits (desc 0).w[0] 7 0) = true ∧ headerClean (desc 0) = true := by decide +kernel

/-- NOP has finished on ring 0. -/
def done1 : State := after (exec (.nopCommand 0) (atCmd 0x00 #v[0, 0, 0, 0, 0] (hosted inRun)))

theorem witness_completion : (firstDone done1 0).isSome = true ∧ canReq done1 = true ∧ (cmdRing done1 0).halt = false := by decide +kernel

/-- Two events wait for the event ring. -/
def backlogged : State :=
  { hosted inRun with host := { (hosted inRun).host with backlog := [⟨0x0300, 0, 1, 0, 0, 0, 0, 0⟩, ⟨0x0301, 0, 2, 0, 0, 0, 0, 0⟩] } }

theorem witness_backlog : (∃ e f, backlogged.host.backlog = e :: f :: []) ∧ outReady backlogged 16 = true :=
  ⟨⟨_, _, rfl⟩, by decide +kernel⟩

theorem witness_moderation : (outRing (modOut 0 (fun r => { r with announce := true, lastMsg := some 0 }) inRun) 0).announce = true ∧
    (outRing (modOut 0 (fun r => { r with announce := true, lastMsg := some 0 }) inRun) 0).lastMsg = some 0 := by decide +kernel

theorem witness_host_lost : bits ({ inRun with host := { inRun.host with ctl := 0x81 } } : State).host.ctl 22 7 ≠ 0 ∧
    ({ inRun with host := { inRun.host with ctl := 0x81 } } : State).host.hostLost = false := by decide +kernel

theorem witness_finish : (cmdRing (atCmd 0 #v[0, 0, 0, 0, 0] inRun) 0).cur = some (cmd 0 #v[0, 0, 0, 0, 0]) ∧
    knowsCmd inRun (cmd 0 #v[0, 0, 0, 0, 0]) = false ∧ (cmd 0 #v[0, 0, 0, 0, 0]).ring < 16 := by decide +kernel

/-! ### Ring commands of rings and channels: witnesses and steps -/

theorem witness_nop : atRing (atCmd 0 #v[0, 0, 0, 0, 0] inRun) 0 0x00 (cmd 0 #v[0, 0, 0, 0, 0]) ∧ clean (cmd 0 #v[0, 0, 0, 0, 0]) [] ∧
    ¬ clean (cmd 0 #v[1, 0, 0, 0, 0]) [] := by simp only [atRing, clean]; decide +kernel

theorem witness_fence_command : atRing (atCmd 1 #v[0x3F, 0, 0, 0, 0] inRun) 0 0x01 (cmd 1 #v[0x3F, 0, 0, 0, 0]) ∧
    clean (cmd 1 #v[0x3F, 0, 0, 0, 0]) [0x3F] ∧ ringFenceWaits (atCmd 1 #v[0x3F, 0, 0, 0, 0] inRun) 0 0x3F = false ∧
    ringFenceWaits (busyCmd 2 #v[0, 0, 0, 0, 0] (atCmd 1 #v[0x3F, 0, 0, 0, 0] inRun)) 0 0x3F = true := by
  simp only [atRing, clean]; decide +kernel

/-- DMA_COPY of 16 bytes between two places of Market memory on channel 2, and its descriptor. -/
def copyCmd : Cmd := cmd 2 #v[0x1000_0000, 0x1000_0100, 0x25_0000_0010, 0, 0]

/-- Ring 0 has begun it. -/
def copying_ : State := atCmd 2 copyCmd.w (withDma inRun)

theorem witness_dma_copy : atRing copying_ 0 0x02 copyCmd ∧ alone copying_ ∧
    opnd copyCmd 3 = BitVec.ofNat 64 (16 + 2 * 2 ^ 36 + 5 * 2 ^ 32) ∧ opnd copyCmd 4 = 0 ∧ opnd copyCmd 5 = 0 ∧
    (opnd copyCmd 1).toNat < 2 ^ 40 ∧ (opnd copyCmd 2).toNat < 2 ^ 40 ∧ copying_.dma.en = true ∧
    sysRangeOk copying_ (opnd copyCmd 1).toNat 16 false = true ∧ sysRangeOk copying_ (opnd copyCmd 2).toNat 16 true = true ∧
    (atCmd 2 copyCmd.w inRun).dma.en = false := by simp only [atRing, alone]; decide +kernel

theorem witness_dma_copy_refused : sysRangeOk (withDma inRun) (opnd (cmd 2 #v[0xF000_0000, 0, 0, 0, 0]) 1).toNat 16 false = false := by
  decide +kernel

/-- DMA_WRITE of 8 bytes on channel 2. -/
def writeCmd : Cmd := cmd 3 #v[0x1000_0008, 0x1122, 0x98, 0, 0]

theorem witness_dma_write : atRing (atCmd 3 writeCmd.w (withDma inRun)) 0 0x03 writeCmd ∧ alone (atCmd 3 writeCmd.w (withDma inRun)) ∧
    (atCmd 3 writeCmd.w (withDma inRun)).dma.en = true ∧ opnd writeCmd 3 = BitVec.ofNat 64 (8 + 16 + 2 * 64) ∧
    (opnd writeCmd 1).toNat % 8 = 0 ∧ sysRangeOk (atCmd 3 writeCmd.w (withDma inRun)) (opnd writeCmd 1).toNat 8 true = true := by
  simp only [atRing, alone]; decide +kernel

/-- A copy of 8 bytes within local data that is next on channel 2. -/
def burst1 : DmaCmd :=
  { cmd := copyCmd, src := localBase 0, dst := localBase 0 + 0x100, len := 8, srcSys := true, dstSys := true, val := none, done := 0 }

/-- Channel 2 holds it. -/
def bursting : State := putBytes (modChan 2 (fun x => { x with queue := [burst1] }) (withDma inRun)) (localBase 0) [1, 2, 3]

theorem witness_dma_burst : bursting.dma.en = true ∧ pickChan bursting = some 2 ∧ chanNext bursting 2 = some burst1 ∧ alone bursting ∧
    bursting.ue = [] ∧ (∃ e, locate burst1.src = some (.local_ 0, e) ∧ burst1.src + burst1.len ≤ e ∧
      locate burst1.dst = some (.local_ 0, e) ∧ burst1.dst + burst1.len ≤ e) ∧ burst1.src + burst1.len ≤ burst1.dst := by
  refine ⟨?_, ?_, ?_, ?_, ?_, ⟨localBase 0 + 0x4_0000, ?_⟩, ?_⟩ <;> (try simp only [alone]) <;> decide +kernel

/-- A copy from host memory that is next on channel 2. -/
def fromHost : DmaCmd := { burst1 with src := 0x5000, srcSys := false }

theorem witness_request_failure : chanNext (modChan 2 (fun x => { x with queue := [fromHost] }) (withDma inRun)) 2 = some fromHost ∧
    fromHost.srcSys = false ∧ fromHost.val = none := by decide +kernel

theorem witness_dma_flush : (chanAt (modChan 2 (fun x => { x with halted := true, queue := [burst1] }) inRun) 2).halted = true ∧
    (2 : Word).getLsbD 1 = true ∧ (1 : Word).getLsbD 0 = true := by decide +kernel

theorem witness_dma_burst_request : (3 : Word).getLsbD 0 = (withDma inRun).dma.en ∧ (withDma inRun).dma.burstOn = false ∧
    (withDma inRun).purse.waiting.any (fun r => r.src == 7) = false := by decide +kernel

/-- BLOCK_ARM of 64 bytes in mailbox 3. -/
def armCmd : Cmd := cmd 0x38 #v[0x7000, 0x3_0000_0040, 0, 0, 0]

theorem witness_block_arm : atRing (atCmd 0x38 armCmd.w inRun) 0 0x38 armCmd ∧ clean armCmd [~~~0, 0x3F_FFFF_FFFF] ∧
    (opnd armCmd 1).toNat + bits (opnd armCmd 2) 31 0 ≤ 2 ^ 64 ∧
    (vget (atCmd 0x38 armCmd.w inRun).host.mailboxes (bits (opnd armCmd 2) 37 32) []).length < 16 := by
  simp only [atRing, clean]; decide +kernel

/-- The buffer is armed. -/
def armed_ : State := after (exec (.blockArm 0) (atCmd 0x38 armCmd.w inRun))

theorem witness_block_cancel : atRing (atCmd 0x39 #v[3, 0, 0, 0, 0] armed_) 0 0x39 (cmd 0x39 #v[3, 0, 0, 0, 0]) ∧
    clean (cmd 0x39 #v[3, 0, 0, 0, 0]) [0x3F] ∧
    (∀ a ∈ vget (atCmd 0x39 #v[3, 0, 0, 0, 0] armed_).host.mailboxes (bits (opnd (cmd 0x39 #v[3, 0, 0, 0, 0]) 1) 5 0) [],
      a.cmd ≠ cmd 0x39 #v[3, 0, 0, 0, 0]) := by simp only [atRing, clean]; decide +kernel

/-- SEND_BLOCK of the task's 8 bytes at 16#1020 for mailbox 3: the block at the instance area names place and length. -/
def sending : State :=
  withDma { modMarket 0 (fun k => { k with sysQueue := [{ service := 1, arg := 0x100_1000, stall := 0, task := 1, ticket := 0 }] })
    (putBytes armed_ (marketSys till0 0x100_1000) [0x20, 0x10, 0, 1, 0, 0, 0, 0, 8, 0, 6, 0, 0, 0, 0, 0]) with pending := [] }

theorem witness_send_block : reqFor sending 0 1 = some { service := 1, arg := 0x100_1000, stall := 0, task := 1, ticket := 0 } ∧
    sending.ue = [] ∧ transfers sending 6 ∧
    (∃ a b, marketRange { service := 1, arg := 0x100_1000, stall := 0, task := 1, ticket := 0 } 0x100_1000 24 = some a ∧
      marketRange { service := 1, arg := 0x100_1000, stall := 0, task := 1, ticket := 0 } (readWord sending a).toNat 8 = some b ∧
      readWord sending (a + 8) = BitVec.ofNat 64 (8 + 3 * 2 ^ 17)) ∧
    vget sending.host.mailboxes 3 [] = { cmd := armCmd, addr := 0x7000, len := 64 } :: [] ∧ knowsCmd sending armCmd = true := by
  refine ⟨?_, ?_, ?_, ⟨marketSys till0 0x100_1000, marketSys till0 0x100_1020, ?_, ?_, ?_⟩, ?_, ?_⟩ <;>
    (try simp only [transfers]) <;> decide +kernel

/-! ### Operating mode and debugging: witnesses and steps -/

theorem witness_mode_commands : ∀ s ∈ [inRun, inStop], alone s ∧ s.ctl.mode ≠ .held := by simp only [alone]; decide +kernel

theorem witness_arm : atRing (atCmd 0x08 #v[0, 0, 0, 0, 0] inStop) 0 0x08 (cmd 0x08 #v[0, 0, 0, 0, 0]) ∧
    clean (cmd 0x08 #v[0, 0, 0, 0, 0]) [] ∧ inStop.ctl.mode = .stop ∧ inStop.project.loaded = true ∧
    ({ inStop with project := Project.none } : State).project.loaded = false := by simp only [atRing, clean]; decide +kernel

theorem witness_disarm_stop : atRing (atCmd 0x09 #v[0, 0, 0, 0, 0] inRun) 0 0x09 (cmd 0x09 #v[0, 0, 0, 0, 0]) ∧
    atRing (atCmd 0x0B #v[0, 0, 0, 0, 0] inRun) 0 0x0B (cmd 0x0B #v[0, 0, 0, 0, 0]) ∧ inRun.ctl.mode ≠ .stop := by
  simp only [atRing]; decide +kernel

/-- RUN with kind COLD on a project in STOP. -/
def startingRun : State := atCmd 0x0A #v[0, 0, 0, 0, 0] { inStop with ctl := { inStop.ctl with armed := true } }

theorem witness_run : atRing startingRun 0 0x0A (cmd 0x0A #v[0, 0, 0, 0, 0]) ∧ clean (cmd 0x0A #v[0, 0, 0, 0, 0]) [3] ∧ alone startingRun ∧
    startKind (bits (opnd (cmd 0x0A #v[0, 0, 0, 0, 0]) 1) 1 0) = some .cold ∧ runRefusal startingRun .cold = 0 ∧
    sleepers startingRun = [] := by simp only [atRing, clean, alone]; decide +kernel

theorem witness_run_refused : runRefusal (atCmd 0x0A #v[0, 0, 0, 0, 0] inStop) .cold ≠ 0 := by decide +kernel

theorem witness_held : (atCmd 0x08 #v[0, 0, 0, 0, 0] State.reset).ctl.mode = .held ∧ alone (atCmd 0x08 #v[0, 0, 0, 0, 0] State.reset) := by
  simp only [alone]; decide +kernel

/-- A mode command waits for its boundary, which is the next one. -/
def waiting_ (a : ModeAction) (s : State) : State :=
  { s with ctl := { s.ctl with waits := [{ ring := 0, action := a, wakes := [], ready := some 2000 }] } }

theorem witness_mode_effect : ∀ p ∈ [(ModeAction.arm, inStop), (.disarm, inRun), (.stop, inRun), (.run .cold, { inStop with ctl := { inStop.ctl with armed := true } })],
    nextEffect (waiting_ p.1 p.2) = some { ring := 0, action := p.1, wakes := [], ready := some 2000 } ∧
    (waiting_ p.1 p.2).clock.set = true ∧ (waiting_ p.1 p.2).power.loss = none ∧ (waiting_ p.1 p.2).power.inReset = none ∧
    effectBoundary (waiting_ p.1 p.2) 2000 = nextBoundary (waiting_ p.1 p.2).clock := by decide +kernel

theorem witness_stall_awake : (modStall 3 (fun k => { k with wakeGrant := some 150, awake := false }) inRun).stalls[(3 : StallId)].wakeGrant = some 150 := by
  decide +kernel

/-- The task is frozen at a breakpoint. -/
def frozen_ : State := modTill till0 (fun k => { k with frozen := some { cause := 0, fault := false, scopeAll := false } }) (live 8 0 0)

theorem witness_frozen : alone frozen_ ∧ frozen_.ctl.mode ≠ .held ∧ taskOf frozen_ 1 ≠ none ∧ taskFrozen frozen_ 1 = true ∧
    frozenTill frozen_ 1 = some till0 ∧ (tillAt frozen_ till0).waiting = false ∧
    atRing (atCmd 0x0C #v[1, 0, 0, 0, 0] frozen_) 0 0x0C (cmd 0x0C #v[1, 0, 0, 0, 0]) ∧ clean (cmd 0x0C #v[1, 0, 0, 0, 0]) [0x7F] ∧
    taskFrozen (live 8 0 0) 1 = false := by simp only [alone, atRing, clean]; decide +kernel

/-- BREAK_SET of task 1 at 16#100. -/
def breakCmd : Cmd := cmd 0x0E #v[0x1_0001, 0, 0, 0, 0]

/-- A project with code of Stall 0 there. -/
def coded : State :=
  { frozen_ with project := { frozen_.project with code := [{ stype := 1, market := 0, stall := 0, body := List.replicate 0x110 0 }] } }

theorem witness_break : atRing (atCmd 0x0E breakCmd.w coded) 0 0x0E breakCmd ∧ clean breakCmd [0xFFF_FFFF] ∧
    codeAddress coded (entryOf coded 1).stall (bits (opnd breakCmd 1) 27 8) = true ∧
    breakSlot coded (entryOf coded 1).stall 1 (BitVec.ofNat 20 (bits (opnd breakCmd 1) 27 8)) = some 0 ∧
    clean (cmd 0x0F #v[0x1_0001, 0, 0, 0, 0]) [0xFFF_FF7F] := by simp only [atRing, clean]; decide +kernel

theorem witness_task_records : taskOf frozen_ 1 = some (Task.fresh entry1) ∧ clean (cmd 0x10 #v[1, 0x4000, 0, 0, 0]) [0x7F, ~~~0] ∧
    (opnd (cmd 0x10 #v[1, 0x4000, 0, 0, 0]) 2).toNat % 64 = 0 ∧ transfers (withDma frozen_) 0 ∧ taskFrozen (withDma frozen_) 1 = true := by
  simp only [clean, transfers]; decide +kernel


/-! ### Watchdog, Purse and selections: witnesses and steps -/

/-- A watchdog that runs with WOPEN 10 and EXPIRE 1,000, 50 us into its period. -/
def watched : State :=
  { inRun with mono := 50000, wdg := { Watchdog.reset with en := true, win := 0x3E8_00_000A, cfg := 0x140 } }

/-- The same after the first key. -/
def keyed : State := { watched with wdg := { watched.wdg with key1 := true } }

/-- The same with WOPEN 100, which the count has not reached. -/
def early : State := { keyed with wdg := { keyed.wdg with win := 0x3E8_00_0064 } }

theorem witness_watchdog_service : wdgRuns watched = true ∧ bit watched.wdg.cfg 2 = false ∧ bit watched.wdg.cfg 3 = !true ∧
    watched.wdg.key1 = false ∧ wdgRuns keyed = true ∧ keyed.wdg.key1 = true ∧ wdgOpen keyed ≤ wdgCount keyed ∧
    wdgCount keyed < wdgExpire keyed ∧ wdgRuns early = true ∧ wdgCount early < wdgOpen early ∧ bits (0x5A3C : Word) 15 0 = 0x5A3C ∧
    bits (0xC3A5 : Word) 15 0 = 0xC3A5 := by decide +kernel

/-- A period that was complete when its window opened does not expire (R413). -/
theorem test_complete_period_is_served : (after (exec .watchdogExpire { watched with wdg := { watched.wdg with
    cfg := 0x144, sloten := 2, own := #v[0x01_00_7F, 0, 0, 0] } })).wdg.svccnt = watched.wdg.svccnt + 1 := by decide +kernel

theorem test_service_counts : (after (exec (.wdgSvc 0xC3A5 true) keyed)).wdg.svccnt = 1 ∧
    (after (exec (.wdgSvc 0xC3A5 true) early)).wdg.expCause = 2 := by decide +kernel

/-- A watchdog with check-ins of slots 0 (any sender), 1 (the host) and 2 (task 1). -/
def checked : State :=
  { watched with wdg := { watched.wdg with cfg := 0x144, sloten := 7, own := #v[0x01_7E_7F, 0, 0, 0] } }

/-- Task 1 has requested WDG_CHECKIN of slot 2. -/
def checking : State :=
  modMarket 0 (fun k => { k with sysQueue := [{ service := 3, arg := 2, stall := 0, task := 1, ticket := 0 }] }) checked

theorem witness_checkin : wdgRuns checked = true ∧ atRing (atCmd 0x80 #v[1, 0, 0, 0, 0] checked) 0 0x80 (cmd 0x80 #v[1, 0, 0, 0, 0]) ∧
    clean (cmd 0x80 #v[1, 0, 0, 0, 0]) [0x1F] ∧ wdgCheckMode checked = true ∧ checked.wdg.sloten.getLsbD 1 = true ∧
    slotOwner checked 1 = 126 ∧ checked.wdg.chk.getLsbD 1 = false ∧
    wdgMissing { checked with wdg := { checked.wdg with chk := checked.wdg.chk ||| BitVec.ofNat 32 (2 ^ 1) } } (wdgCount checked) ≠ 0 ∧
    reqFor checking 0 3 = some { service := 3, arg := 2, stall := 0, task := 1, ticket := 0 } ∧ slotOwner checking 2 = 1 ∧
    checking.wdg.sloten.getLsbD 2 = true ∧ checked.wdg.susp = none ∧ checked.power.loss = none ∧
    periodComplete (untilMono (checked.wdg.since + (wdgOpen checked - checked.wdg.base) * 1000) checked) = false := by
  simp only [atRing, clean]; decide +kernel

/-- Its slots 0 to 2 have checked in, with the window still to open. -/
def complete_ : State := { checked with mono := 5000, wdg := { checked.wdg with chk := 7 } }

theorem witness_window_open : wdgCheckMode complete_ = true ∧ wdgRuns complete_ = true ∧ complete_.wdg.susp = none ∧
    complete_.power.loss = none ∧ periodComplete (untilMono (complete_.wdg.since + (wdgOpen complete_ - complete_.wdg.base) * 1000) complete_) = true ∧
    wdgOpen complete_ ≤ wdgCount (untilMono 10000 complete_) ∧ wdgCount (untilMono 10000 complete_) < wdgExpire complete_ ∧
    ({ checked with wdg := { checked.wdg with sloten := 0 } } : State).wdg.sloten = 0 := by decide +kernel

theorem witness_erase_limit : ({ watched with nvs := { watched.nvs with eraseFrom := some 10 }, wdg := { watched.wdg with susp := some 10 } } : State).nvs.eraseFrom = some 10 := by
  decide +kernel

/-- Each key state of WDG.KEY. -/
def keyState (k : Option Nat) (lock : Bool) : State := { inStop with wdg := { Watchdog.reset with keyFirst := k, lock := lock } }

theorem witness_watchdog_keys : (keyState none false).wdg.keyFirst = none ∧ bits (0xE1A7 : Word) 15 0 = 0xE1A7 ∧
    (keyState (some 0xE1A7) false).wdg.keyFirst = some 0xE1A7 ∧ bit (keyState (some 0xE1A7) false).wdg.cfg 2 = false ∧
    (keyState (some 0xD15A) false).wdg.lock = false ∧ (keyState (some 0xD15A) false).wdg.expired = false ∧
    (keyState (some 0xD15A) true).wdg.lock = true ∧ bits (0xC401 : Word) 15 0 = 0xC401 := by decide +kernel

/-- A request of 2 tokens for a DMA burst and one of 3 for the field waits. -/
def asking : State :=
  { inRun with mono := 1000, purse := { inRun.purse with waiting := [{ src := 3, tokens := 3, who := 0, made := 1000 }] } }

theorem witness_purse : purseHead asking.purse.waiting = some { src := 3, tokens := 3, who := 0, made := 1000 } ∧
    asking.purse.refusing = false ∧ 3 ≤ purseFree asking.purse ∧
    minBy (fun (r : PurseReq) => r.made + purseTimeout r.src) asking.purse.waiting = some { src := 3, tokens := 3, who := 0, made := 1000 } ∧
    asking.purse.fails < 2 ^ 32 ∧ asking.purse.strap = 16 := by decide +kernel

theorem witness_budget : 8 ≤ bits (8 : Word) 5 0 ∧ bits (16 : Word) 5 0 ≤ asking.purse.strap ∧ asking.purse.strap < bits (17 : Word) 5 0 := by
  decide +kernel

theorem witness_market_clock : marketHeld State.reset 0 = true ∧ marketHeld inRun 0 = false := by decide +kernel

theorem witness_speculation_off : (2 : Word).getLsbD 0 = false ∧ (tillAt inRun till0).dispatched = false := by decide +kernel

theorem witness_no_register : readReg inRun 0x3FFF8 = none ∧ inRun.wdg.en = false ∧ inRun.wdg.lock = false ∧
    bits (0x2_00_0001 : Word) 23 0 ≠ 0 ∧ bits (0x2_00_0001 : Word) 23 0 < bits (0x2_00_0001 : Word) 47 24 := by decide +kernel

theorem witness_scrub : wordBad inRun (rowAddr sramRows (8 * (inRun.scrubPos % sramWords))) = false ∧
    ownerOf (rowAddr sramRows (8 * (inRun.scrubPos % sramWords))) < 68 := by decide +kernel

/-! ### Power, resets and the backup domain: witnesses and steps -/

/-- A power loss has been declared at 1 ms. -/
def losing : State := after (execPowerLoss 0 { inRun with mono := 1000000 })

theorem witness_power_loss : inRun.power.loss = none ∧ inRun.power.inReset = none ∧ losing.power.loss ≠ none ∧
    losing.ctl.pfDeadline = some 3000000 ∧ losing.power.aonLost = false := by decide +kernel

/-- A save of one region is due. -/
def saving_ : State :=
  { losing with nvs := { losing.nvs with saving := some (0, 0), saves := #v[none, none, none] },
                project := { losing.project with regions := [{ market := 0, offset := 0x40, length := 16 }] } }

theorem witness_save : saving_.nvs.saving = some (0, 0) ∧ flashRunning saving_ = false ∧ saving_.power.wanted = none ∧
    saveArea saving_ = some 0 := by decide +kernel

theorem witness_save_without_releases : ∀ t, isLive (tillAt saving_ t) = false := all_tills (by decide +kernel)

theorem witness_resets : inRun.power.inReset = none ∧ plainReset inRun ∧
    plainReset { inRun with wdg := { inRun.wdg with hard := some 7 } } ∧
    plainReset { inRun with power := { inRun.power with wanted := some (.software, some 9) } } ∧
    ({ inRun with errs := { inRun.errs with fatalAt := some 5 } } : State).errs.fatalAt = some 5 ∧ inRun.red.role = .solo ∧
    inRun.errs.fatalAt = none := by simp only [plainReset]; decide +kernel

/-- The first key of SYS.RSTCTL has been written. -/
def unlocked (s : State) : State := { s with power := { s.power with rstKey := true } }

theorem witness_software_reset : bits (0x700B : Word) 15 0 = 0x700B ∧ plainReset (unlocked inStop) ∧ (unlocked inStop).power.rstKey = true ∧
    (unlocked inStop).power.inReset = none ∧ (unlocked inStop).power.wanted = none ∧ inStop.ctl.mode = .stop ∧
    inRun.ctl.mode = .run := by simp only [plainReset]; decide +kernel

/-- A power-on reset that is 1 us old. -/
def inPowerOn : State := { after (execRailBelowReset true inRun) with mono := 1000 }

theorem witness_release : inPowerOn.power.inReset = some { cause := .poweron, entered := 0 } ∧ inPowerOn.power.resetNLow = false := by
  decide +kernel

theorem test_release_after_2ms : (after (exec (.resetRelease 4 false 3) inPowerOn)).purse.tokens = 32 ∧
    (after (exec (.resetRelease 4 false 3) inPowerOn)).power.brdid = 3 := by decide +kernel

theorem witness_start : starting State.reset = true ∧ (bootSlot State.reset).1 = none := by decide +kernel

/-- A firmware image of no segments, its signature bytes zero. -/
def fwImage : List Byte :=
  let body := bytesOfWords [0]
  bytesOfWords [0x0000_0101_9648_1A6E, 1, 8, 1] ++ sha256 body ++ List.replicate 192 0 ++ body

/-- Slot A holds it as CURRENT. -/
def withFirmware : State :=
  let q : State := { State.reset with nvs := { State.reset.nvs with fwA := { state := 4, hdr := some (wrapperOf fwImage) } } }
  putBytes q (flashBase + fwBase 0) fwImage

theorem raw_of_firmware : fwRaw withFirmware 0 = fwImage := by decide +kernel

theorem form_of_firmware : wrapperForm 1 fwImage = true ∧ (wrapperOf fwImage).signer = 0 ∧ (wrapperOf fwImage).secver = 0 ∧
    withFirmware.nvs.secver = 0 ∧ plainBody withFirmware.nvs fwImage = some (bytesOfWords [0]) := by decide +kernel

/-- A slot boots when the free value of the signature check accepts its image (log 14). -/
theorem witness_boot (h : signatureGood withFirmware.nvs fwImage = true) :
    starting withFirmware = true ∧ (bootSlot withFirmware).1 = some 0 := by
  have f := form_of_firmware
  have b : fwBody withFirmware 0 = some (bytesOfWords [0]) := by
    simp only [fwBody, acceptImage, raw_of_firmware, f.1, f.2.1, f.2.2.1, f.2.2.2.1, f.2.2.2.2, h]; decide +kernel
  have v : fwVerifies withFirmware 0 = true := by simp only [fwVerifies, b]; decide +kernel
  have l : (slotsIn withFirmware 3) = [] ∧ slotsIn withFirmware 2 = [] ∧ slotsIn withFirmware 4 = [0] ∧ slotsIn withFirmware 5 = [] ∧
      slotsIn withFirmware 1 = [] ∧ fwState withFirmware 0 = 4 := by decide +kernel
  refine ⟨by decide +kernel, ?_⟩
  simp [bootSlot, l.1, l.2.1, l.2.2.1, l.2.2.2.1, l.2.2.2.2.1, forEach, bootFirst, v, l.2.2.2.2.2]

/-- The count with an edge to come, under a shift, with CAL = 537 at an adjusting edge, and at the last edge of a raw second. -/
def edge (shrem winpos edges : Nat) (cal : Int) : State :=
  { inRun with rtc := { inRun.rtc with shrem := shrem, winpos := winpos, edges := edges, cal := cal } }

theorem witness_crystal_edge : (edge 1 0 0 0).rtc.edges + 1 < 32768 ∧ 0 < (edge 1 0 0 0).rtc.shrem ∧
    adjusting (edge 0 0 0 0).rtc = false ∧ adjusting (edge 0 1952 0 537).rtc = true ∧ adjusting (edge 0 1952 0 (-537)).rtc = true ∧
    (edge 0 0 32767 0).rtc.edges = 32767 := by decide +kernel

theorem test_adjusting_edges : (after (exec .crystalEdge (edge 0 1952 0 537))).rtc.count = 2 ∧
    (after (exec .crystalEdge (edge 0 1952 0 (-537)))).rtc.count = 0 := by decide +kernel

/-- A write toward the backup domain is in flight. -/
def inFlight (w : RtcWrite) : State := { inRun with rtc := { inRun.rtc with write := some w } }

theorem witness_rtc_write : (inFlight (.setsec 5 0)).rtc.write = some (.setsec 5 0) ∧ (inFlight (.cal 3)).rtc.write = some (.cal 3) ∧
    inRun.rtc.lockout = false ∧ inRun.rtc.write = none ∧ inRun.rtc.shrem = 0 ∧ bits (0x7FFF : Word) 15 0 ≠ 0x8000 ∧
    -537 ≤ sbits (537 : Word) 10 0 ∧ sbits (537 : Word) 10 0 ≤ 537 ∧ losing.rtc.lockout = true := by decide +kernel

/-- The clock is LOCKED at 2 s with SYNC = 1 and the count at 0. -/
def synced_ : State :=
  { inRun with rtc := { inRun.rtc with sync := true }, clock := { inRun.clock with state := 2, f := 2000000000 } }

theorem witness_rtc_sync : synced_.rtc.sync = true ∧ synced_.clock.state = 2 ∧ synced_.rtc.write = none ∧ synced_.rtc.lockout = false ∧
    32767 < ((nowT synced_ * 32768 / 10 ^ 9 : Nat) - (synced_.rtc.count : Int) : Int).natAbs := by decide +kernel

theorem witness_rtc_get : atRing (atCmd 0x40 #v[0, 0, 0, 0, 0] inRun) 0 0x40 (cmd 0x40 #v[0, 0, 0, 0, 0]) ∧
    clean (cmd 0x40 #v[0, 0, 0, 0, 0]) [] := by simp only [atRing, clean]; decide +kernel

theorem witness_rtc_setsec : atRing (atCmd 0x41 #v[0x1_FFFF_FFFF, 0, 0, 0, 0] inRun) 0 0x41 (cmd 0x41 #v[0x1_FFFF_FFFF, 0, 0, 0, 0]) ∧
    clean (cmd 0x41 #v[0x1_FFFF_FFFF, 0, 0, 0, 0]) [0x1_FFFF_FFFF] ∧
    (atCmd 0x41 #v[0x1_FFFF_FFFF, 0, 0, 0, 0] (inFlight (.cal 3))).rtc.write ≠ none := by simp only [atRing, clean]; decide +kernel

/-- 1 March 2100, 00:00:00. -/
def march2100 : Word := 0x0000_0000_0013_0834

theorem witness_rtc_setdate : atRing (atCmd 0x42 #v[march2100, 0, 0, 0, 0] inRun) 0 0x42 (cmd 0x42 #v[march2100, 0, 0, 0, 0]) ∧
    clean (cmd 0x42 #v[march2100, 0, 0, 0, 0]) [~~~0, 0xFFFF_FFFF] ∧ bits march2100 56 42 = 0 ∧
    dateToCount march2100 (sbits (0 : Word) 31 0) = .ok 134595949363200 := by
  refine ⟨?_, ?_, ?_, ?_⟩
  · simp only [atRing]; decide +kernel
  · simp only [clean]; decide +kernel
  · decide +kernel
  · rfl

theorem witness_rtc_shift_and_cal : atRing (atCmd 0x43 #v[0x7FFF, 0, 0, 0, 0] inRun) 0 0x43 (cmd 0x43 #v[0x7FFF, 0, 0, 0, 0]) ∧
    clean (cmd 0x43 #v[0x7FFF, 0, 0, 0, 0]) [0xFFFF] ∧ atRing (atCmd 0x44 #v[537, 0, 0, 0, 0] inRun) 0 0x44 (cmd 0x44 #v[537, 0, 0, 0, 0]) ∧
    clean (cmd 0x44 #v[537, 0, 0, 0, 0]) [0x7FF] := by simp only [atRing, clean]; decide +kernel

/-- CAL_TO_DATE of the highest count, and of 0 one second before the epoch. -/
theorem witness_cal_to_date : atRing (atCmd 0x45 #v[0xFFFF_FFFF_FFFF, 0, 0, 0, 0] inRun) 0 0x45 (cmd 0x45 #v[0xFFFF_FFFF_FFFF, 0, 0, 0, 0]) ∧
    clean (cmd 0x45 #v[0xFFFF_FFFF_FFFF, 0, 0, 0, 0]) [0xFFFF_FFFF_FFFF, 0xFFFF_FFFF] ∧
    (bits (0xFFFF_FFFF_FFFF : Word) 47 0 : Int) + sbits (0 : Word) 31 0 * 32768 < 2 ^ 48 ∧
    (bits (0 : Word) 47 0 : Int) + sbits (0xFFFF_FFFF : Word) 31 0 * 32768 < 0 := by simp only [atRing, clean]; decide +kernel

theorem witness_date_to_cal : clean (cmd 0x46 #v[march2100, 0, 0, 0, 0]) [~~~0, 0xFFFF_FFFF] ∧ dateGood 0 = false := by
  simp only [clean]; decide +kernel

/-! ### Flash, time and network: witnesses and steps -/

/-- A flash operation that the Purse has granted. -/
def flashing (op : FlashOp) : State :=
  { inRun with nvs := { inRun.nvs with job := some { op := op, user := .other, granted := true, started := 0 }, queue := [] } }

theorem witness_flash : (flashing (.program 0x40_0000 [0x0F])).nvs.job = some { op := .program 0x40_0000 [0x0F], user := .other, granted := true, started := 0 } ∧
    (flashing (.erase 64)).nvs.job = some { op := .erase 64, user := .other, granted := true, started := 0 } ∧
    (flashing (.erase 64)).nvs.queue = [] := by decide +kernel

theorem witness_tick : inRun.clock.set = true ∧ inRun.power.inReset = none ∧ inRun.ctl.mode = .run ∧ inRun.red.handover = none ∧
    State.reset.clock.set = false := by decide +kernel

/-- Boundary 4 is next. -/
def atTick3 : State := { inRun with clock := { inRun.clock with ticknum := 3 } }

theorem test_tick_releases : (after (exec .tickBoundary atTick3)).signals = [{ task := 1, tick := 4 }] ∧
    (after (exec .tickBoundary inRun)).signals = [] := by decide +kernel

/-- Comparator 63 with a control word, a time and a period. -/
def tcmp63 (ctl time per : Word) (armed : Bool) : State :=
  modTcmp 63 (fun c => { c with ctl := ctl, time := time, per := per, armed := armed }) { inRun with clock := { inRun.clock with f := 1000 } }

theorem witness_comparator : (tcmpAt (tcmp63 0x37 2000 0 true) 63).armed = true ∧ (tcmpAt (tcmp63 0x27 2000 0 true) 63).per = 0 ∧
    bits (tcmpAt (tcmp63 0x37 2000 0 true) 63).ctl 3 1 = 3 ∧ (tcmpAt (tcmp63 0x27 2000 10 true) 63).per ≠ 0 ∧
    (tcmpAt (tcmp63 0x27 2000 0 true) 63).ctl.getLsbD 4 = false ∧ (tcmpAt (tcmp63 0x37 2000 0 true) 63).ctl.getLsbD 4 = true := by
  decide +kernel

theorem witness_comparator_arms : (tcmpAt (tcmp63 1 0 0 false) 63).armed = false ∧ bit (tcmpAt (tcmp63 1 0 0 false) 63).ctl 0 = true ∧
    ahead (tcmp63 1 0 0 false) 1001 = 1 ∧ ahead (tcmp63 1 0 0 false) (1000 + 2 ^ 39) = 2 ^ 39 ∧
    ahead (tcmp63 1 0 0 false) (1000 - 2 ^ 39) ≤ -2 ^ 39 ∧ ahead (tcmp63 1 0 0 false) 1000 = 0 ∧
    bit (tcmpAt (tcmp63 0 2000 0 false) 63).ctl 0 = false ∧ ahead (tcmp63 0 2000 0 false) 2000 = 1000 ∧
    (0x27 : Word).getLsbD 0 = true ∧ bits (0x27 : Word) 3 1 ≤ 3 := by decide +kernel

/-- A clock that is set, with JUMPLIM = 100. -/
def clocked : State := { inRun with clock := { inRun.clock with jumpLim := 100, f := 5000 } }

theorem witness_correction : State.reset.clock.set = false ∧ clocked.clock.set = true ∧ (100 : Word).toInt.natAbs ≤ clocked.clock.jumpLim ∧
    clocked.clock.jumpLim < (101 : Word).toInt.natAbs ∧ clocked.clock.keyArm = none ∧ bits (0xC10C : Word) 15 0 = 0xC10C ∧
    bits (0x0C1C : Word) 15 0 = 0x0C1C ∧ ({ clocked with clock := { clocked.clock with keyFirst := true } } : State).clock.keyFirst = true ∧
    ({ clocked with clock := { clocked.clock with keyArm := some 3 } } : State).clock.keyArm = some 3 := by decide +kernel

/-- A slew is in progress. -/
def slewing : State := { clocked with clock := { clocked.clock with slewRem := 2 ^ 40 } }

/-- SERVOEN is 1. -/
def servoed (s : State) : State := { s with clock := { s.clock with ctl := 1 } }

/-- A clock that is not set after READY, with a valid count of 1 s. -/
def unset : State := { inRun with clock := { inRun.clock with set := false }, rtc := { inRun.rtc with tvalid := true, count := 32768 } }

theorem witness_rates : 1 ≤ bits (1 : Word) 30 0 ∧ bits (1 : Word) 30 0 ≤ 2 ^ 30 ∧ slewing.clock.slewRem ≠ 0 ∧ slewing.power.inReset = none ∧
    bit (servoed clocked).clock.ctl 0 = true ∧
    bit (servoed unset).clock.ctl 0 = true ∧ unset.clock.set = false ∧ unset.power.ready = true ∧ unset.rtc.tvalid = true := by decide +kernel

/-- TIME_CONFIG of every field at a value R352 admits, PTP on port 0. -/
def configCmd : Cmd := cmd 0x30 #v[0x0_0100_0A22_0000, 0, 0, 0, 0]

theorem witness_time_config : atRing (atCmd 0x30 configCmd.w inRun) 0 0x30 configCmd ∧ timeConfigForm configCmd = true ∧
    timeConfigForm (cmd 0x30 #v[0, 0, 0, 0, 0]) = false ∧ inRun.sync.ptpEn = 0 ∧
    ({ inRun with sync := { inRun.sync with ptpEn := 1 } } : State).sync.ptpEn ≠ 0 := by simp only [atRing]; decide +kernel

theorem witness_time_status : atRing (atCmd 0x31 #v[0x4000, 0, 0, 0, 0] (withDma inRun)) 0 0x31 (cmd 0x31 #v[0x4000, 0, 0, 0, 0]) ∧
    clean (cmd 0x31 #v[0x4000, 0, 0, 0, 0]) [~~~0] ∧ transfers (withDma inRun) 0 := by simp only [atRing, clean, transfers]; decide +kernel

/-- Port 0 is up, and PTP runs on it. -/
def linked : State :=
  let q := modPort 0 (fun p => { p with cfg := p.cfg ||| 1, started := true, link := true }) clocked
  servoed { q with sync := { q.sync with ptpEn := 1, lockThr := 100 } }

/-- The same in a state of the clock, with a master, runs of offsets and a delay request. -/
def slaved (st good bad : Nat) : State :=
  { linked with clock := { linked.clock with state := st },
                sync := { linked.sync with master := some 7, goodRun := good, badRun := bad, delayReq := some 10, rates := [3, 5] } }

theorem witness_sync_states : (portAt linked 0).link = true ∧ linked.sync.ptpEn.testBit 0 = true ∧
    (0 : BitVec 7).toNat = bits linked.clock.ctl 7 1 ∧ linked.sync.master = none ∧ linked.sync.gmcap = false ∧ linked.clock.state = 0 ∧
    (slaved 1 15 0).sync.master = some 7 ∧ (slaved 1 15 0).clock.state = 1 ∧ (slaved 1 15 0).sync.goodRun = 15 ∧
    ((rxStamp (slaved 1 15 0) 0 100 - 0).toInt - (slaved 1 15 0).sync.mpd).natAbs ≤ (slaved 1 15 0).sync.lockThr ∧
    (slaved 2 0 3).clock.state = 2 ∧ (slaved 2 0 3).sync.badRun = 3 ∧
    4 * (slaved 2 0 3).sync.lockThr < ((rxStamp (slaved 2 0 3) 0 401 - 0).toInt - (slaved 2 0 3).sync.mpd).natAbs ∧
    (slaved 2 0 3).sync.delayReq = some 10 ∧ bit (slaved 2 0 3).clock.ctl 0 = true ∧ (slaved 2 0 3).sync.rates ≠ [] := by decide +kernel

/-- SETWAIT of 5 s runs while the clock is not set. -/
def awaiting : State :=
  servoed { unset with sync := { State.reset.sync with setWait := 5, setWaitFrom := some 0 } }

theorem witness_setwait : awaiting.sync.setWaitFrom = some 0 ∧ bit awaiting.clock.ctl 0 = true ∧ awaiting.clock.set = false ∧
    awaiting.sync.master = none ∧ awaiting.sync.setWait ≠ 0 := by decide +kernel

/-- Port 1 is off, verifies, or has an administrative gate list. -/
def verifying : State :=
  modPort 0 (fun p => { p with vstate := 1, admin := some { base := 0, cycle := 1000, entries := [] } }) linked

theorem witness_ports : bit (portAt inRun 1).cfg 0 = false ∧ (0x5F2_0001 : Word).getLsbD 0 = true ∧ 64 ≤ bits (0x5F2_0001 : Word) 26 16 ∧
    bits (0x5F2_0001 : Word) 26 16 ≤ 2000 ∧ bit (portAt linked 0).cfg 0 = true ∧ (portAt linked 0).started = true ∧
    (portAt verifying 0).link = true ∧ verifying.ctl.mode ≠ .held ∧ (portAt verifying 0).vstate = 1 ∧
    (portAt verifying 0).admin = some { base := 0, cycle := 1000, entries := [] } := by decide +kernel

/-- A transmit entry of port 0 with 8 image bytes of Market 1. -/
def txEntry : SchedEntry :=
  { frameId := 5, rx := false, port := 0, cb := false, queue := 7, freshen := false, periodM1 := 3, phase := 0, off := 2000, off2 := 1000,
    mac := 0x1234, vid := 2, pcp := 7, freshBit := 0, freshMkt := 0, content := [.image 1 8 0x40], due := some 4, accepted := none,
    missRun := 0, gathers := 0, gathered := [], axisBlocks := [], built := none, prev := [], lateRun := false, cbSeq := 0, cbRecent := [] }

/-- It is the one entry of the schedule. -/
def sched (e : SchedEntry) : State := { linked with net := { linked.net with sched := [e] } }

theorem witness_gather : (sched txEntry).net.sched[0]? = some txEntry ∧ txEntry.rx = false ∧ txEntry.off2 ≤ txEntry.off ∧ txEntry.due = some 4 ∧
    (sched txEntry).ctl.mode ≠ .held ∧ txEntry.built = none ∧ txEntry.gathers = 0 ∧ entryRanges txEntry 0 = [] ∧
    entryRanges txEntry 1 ≠ [] := by decide +kernel

theorem witness_frame_sent : txEntry.off < 31250 ∧ (sched txEntry).red.role = .solo ∧
    (∀ p ∈ entryPorts txEntry, (portAt (sched txEntry) p).link = true) ∧ ({ txEntry with built := some [] } : SchedEntry).built ≠ none := by
  decide +kernel

/-- A receive entry of port 0 for 8 bytes of Market 1 from one source, open from 100 to 30,000 ns after boundary 4. -/
def rxEntry_ : SchedEntry := { txEntry with rx := true, off := 100, off2 := 30000, freshen := true, freshMkt := 1, freshBit := 3 }

/-- A cycle frame for it at boundary 4 with that many blocks and that cycle count. -/
def frame_ (blocks cycle : Nat) : List Byte :=
  [1, 0, 0, 0, 0, 0] ++ bytesOfNat 6 0x1234 ++ [0x81, 0x00, 0xE0, 0x02, 0x88, 0xB5] ++
    bytesOfWords [field 0 1 ||| field 8 2 ||| field 16 5 ||| field 32 cycle ||| field 48 blocks, field 32 32,
      field 0 1 ||| field 8 1 ||| field 16 8 ||| field 32 0x40, 0x1122_3344_5566_7788]

theorem witness_frame_received : (portAt (sched rxEntry_) 0).link = true ∧ (sched rxEntry_).ctl.mode ≠ .held ∧
    (frame_ 1 4).length + 4 ≤ bits (portAt (sched rxEntry_) 0).cfg 26 16 ∧ bits (portAt (sched rxEntry_) 0).cfg 26 16 < 1519 + 4 ∧
    rxFrame [] = none ∧
    (rxFrame (frame_ 1 4)).bind (rxEntry (sched rxEntry_) 0) = some 0 ∧ (rxFrame (frame_ 1 4)).bind (rxEntry linked 0) = none ∧
    (rxFrame (frame_ 1 4)).map (fun f => rxHeader f.payload) = some true ∧
    (rxFrame (frame_ 2 4)).map (fun f => bits (wordAt f.payload 0) 55 48) = some 2 ∧
    (rxFrame (frame_ 1 4)).bind (fun f => rxBlocks rxEntry_.content ((f.payload.take (bits (wordAt f.payload 8) 47 32)).drop 16)) =
      some [(1, 0x40, bytesOfWord 0x1122_3344_5566_7788)] ∧
    (rxStamp (sched rxEntry_) 0 125100).toNat / 31250 = 4 ∧ (rxStamp (sched rxEntry_) 0 125100).toNat % 31250 = 100 ∧
    (rxStamp (sched rxEntry_) 0 125099).toNat % 31250 < rxEntry_.off ∧
    fallsAt rxEntry_.periodM1 rxEntry_.phase 4 = true ∧ fallsAt rxEntry_.periodM1 rxEntry_.phase 5 = false ∧ rxEntry_.accepted ≠ some 4 ∧
    framePart [(1, 0x40, bytesOfWord 0x1122_3344_5566_7788)] 1 ≠ [] := by decide +kernel

theorem witness_receive_window : rxEntry_.due = some 4 ∧ ({ rxEntry_ with accepted := some 4 } : SchedEntry).accepted = some 4 ∧
    rxEntry_.port < 4 := by decide +kernel

/-! ### Field I/O: witnesses and steps -/

/-- An event task on rising edges of channel 3. -/
def entryEdge : TaskEntry := { entry1 with id := 2, stall := 1, event := true, trigSrc := 1, trigIndex := 3, trigEdge := 1, outLen := 64 }

/-- Channel 3 as the function makes it, counter 3 in mode 1, and that task. -/
def atChannel (f : Channel → Channel) : State :=
  modChannel 3 f { inRun with
    tasks := [Task.fresh entry1, Task.fresh entryEdge], ctl := { inRun.ctl with armed := true }, mono := 5000
    field := { inRun.field with counters := inRun.field.counters.set 3 { Counter.reset with cfg := 1, preset := 9 } } }

theorem witness_input_edge : (channelAt (atChannel id) 3).level ≠ true ∧ (atChannel id).power.inReset = none ∧
    bits (channelAt (atChannel id) 3).cfg 17 2 = 0 ∧ bits (channelAt (atChannel (fun x => { x with cfg := 4 })) 3).cfg 17 2 ≠ 0 ∧
    (∃ x ∈ (atChannel id).tasks, x.e.event = true ∧ x.e.trigSrc = 1 ∧ x.e.trigIndex = 3 ∧ x.e.trigEdge.testBit (if true then 0 else 1) = true) ∧
    counterMode (atChannel id) 3 = 1 ∧ (counterAt (atChannel id) 3).value ≠ BitVec.allOnes 32 ∧
    (channelAt (atChannel (fun x => { x with level := true })) 3).level ≠ (channelAt (atChannel (fun x => { x with level := true })) 3).filt := by
  refine ⟨?_, ?_, ?_, ?_, ⟨Task.fresh entryEdge, ?_⟩, ?_, ?_, ?_⟩ <;> decide +kernel

theorem witness_field_registers : (1 : Word).getLsbD 0 = true ∧ 1 ≤ bits (counterAt (atChannel id) 3).cfg 2 0 ∧
    bits (counterAt (atChannel id) 3).cfg 2 0 ≤ 5 ∧ counterConflict (atChannel id).field 3 = false ∧
    bits (counterAt (atChannel id) 0).cfg 2 0 ∈ [0, 6, 7] := by decide +kernel

/-- Field instants are due: Tin and Tout at 125,000 ns, samples to Market 0, output block from Market 0. -/
def fieldDue_ : State :=
  { atChannel id with field := { (atChannel id).field with
      map := 1, tinDue := some 125000, toutDue := some 125000, gatherDue := some 124000, tcfg := 0xFA_0000_0000_0000 } }

theorem witness_field_times : fieldDue_.field.tinDue = some 125000 ∧ fieldDue_.field.gatherDue = some 124000 ∧
    bits fieldDue_.field.map 23 22 = (0 : MarketId).val ∧ fieldDue_.field.toutDue = some 125000 ∧ fieldDue_.field.gathered = none ∧
    bit fieldDue_.field.map (0 : MarketId).val = true ∧
    ({ fieldDue_ with field := { fieldDue_.field with gathered := some [8] } } : State).field.gathered = some [8] := by decide +kernel

theorem witness_switch : heldOpen (atChannel id) 3 = true ∧
    heldOpen { atChannel (fun x => { x with cfg := 1, imageOn := true }) with field := { (atChannel (fun x => { x with cfg := 1, imageOn := true })).field with groups := Vector.replicate 4 { Group.reset with lplus := .good, uv := false, cutSince := none } } } 3 = false := by
  decide +kernel

/-- A generator channel with a one-shot of 400 in its shadow registers. -/
def genChannel : Channel → Channel := fun x => { x with cfg := 0xC0001, sha := 2, shb := 400 }

/-- A running generator. -/
def genRun : Generator := { set := { mode := 2, cnt := 0, per := 0, wid := 400, dly := 10 }, h := 100, begun := 0, out := false, active := true }

theorem witness_generator : (channelAt (atChannel genChannel) 3).pend = none ∧ isOutput (channelAt (atChannel genChannel) 3) = true ∧
    outSrc (channelAt (atChannel genChannel) 3) = 3 ∧
    setValid (setOf (channelAt (atChannel genChannel) 3).sha (channelAt (atChannel genChannel) 3).shb) = true ∧
    (isOutput (channelAt (atChannel id) 3) && outSrc (channelAt (atChannel id) 3) == 3 &&
      setValid (setOf (channelAt (atChannel id) 3).sha (channelAt (atChannel id) 3).shb)) = false ∧
    (channelAt (atChannel (fun x => { x with pend := some { seq := 1, set := genRun.set, image := false, at_ := 0 } })) 3).pend ≠ none ∧
    (channelAt (atChannel (fun x => { x with gen := genRun })) 3).gen.active = true := by decide +kernel

/-- Switches wait for the next slot, and reflex entry 5 pulses. -/
def staggering : State :=
  { atChannel id with field := { (atChannel id).field with
      deferred := [(3, true)], deferAt := 6000
      reflexes := (atChannel id).field.reflexes.set 5 { Reflex.reset with pulse := some 4000, term := false } } }

theorem witness_stagger : staggering.field.deferred ≠ [] ∧ (staggering.field.reflexes[(5 : Fin 32)]).pulse = some 4000 ∧
    (staggering.field.reflexes[(5 : Fin 32)]).term = reflexTerm staggering.field staggering.field.reflexes[(5 : Fin 32)] := by decide +kernel

/-- An output that is on, one that has tripped with RETRY. -/
theorem witness_trip : isOutput (channelAt (atChannel (fun x => { x with cfg := 1, on := true })) 3) = true ∧
    (channelAt (atChannel (fun x => { x with cfg := 1, on := true })) 3).on = true ∧
    (channelAt (atChannel (fun x => { x with cfg := 0x800_0001, tripAt := some 7 })) 3).tripAt = some 7 ∧
    bit (channelAt (atChannel (fun x => { x with cfg := 0x800_0001, tripAt := some 7 })) 3).cfg 27 = true := by decide +kernel

/-- Group 0 as the function makes it, with channel 3 an output. -/
def atGroup (f : Group → Group) : State := modGroup 0 f (atChannel (fun x => { x with cfg := 1, on := true }))

theorem witness_groups : (groupAt (atGroup id) 0).uv = true ∧ (groupAt (atGroup id) 0).sagRun = false ∧
    (groupAt (atGroup id) 0).cutSince = some 0 ∧ (atGroup id).ctl.armed = true ∧ groupHasOutput (atGroup id) 0 = true ∧
    (groupAt (atGroup id) 0).fault = false ∧ (4 : Word).getLsbD 2 = true ∧
    (groupAt (atGroup (fun g => { g with fault := true })) 0).fault = true ∧
    (groupAt (atGroup (fun g => { g with fault := true, uv := false })) 0).uv = false := by decide +kernel

/-- Analog input 2 with a configuration, sampled at T = 77. -/
def sampled (cfg : Word) : State := modAnalog 2 (fun a => { a with cfg := cfg, sampling := some 77 }) fieldDue_

theorem witness_analog : bits (analogAt (sampled 0x10) 2).cfg 5 4 = 1 ∧ bits (analogAt (sampled 0x30) 2).cfg 5 4 = 3 ∧
    (sampled 0x30).field.tinDue = some 125000 ∧ (analogAt (sampled 0) 2).sampling = some 77 ∧ bits (analogAt (sampled 1) 2).cfg 2 0 ≠ 0 ∧
    bits (analogAt (sampled 0) 2).cfg 2 0 = 0 ∧ bit (analogAt (sampled 0) 2).cfg 3 = false ∧ (analogAt (sampled 0) 2).mmvalid = false := by
  decide +kernel

theorem test_codes_are_clamped : (analogAt (after (exec (.analogConversionDone 2 65536) (sampled 1))) 2).last = 65535 ∧
    (analogAt (after (exec (.analogConversionDone 2 (-32769)) (sampled 0))) 2).last = 0x8000 := by decide +kernel

/-! ### Motion: witnesses and steps -/

/-- Engine 0 with one axis that reads its position from Market 0, due at boundary 4, in a cycle, or after seven overruns. -/
def moving_ (due : Option Nat) (cycle : Option MotionRun) : State :=
  putBytes (modEngine 0 (fun g => { g with axes := [Axis.standby], due := due, cycle := cycle, run := 7, eovr := 2 ^ 32 - 1 }) inRun)
    (motBase 0) (bytesOfWords [1, 0x4_0040])

/-- A cycle at boundary 4, computed or not. -/
def cycle4 (computed : Bool) : MotionRun :=
  { tick := 4, started := 0, waiting := [], reads := [], cmds := [], discardCmds := false, initAll := false, computed := computed }

theorem witness_motion_cycle : (engineAt (moving_ (some 4) none) 0).due = some 4 ∧ (engineAt (moving_ (some 4) none) 0).axes ≠ [] ∧
    (moving_ (some 4) none).ctl.mode ≠ .held ∧ (moving_ (some 4) none).red.role = .solo ∧ badRecords (moving_ (some 4) none) 0 = [] ∧
    banksUsed (moving_ (some 4) none) 0 = [0] := by decide +kernel

theorem witness_motion_ends : (engineAt (moving_ none (some (cycle4 true))) 0).cycle = some (cycle4 true) ∧ (cycle4 true).computed = true ∧
    barrierOpen (moving_ none (some (cycle4 false))) 0 4 = true ∧ (cycle4 false).computed = false ∧
    (engineAt (moving_ none (some (cycle4 false))) 0).eovr < 2 ^ 32 := by decide +kernel

theorem witness_ecfg : 1 ≤ bits (0x82_0834_0001 : Word) 4 0 ∧
    bits (0x82_0834_0001 : Word) 4 0 ≤ 16 ∧ bits (0x82_0834_0001 : Word) 8 5 < bits (0x82_0834_0001 : Word) 4 0 ∧
    1 ≤ bits (0x82_0834_0001 : Word) 31 16 ∧ bits (0x82_0834_0001 : Word) 31 16 < bits (0x82_0834_0001 : Word) 4 0 * 3125 ∧
    bits (0x82_0834_0001 : Word) 35 32 ≤ 8 := by decide +kernel

/-- An axis of the coder with a set-point. -/
def coded_ (p : Word) : Axis := { Axis.standby with setpt := p, jump := false, refresh := 0 }

theorem witness_codes : (codeSlot false 0 (coded_ 127)).1.code = 0 ∧ (codeSlot false 0 (coded_ 128)).1.code = 1 ∧
    (codeSlot false 0 (coded_ 32383)).1.code = 126 ∧ (codeSlot false 0 (coded_ 32384)).1.code = 0x81 ∧
    (codeSlot false 0 { coded_ 5 with jump := true }).1.code = 0x7F := by decide +kernel

/-! ### Recorder, calendar services and trends: witnesses and steps -/

/-- A captured record. -/
def record_ (n : Nat) : Record :=
  { ev := { code := 0xF001, sev := 0, seq := n, t := 0, p0 := 0, p1 := 0, p2 := 0, p3 := 0 }, restart := false, rnum := n, rtc := 0, opsec := 0,
    pwrcyc := 0, snaps := [], trig := 0, snapv := 0, at_ := 0 }

/-- Two records wait, the ring slot in use is not the first of its sector. -/
def recording : State :=
  { withDma inRun with recorder := { inRun.recorder with buffer := [record_ 7, record_ 8], next := 9, slots := 1 } }

theorem witness_recorder : recording.recorder.buffer = record_ 7 :: [record_ 8] ∧ flashIdle recording ∧ recording.power.inReset = none ∧
    recording.power.loss = none ∧ recording.recorder.slots % 512 ≠ 0 ∧ recording.recorder.flushRing = none ∧ inRun.recorder.buffer = [] ∧
    atRing (atCmd 0x49 #v[0, 0, 0, 0, 0] recording) 0 0x49 (cmd 0x49 #v[0, 0, 0, 0, 0]) ∧ clean (cmd 0x49 #v[0, 0, 0, 0, 0]) [] := by
  simp only [flashIdle, atRing, clean]; decide +kernel

/-- REC_READ of at most 4,096 records from RNUM 8 on. -/
def recReadCmd : Cmd := cmd 0x48 #v[8, 0x4000, 4096, 0, 0]

theorem witness_rec_read : atRing (atCmd 0x48 recReadCmd.w recording) 0 0x48 recReadCmd ∧ clean recReadCmd [~~~0, ~~~0, 0x1FFF] ∧
    transfers (atCmd 0x48 recReadCmd.w recording) 6 ∧ (opnd recReadCmd 2).toNat % 128 = 0 ∧ 1 ≤ bits (opnd recReadCmd 3) 12 0 ∧
    bits (opnd recReadCmd 3) 12 0 ≤ 4096 ∧ (opnd recReadCmd 2).toNat + 524288 ≤ 2 ^ 64 ∧
    (opnd recReadCmd 1).toNat ≤ recording.recorder.next ∧ recording.recorder.next < (opnd (cmd 0x48 #v[10, 0, 0, 0, 0]) 1).toNat := by
  simp only [atRing, clean, transfers]; decide +kernel

/-- A request of task 1 at 16#100_1000 for a service, with words of its block. -/
def requesting (service : Nat) (ws : List Word) (s : State) : State :=
  modMarket 0 (fun k => { k with sysQueue := [{ service := BitVec.ofNat 12 service, arg := 0x100_1000, stall := 0, task := 1, ticket := 9 }] })
    (putBytes s (marketSys till0 0x100_1000) (bytesOfWords ws))

/-- That request. -/
def req (service : Nat) : SysReq := { service := BitVec.ofNat 12 service, arg := 0x100_1000, stall := 0, task := 1, ticket := 9 }

theorem witness_log_event : (requesting 2 [0x2_F000, 1, 2] inRun).ue = [] ∧
    marketRange (req 2) (req 2).arg.toNat 32 = some (marketSys till0 0x100_1000) ∧ marketOf (req 2).stall = 0 ∧
    reqFor (requesting 2 [0x2_F000, 1, 2] inRun) 0 2 = some (req 2) ∧
    0xF000 ≤ bits (readWord (requesting 2 [0x2_F000, 1, 2] inRun) (marketSys till0 0x100_1000)) 15 0 ∧
    bits (readWord (requesting 2 [0x2_F000, 1, 2] inRun) (marketSys till0 0x100_1000)) 17 16 ≠ 3 ∧
    inRun.recorder.buffer.length < 4096 ∧ inRun.recorder.lostSince = 0 ∧
    bits (readWord (requesting 2 [0xEFFF, 1, 2] inRun) (marketSys till0 0x100_1000)) 15 0 < 0xF000 := by decide +kernel

theorem witness_cal_convert : reqFor (requesting 6 [1, march2100] inRun) 0 6 = some (req 6) ∧
    bits (readWord (requesting 6 [1, march2100] inRun) (marketSys till0 0x100_1000)) 31 1 = 0 ∧
    readWord (after (exec (.calConvert 0) (requesting 6 [1, march2100] inRun))) (marketSys till0 0x100_1000 + 16) = 134595949363200 := by
  decide +kernel

/-- TREND_CONFIG of channel 3 for analog input 2 with period 2, MAXSEG 2, 16 points and TOL 8, its source word as given. -/
def trendCmd (w : Word) : Cmd := cmd 0x50 #v[w, 0x80_0080_0000, 8, 0, 0]

theorem witness_trend_config : atRing (atCmd 0x50 (trendCmd 0x2_0123).w inRun) 0 0x50 (trendCmd 0x2_0123) ∧
    clean (trendCmd 0x2_0123) [0x1F_FFFF_FFFF, 0x3_FFFF_FFFF_FFFF, ~~~0] ∧ bits (opnd (trendCmd 0x2_0123) 1) 6 5 ≠ 0 ∧
    2 ≤ bits (opnd (trendCmd 0x2_0123) 2) 34 22 ∧ bits (opnd (trendCmd 0x2_0123) 2) 34 22 ≤ 4096 ∧
    16 ≤ bits (opnd (trendCmd 0x2_0123) 2) 49 35 ∧ bits (opnd (trendCmd 0x2_0123) 2) 49 35 ≤ 16384 ∧
    bits (opnd (trendCmd 0x2_0123) 2) 21 0 % 8 = 0 ∧
    trendSource inRun (bits (opnd (trendCmd 0x2_0123) 1) 6 5) (bits (opnd (trendCmd 0x2_0123) 1) 16 7) = true ∧
    trendSource inRun (bits (opnd (trendCmd 0x223) 1) 6 5) (bits (opnd (trendCmd 0x223) 1) 16 7) = false ∧
    bits (opnd (trendCmd 3) 1) 6 5 = 0 ∧ (∀ t : Fin 32, inRun.trends[t].points ≤ 1024) := by simp only [atRing, clean]; decide +kernel

/-- Channel 3 samples analog input 2 at every boundary. -/
def trending : State :=
  modTrend 3 (fun t => { t with kind := 1, src := 2, points := 16, tol := 8, maxseg := 4096 })
    (modAnalog 2 (fun a => { a with valid := true, last := 100 }) { withDma inRun with clock := { inRun.clock with ticknum := 3 } })

theorem witness_trend_sample : (trendAt trending 3).kind ≠ 0 ∧ trending.clock.set = true ∧ trending.clock.firstBoundary = none ∧
    trending.clock.ticknum % ((trendAt trending 3).perM1 + 1) = 0 ∧ (trendAt trending 3).lastTick ≠ some trending.clock.ticknum ∧
    (trendAt (after (exec (.trendSample 3) trending)) 3).lastTick = some trending.clock.ticknum := by decide +kernel

/-- TREND_READ of at most 10 points of channel 3. -/
def trendReadCmd : Cmd := cmd 0x51 #v[3, 0x4000, 10, 0, 0]

theorem witness_trend_read : atRing (atCmd 0x51 trendReadCmd.w trending) 0 0x51 trendReadCmd ∧
    clean trendReadCmd [0x1F, ~~~0, 0xFFFF_FFFF, ~~~0] ∧ transfers (atCmd 0x51 trendReadCmd.w trending) 6 ∧
    (opnd trendReadCmd 2).toNat + 16 * bits (opnd trendReadCmd 3) 31 0 ≤ 2 ^ 64 := by simp only [atRing, clean, transfers]; decide +kernel

/-- A channel with TOL 8 after a list of samples. -/
def trended (l : List Int) : Trend :=
  l.foldl (fun t x => trendTake x t) { Trend.reset with kind := 1, points := 16, tol := 8, maxseg := 4096 }

theorem witness_trend_lines : segmentOrdered (trended [1000, 1010, 1020]) ∧ lineFits (trended [1000, 1010, 1020]) := by
  have e : (trended [1000, 1010, 1020]).anchor = some (0, 1000) := by decide +kernel
  have f : (trended [1000, 1010, 1020]).seg.getLast? = some (2, 1020) := by decide +kernel
  refine ⟨⟨?_, by decide +kernel⟩, ?_⟩
  · intro a h
    rw [e] at h; cases h; decide +kernel
  · simp only [lineFits, e, f]; decide +kernel

/-- The worked example of R466: TOL 8 and eight samples. -/
theorem test_trend_example : (trended [1000, 1010, 1020, 1030, 1100, 1170, 1240, 1240]).stored =
      [{ num := 0, gap := false, value := 1000 }, { num := 3, gap := false, value := 1030 }, { num := 6, gap := false, value := 1240 }] ∧
    (trended [1000, 1010, 1020, 1030, 1100, 1170, 1240, 1240]).seg = [(7, 1240)] := by decide +kernel

/-! ### Parameter store and security: witnesses and steps -/

/-- NVS_PUT of 8 bytes under a type. -/
def putCmd (rtype : Nat) : Cmd := cmd 0x60 #v[0x4000, field 0 rtype ||| field 16 5 ||| field 32 8, 0, 0, 0]

theorem witness_nvs_put : alone (atCmd 0x60 (putCmd 0x8000).w (withDma inRun)) ∧ transfers (atCmd 0x60 (putCmd 0x8000).w (withDma inRun)) 6 ∧
    atRing (atCmd 0x60 (putCmd 0x8000).w (withDma inRun)) 0 0x60 (putCmd 0x8000) ∧ clean (putCmd 0x8000) [~~~0, 0x7FFF_FFFF_FFFF] ∧
    bit (opnd (putCmd 0x8000) 2) 46 = false ∧ (opnd (putCmd 0x8000) 1).toNat + bits (opnd (putCmd 0x8000) 2) 45 32 ≤ 2 ^ 64 ∧
    recordLimit (atCmd 0x60 (putCmd 0x8000).w (withDma inRun)) true (putRecord (opnd (putCmd 0x8000) 2) [1, 2, 3, 4, 5, 6, 7, 8]) = 0 ∧
    recordLimit (atCmd 0x60 (putCmd 0x7FFF).w (withDma inRun)) true (putRecord (opnd (putCmd 0x7FFF) 2) [1, 2, 3, 4, 5, 6, 7, 8]) = 0x83 := by
  simp only [alone, transfers, atRing, clean]; decide +kernel

/-- A stored record of type 16#8001, RID 5. -/
def stored_ : NvsRecord :=
  { rtype := 0x8001, rid := 5, del := false, seq := 9, payload := [1, 2, 3], bank := 0, off := paramBase 0 + 64, committed := true, good := true }

/-- The store holds it. -/
def storing : State := { withDma inRun with nvs := { inRun.nvs with records := [stored_], nextSeq := 10, appendPos := 104 } }

/-- NVS_GET of it, or of another type, with a buffer of 3 bytes. -/
def getCmd (rtype : Nat) : Cmd := cmd 0x61 #v[0x4000, field 0 rtype ||| field 16 5 ||| field 32 3, 0, 0, 0]

theorem witness_nvs_get : atRing (atCmd 0x61 (getCmd 0x8001).w storing) 0 0x61 (getCmd 0x8001) ∧ clean (getCmd 0x8001) [~~~0, 0x3FFF_FFFF_FFFF] ∧
    bits (opnd (getCmd 0x7FFF) 2) 15 0 < 0x8000 ∧ 0x8000 ≤ bits (opnd (getCmd 0x8001) 2) 15 0 ∧ nvsFind storing 0x8001 5 = some stored_ ∧
    nvsFind storing 0x8002 5 = none ∧ stored_.payload.length ≤ bits (opnd (getCmd 0x8001) 2) 45 32 ∧
    (opnd (getCmd 0x8001) 1).toNat + stored_.payload.length ≤ 2 ^ 64 := by simp only [atRing, clean]; decide +kernel

theorem witness_nvs_compact : atRing (atCmd 0x62 #v[0, 0, 0, 0, 0] storing) 0 0x62 (cmd 0x62 #v[0, 0, 0, 0, 0]) ∧ storing.nvs.compact = none ∧
    atRing (atCmd 0x77 #v[0x4000, 0, 0, 0, 0] storing) 0 0x77 (cmd 0x77 #v[0x4000, 0, 0, 0, 0]) ∧
    (opnd (cmd 0x77 #v[0x4000, 0, 0, 0, 0]) 1).toNat % 4096 = 0 ∧ (opnd (cmd 0x77 #v[0x4000, 0, 0, 0, 0]) 1).toNat + 4096 ≤ 2 ^ 64 := by
  simp only [atRing]; decide +kernel

/-- The block of a task's record request: its descriptor, and a buffer 256 bytes on. -/
def nvsBlock (rtype : Nat) : List Word := [field 0 rtype ||| field 16 5 ||| field 32 8, 0x100_1100]

theorem witness_nvs_services : alone (requesting 4 (nvsBlock 0x8001) storing) ∧ (requesting 4 (nvsBlock 0x8001) storing).ue = [] ∧
    marketRange (req 4) (readWord (requesting 4 (nvsBlock 0x8001) storing) (marketSys till0 0x100_1000 + 8)).toNat
      (bits (readWord (requesting 4 (nvsBlock 0x8001) storing) (marketSys till0 0x100_1000)) 45 32) = some (marketSys till0 0x100_1100) ∧
    bits (readWord (requesting 4 (nvsBlock 0x8001) storing) (marketSys till0 0x100_1000)) 63 46 = 0 ∧
    reqFor (requesting 4 (nvsBlock 0x8001) storing) 0 4 = some (req 4) ∧ reqFor (requesting 5 (nvsBlock 0x8001) storing) 0 5 = some (req 5) ∧
    recordLimit (requesting 4 (nvsBlock 0x8001) storing) true (putRecord (field 0 0x8001 ||| field 16 5 ||| field 32 8) [0, 0, 0, 0, 0, 0, 0, 0]) = 0 ∧
    recordLimit (requesting 4 (nvsBlock 0x7FFF) storing) true (putRecord (field 0 0x7FFF ||| field 16 5 ||| field 32 8) [0, 0, 0, 0, 0, 0, 0, 0]) = 0x83 ∧
    marketSys till0 0x100_1000 + 32 ≤ marketSys till0 0x100_1100 := by simp only [alone]; decide +kernel

theorem witness_lock_key : bits (0x1DA6_0000 : Word) 31 16 = 0x1DA6 ∧ (0x1DA6_0000 : Word).getLsbD 1 = false ∧ bits (0x6AD1_0000 : Word) 31 16 = 0x6AD1 ∧
    ({ inRun with nvs := { inRun.nvs with lockFirst := true } } : State).nvs.lockFirst = true := by decide +kernel

/-- Sector 3 holds a byte that was programmed long ago. -/
def aging (sector : Nat) : State :=
  { putBytes inRun (flashBase + sector * sectorSize) [0] with
    nvs := { inRun.nvs with progDays := [(sector, 0, 0)], job := none, queue := [] }
    rtc := { inRun.rtc with tvalid := true, count := 32768 * 86400 * 3000, opsec := 86400 * 3000 } }

theorem witness_retention : (∀ x ∈ inRun.nvs.progDays, sectorOld inRun x = false) ∧ (aging 3).nvs.progDays = [(3, 0, 0)] ∧
    sectorOld (aging 3) (3, 0, 0) = true ∧ flashIdle (aging 3) ∧ (aging 3).ue = [] ∧ refreshable 3 = true ∧ sectorHolds (aging 3) 3 = true ∧
    paramSector 1614 = true ∧ sectorOld (aging 1614) (1614, 0, 0) = true ∧ (aging 1614).nvs.compact = none ∧
    recordLimit inRun false (opsecRecord inRun) = 0 := by simp only [flashIdle]; decide +kernel

/-- SEC_PROVISION of one key hash, and a device where another one is burnt. -/
def provision : List Byte := bytesOfWords [4] ++ List.replicate 64 7 ++ List.replicate 56 0

/-- Fuse 0 holds a hash of zeros. -/
def burnt : State := { withDma inRun with nvs := { inRun.nvs with pkh := #v[some (List.replicate 32 0), none] } }

theorem witness_provision : transfers (withDma inRun) 6 ∧ atRing (atCmd 0x75 #v[0x4000, 0, 0, 0, 0] (withDma inRun)) 0 0x75 (cmd 0x75 #v[0x4000, 0, 0, 0, 0]) ∧
    clean (cmd 0x75 #v[0x4000, 0, 0, 0, 0]) [~~~0] ∧ provision.length = 128 ∧ bits (wordAt provision 0) 63 4 = 0 ∧
    (∀ x ∈ provision.drop 72, x = 0) ∧ (withDma inRun).nvs.pkh = Vector.replicate 2 none ∧ bit (wordAt provision 0) 2 = true ∧
    burnt.nvs.pkh[0] = some (List.replicate 32 0) ∧ List.replicate 32 0 ≠ (provision.drop 8).take 32 := by
  simp only [transfers, atRing, clean]; decide +kernel

theorem witness_keyload : atRing (atCmd 0x76 #v[0x4000, 0, 0, 0, 0] (withDma inRun)) 0 0x76 (cmd 0x76 #v[0x4000, 0, 0, 0, 0]) ∧
    (bytesOfWord 1 ++ List.replicate 124 0).length = 132 ∧ bits (wordAt (bytesOfWord 1 ++ List.replicate 124 0) 0) 1 0 ≠ 0 ∧
    atRing (atCmd 0x74 #v[0x4000, 0x5000, 0, 0, 0] (withDma inRun)) 0 0x74 (cmd 0x74 #v[0x4000, 0x5000, 0, 0, 0]) ∧
    (List.replicate 32 (0 : Byte)).length = 32 := by simp only [atRing]; decide +kernel

theorem test_crc_check_values : crc32 [0x31, 0x32, 0x33, 0x34, 0x35, 0x36, 0x37, 0x38, 0x39] = 0xCBF43926 ∧
    crc64 [0x31, 0x32, 0x33, 0x34, 0x35, 0x36, 0x37, 0x38, 0x39] = 0x62EC59E3F1A4F00A := by decide +kernel

/-! ### Project, cams, forces and changes: witnesses and steps -/

/-- An image command of a length on the stopped device. -/
def loadCmd (op len : Nat) : Cmd := cmd op #v[0x4000, field 0 len, 0, 0, 0]

/-- Flash does nothing. -/
def quiet (s : State) : State := withDma { s with nvs := { s.nvs with job := none, queue := [] } }

/-- A package without segments is loaded. -/
def package_ : Package := { baseId := 5, newId := 6, segs := [], bytes := [] }

theorem witness_image_load : alone (atCmd 0x18 (loadCmd 0x18 256).w (quiet inStop)) ∧ transfers (atCmd 0x18 (loadCmd 0x18 256).w (quiet inStop)) 0 ∧
    clean (loadCmd 0x18 256) [~~~0, 0xFFFF_FFFF] ∧ (opnd (loadCmd 0x18 256) 1).toNat + bits (opnd (loadCmd 0x18 256) 2) 31 0 ≤ 2 ^ 64 ∧
    (quiet inStop).change = none ∧ flashIdle (quiet inStop) ∧ atRing (atCmd 0x18 (loadCmd 0x18 256).w (quiet inStop)) 0 0x18 (loadCmd 0x18 256) ∧
    (quiet inStop).ctl.mode = .stop ∧ 256 ≤ bits (opnd (loadCmd 0x18 256) 2) 31 0 ∧ bits (opnd (loadCmd 0x18 41943040) 2) 31 0 ≤ 41943040 ∧
    bits (opnd (loadCmd 0x18 255) 2) 31 0 < 256 ∧ (quiet inRun).ctl.mode = .run := by
  simp only [alone, transfers, clean, flashIdle, atRing]; decide +kernel

theorem witness_change_load : atRing (atCmd 0x19 (loadCmd 0x19 256).w (quiet inRun)) 0 0x19 (loadCmd 0x19 256) ∧
    (quiet inRun).ctl.mode ≠ .held ∧ (quiet inRun).package = none ∧
    chainFull (quiet inRun).nvs (bits (opnd (loadCmd 0x19 256) 2) 31 0) = false ∧ bits (opnd (loadCmd 0x19 256) 2) 31 0 ≤ 1536 * 1024 + 256 ∧
    ({ quiet inRun with package := some package_ } : State).package ≠ none ∧
    chainFull (quiet inRun).nvs (bits (opnd (loadCmd 0x19 0xFFFF_FFFF) 2) 31 0) = true := by simp only [atRing]; decide +kernel

/-- A cam table of one segment of length 100 that stays at 0. -/
def cam1 : List Byte := bytesOfWords ([1, 100] ++ List.replicate 14 0)

/-- CAM_LOAD into CAMID 7. -/
def camCmd (len : Nat) : Cmd := cmd 0x28 #v[0x4000, field 0 len ||| field 32 7, 0, 0, 0]

theorem witness_cam_load : alone (atCmd 0x28 (camCmd 128).w (quiet inRun)) ∧ (quiet inRun).ctl.mode ≠ .held ∧
    atRing (atCmd 0x28 (camCmd 128).w (quiet inRun)) 0 0x28 (camCmd 128) ∧ clean (camCmd 128) [~~~0, 0xFF_FFFF_FFFF] ∧
    bits (opnd (camCmd 128) 2) 39 32 = 7 ∧ bits (opnd (camCmd 128) 2) 31 0 = cam1.length ∧ camUsed (quiet inRun) 7 = false ∧ camForm cam1 = true ∧
    cam1.length = 64 + 64 * bits (wordAt cam1 0) 13 0 ∧ camBreak cam1 = none ∧ camPlace (quiet inRun) 7 (bits (wordAt cam1 0) 13 0) = some 4096 ∧
    bits (opnd (camCmd 0) 2) 31 0 = ([] : List Byte).length ∧ camForm (List.replicate 128 0) = false ∧
    camUsed (modEngine 0 (fun g => { g with axes := [{ Axis.standby with mode := .cam, camRef := { camid := 7, moff := 0, soff := 0 } }] }) (quiet inRun)) 7 = true := by
  simp only [alone, atRing, clean]; decide +kernel

/-- The layout map of Market 0 names an 8-bit input symbol 16#77 at bit 8 and an output symbol 16#78 at bit 64. -/
def mapped : State :=
  let i (k : Word) (o : Nat) (out : Bool) : Inst :=
    { ikey := k, tkey := 0, offset := o, length := 1, kind := 4, output := out, task := 1, nmemb := 0, midx := 0 }
  { quiet inRun with project := { (quiet inRun).project with
      layouts := (quiet inRun).project.layouts.set 0 { insts := [i 0x77 8 false, i 0x78 64 true], members := [] } } }

/-- FORCE_SET of a symbol to a value. -/
def forceCmd (key value : Word) : Cmd := cmd 0x20 #v[key, value, 0, 0, 0]

/-- The force of a symbol. -/
def force_ (key : Word) (o : Nat) (out : Bool) : Force :=
  { skey := key, value := 0xA5, bitoff := o, width := 1, output := out, market := 0, settime := 0 }

/-- FORCE_SET of a symbol to 16#A5 has been found good. -/
theorem witness_force_set : atRing (atCmd 0x20 (forceCmd 0x77 0xA5).w mapped) 0 0x20 (forceCmd 0x77 0xA5) ∧ clean (forceCmd 0x77 0xA5) [~~~0, ~~~0] ∧
    (forceCheck mapped 0x77 0xA5).toOption = some (force_ 0x77 8 false) ∧ (forceCheck mapped 0x78 0xA5).toOption = some (force_ 0x78 64 true) := by
  simp only [atRing, clean]; decide +kernel

theorem witness_force_refused : (match forceCheck mapped 0x79 0 with
    | .error st => st == 0x38
    | .ok _ => false) = true ∧ (match forceCheck mapped 0x77 0x100 with
    | .error st => st == 0x3C
    | .ok _ => false) = true := by decide +kernel

theorem witness_force_list : atRing (atCmd 0x21 #v[0x77, 0, 0, 0, 0] mapped) 0 0x21 (cmd 0x21 #v[0x77, 0, 0, 0, 0]) ∧
    clean (cmd 0x21 #v[0x77, 0, 0, 0, 0]) [~~~0] ∧ atRing (atCmd 0x22 #v[0x4000, 64, 0, 0, 0] mapped) 0 0x22 (cmd 0x22 #v[0x4000, 64, 0, 0, 0]) ∧
    transfers mapped 0 ∧ clean (cmd 0x22 #v[0x4000, 64, 0, 0, 0]) [~~~0, 0xFFFF_FFFF] ∧ mapped.forces.length ≤ 1024 ∧
    (opnd (cmd 0x22 #v[0x4000, 64, 0, 0, 0]) 1).toNat + 32768 ≤ 2 ^ 64 := by simp only [atRing, clean, transfers]; decide +kernel

/-- A package is loaded. -/
def packaged : State := { quiet inRun with package := some package_ }

/-- Its change is in progress, before or after the first switch. -/
def change_ (switched : Bool) : Change :=
  { ring := 0, step := .preparing 0 [8], wlenmax := Vector.replicate 4 20, tmo := Vector.replicate 4 100, retained := 0, fresh := 0,
    discarded := 0, switched := switched }

theorem witness_change_apply : atRing (atCmd 0x1A #v[0, 0, 0, 0, 0] packaged) 0 0x1A (cmd 0x1A #v[0, 0, 0, 0, 0]) ∧ anyFrozen packaged = false ∧
    packaged.package = some package_ ∧ packaged.change = none ∧ switchesFit packaged package_ = true ∧ flashIdle packaged ∧
    anyFrozen frozen_ = true ∧ frozen_.ctl.mode ≠ .held ∧ alone packaged := by simp only [atRing, flashIdle, alone]; decide +kernel

theorem witness_change_abort : atRing (atCmd 0x1B #v[0, 0, 0, 0, 0] packaged) 0 0x1B (cmd 0x1B #v[0, 0, 0, 0, 0]) ∧ switchBegun packaged = false ∧
    switchBegun { packaged with change := some (change_ true) } = true := by simp only [atRing]; decide +kernel

/-- XWRITE of 4,096 bytes to the top of Market 1. -/
def xwriteCmd : Cmd := cmd 0x1C #v[0x5000, 0x4_1000, 0x3F_F000, 0, 0]

theorem witness_xwrite : atRing (atCmd 0x1C xwriteCmd.w (quiet inRun)) 0 0x1C xwriteCmd ∧ clean xwriteCmd [~~~0, 0xF_FFFF, 0x3F_FFFF] ∧
    bits (opnd xwriteCmd 2) 17 0 = 4096 ∧ bits (opnd xwriteCmd 2) 19 18 = (1 : MarketId).val ∧ bits (opnd xwriteCmd 3) 21 0 = 0x3F_F000 ∧
    4096 ≤ xwriteMax (quiet inRun) 1 ∧ 0x3F_F000 + 4096 ≤ 2 ^ 22 ∧ windowFree (quiet inRun) 1 = true ∧
    (opnd xwriteCmd 1).toNat + 4096 ≤ 2 ^ 64 ∧ 2 ^ 22 < 0x3F_F008 + 4096 := by simp only [atRing, clean]; decide +kernel

/-- The worked examples of R178: 4,096 bytes take 820 ns, and WLENMAX = 20 allows 249,600 bytes. -/
theorem test_window_sizes : 500 + (5 * 4096 + 63) / 64 = 820 ∧ windowBytes 20 = 249600 ∧
    ((after (execXwrite 0 [] (atCmd 0x1C xwriteCmd.w (quiet inRun)))).markets[1].winReq.map Window.len) = some 820 := by decide +kernel

/-- The window of an XWRITE of 8 bytes in Market 1. -/
def window_ : Window := { use := .xwrite xwriteCmd 0x40 [1, 2, 3, 4, 5, 6, 7, 8], len := 501, at_ := 0 }

/-- It is requested, or open, in a Market without work. -/
def windowed (open_ : Bool) : State :=
  let q := busyCmd 0x1C xwriteCmd.w { quiet inRun with tasks := [] }
  modMarket 1 (fun k => { k with winReq := if open_ then none else some window_, winOpen := if open_ then some window_ else none }) q

theorem witness_windows : (windowed false).markets[(1 : MarketId)].winReq = some window_ ∧ (windowed false).markets[(1 : MarketId)].winOpen = none ∧
    windowMay (windowed false) 1 501 = true ∧ (windowed true).markets[(1 : MarketId)].winOpen = some window_ ∧
    0x40 + [1, 2, 3, 4, 5, 6, 7, 8].length ≤ 2 ^ 22 ∧ (windowed true).ue = [] ∧ alone (windowed true) ∧ knowsCmd (windowed true) xwriteCmd = true ∧
    (windowed false).change = none := by simp only [alone]; decide +kernel

theorem witness_window_without_speculation : noSpeculation (windowed true) := all_tills (by decide +kernel)

theorem witness_window_waits : windowMay (modStall 4 (fun k => { k with pend := [rel1] }) (windowed false)) 1 501 = false := by decide +kernel

/-- A change waits for its window in Market 0, and the ring for its CHANGE_APPLY. -/
def changing (switched : Bool) : State :=
  modMarket 0 (fun k => { k with winReq := some { window_ with use := .prepare } })
    (busyCmd 0x1A #v[0, 0, 0, 0, 0] { packaged with change := some (change_ switched) })

theorem witness_change_window : (changing false).markets[(0 : MarketId)].winReq = some { window_ with use := .prepare } ∧
    (changing false).change = some (change_ false) ∧ (changing true).change = some (change_ true) ∧
    (cmdRing (changing false) (change_ false).ring).busy = some (cmd 0x1A #v[0, 0, 0, 0, 0]) := by decide +kernel

/-! ### Firmware and recovery: witnesses and steps -/

/-- Slots A and B in two states, A the running one, B with a header that allows a live exchange or not. -/
def slots (a b : Nat) (live : Bool) : State :=
  let h : Wrapper := { wrapperOf fwImage with liveok := live, secver := 3 }
  { quiet inRun with nvs := { (quiet inRun).nvs with
      fwA := { state := a, hdr := some h }, fwB := { state := b, hdr := some h }, fwrun := 0, live := none } }

theorem witness_fw_load : (slots 4 0 false).nvs.fwrun ≤ 1 ∧ atRing (atCmd 0x68 (loadCmd 0x68 256).w (slots 4 0 false)) 0 0x68 (loadCmd 0x68 256) ∧
    transfers (atCmd 0x68 (loadCmd 0x68 256).w (slots 4 0 false)) 6 ∧ loadTarget (slots 4 0 false) = some 1 ∧ flashIdle (slots 4 0 false) ∧
    (slots 4 0 false).change = none ∧ (slots 4 0 false).nvs.live = none ∧ bits (opnd (loadCmd 0x68 8388608) 2) 31 0 ≤ 8388608 := by
  simp only [atRing, transfers, flashIdle]; decide +kernel

theorem witness_fw_activate : atRing (atCmd 0x69 #v[1, 0, 0, 0, 0] (slots 4 1 true)) 0 0x69 (cmd 0x69 #v[1, 0, 0, 0, 0]) ∧
    clean (cmd 0x69 #v[1, 0, 0, 0, 0]) [1] ∧ slotIn (slots 4 1 true) 1 = some 1 ∧ updateBusy (slots 4 1 true) = false ∧
    fwRefreshing (slots 4 1 true) 1 = false ∧ (slots 4 1 true).ctl.mode = .run ∧ (slots 4 1 true).power.loss = none ∧
    (slots 4 1 true).power.inReset = none ∧ (slots 4 1 true).power.wanted = none ∧ (fwHeader (slots 4 1 true).nvs 1).liveok = true ∧
    (fwHeader (slots 4 1 false).nvs 1).liveok = false ∧ (slots 4 1 true).red.pstate = .none := by simp only [atRing, clean]; decide +kernel

theorem witness_fw_accept : atRing (atCmd 0x6A #v[0, 0, 0, 0, 0] (slots 4 3 true)) 0 0x6A (cmd 0x6A #v[0, 0, 0, 0, 0]) ∧
    slotIn (slots 4 3 true) 3 = some 1 ∧ fwState (slots 4 3 true) 0 = 4 ∧ slotIn (slots 4 1 true) 3 = none := by simp only [atRing]; decide +kernel

/-- The header of an image of the running project, and of another one. -/
def projectImage (id : Word) : List Byte := bytesOfWords [0x0000_0102_9648_1A6E, 0, 0, id] ++ List.replicate 224 0

theorem witness_project_store : atRing (atCmd 0x70 (loadCmd 0x70 256).w (slots 4 0 false)) 0 0x70 (loadCmd 0x70 256) ∧
    (projectImage 5).length = bits (opnd (loadCmd 0x70 256) 2) 31 0 ∧ (slots 4 0 false).project.loaded = true ∧
    (wrapperOf (projectImage 5)).id = (slots 4 0 false).project.id ∧ (wrapperOf (projectImage 6)).id ≠ (slots 4 0 false).project.id := by
  simp only [atRing]; decide +kernel

/-- A live exchange that has done some classes. -/
def swapping (step tick : Nat) : State :=
  busyCmd 0x69 #v[1, 0, 0, 0, 0] { slots 4 3 true with
    nvs := { (slots 4 3 true).nvs with live := some { slot := 1, ring := 0, step := step, lastSwap := 68 } }
    clock := { (slots 4 3 true).clock with ticknum := tick } }

theorem witness_engine_swap : (swapping 0 68).nvs.live = some { slot := 1, ring := 0, step := 0, lastSwap := 68 } ∧
    (swapping 2 100).nvs.live = some { slot := 1, ring := 0, step := 2, lastSwap := 68 } ∧ 68 + 32 ≤ (swapping 2 100).clock.ticknum ∧
    (swapping 2 99).clock.ticknum < 68 + 32 ∧ (cmdRing (swapping 2 100) 0).busy = some (cmd 0x69 #v[1, 0, 0, 0, 0]) := by decide +kernel

/-- Recovery mode with a received part of the image, verified or not. -/
def recovering (image : List Byte) (verified : Bool) : State :=
  { State.reset with nvs := { State.reset.nvs with recovery := { Recovery.reset with active := true, image := image, verified := verified } } }

theorem witness_mailbox : (recovering [] false).nvs.recovery.active = true ∧ (recovering [] false).nvs.recovery.state ≠ 3 ∧
    8 ≤ (8 : BitVec 16).toNat ∧ (61440 : BitVec 16).toNat ≤ 61440 ∧ (0 : BitVec 32).toNat = (recovering [] false).nvs.recovery.image.length ∧
    (8 : BitVec 32).toNat ≠ (recovering [] false).nvs.recovery.image.length ∧ (recovering [] true).nvs.recovery.verified = true ∧
    plainReset (recovering [] true) ∧ State.reset.nvs.recovery.active = false := by simp only [plainReset]; decide +kernel

theorem witness_recovery_port : (recovering [] false).nvs.recovery.lastXid = none ∧ (recovering [] false).nvs.recovery.verified = false ∧
    ({ recovering [] false with nvs := { (recovering [] false).nvs with recovery := { (recovering [] false).nvs.recovery with
      lastXid := some (3, [1]) } } } : State).nvs.recovery.lastXid = some (3, [1]) ∧ [1, 2, 3, 4, 5, 6, 7, (8 : Byte)].length % 8 = 0 := by
  decide +kernel

/-! ### The Bolist link and the pair: witnesses and steps -/

/-- A powered lane that is up. -/
def laneUp : Lane := { granted := true, up := true, valid := 16, lastValid := 0, errs := 0 }

/-- A unit of a pair: role, pair state, both lanes up, RED.CTL.EN = 1, and the mandate with the active. -/
def unit (role : Role) (pstate : PState) : State :=
  modRed (fun r => { r with
    ctl := r.ctl ||| 1, role := role, pstate := pstate, mandate := role == .active, lanes := Vector.replicate 2 laneUp
    peer := { r.peer with heard := true, pstate := pstate.code, serial := 9 } }) inRun

/-- The standby of a working pair. -/
def standby : State := unit .standby .synced

/-- The active of a working pair. -/
def active : State := unit .active .synced

/-- The state with its lanes replaced. -/
def withLanes (l : Lane) (s : State) : State := modRed (fun r => { r with lanes := Vector.replicate 2 l }) s

theorem witness_link_reception : (Sys2Proof.Machine.laneAt State.reset 0).granted = false ∧
    (Sys2Proof.Machine.laneAt standby 0).granted = true ∧ standby.red.linkLost = false ∧
    (3 : BitVec 32) ∈ (modRed (fun r => { r with seenSeq := [3] }) standby).red.seenSeq ∧
    (Sys2Proof.Machine.laneAt (withLanes { laneUp with up := false, valid := 15 } standby) 0).valid = 15 ∧
    (Sys2Proof.Machine.laneAt (withLanes { laneUp with up := false, valid := 15 } standby) 0).up = false := by decide +kernel

theorem test_lane_comes_up : (Sys2Proof.Machine.laneAt (after (exec (.leave 0 3)
    (modRed (fun r => { r with seenSeq := [3] }) (withLanes { laneUp with up := false, valid := 15 } standby)))) 0).up = true := by
  decide +kernel

theorem test_discard_counts : (Sys2Proof.Machine.laneAt (after (exec (.linkMessageDiscard 1) standby)) 1).errs = 1 := by decide +kernel

/-- A mirror of the first release of the task of the tests. -/
def mirror_ (complete : Bool) : Mirror := { task := 1, relnum := 1, data := [], complete := complete, evt := [], journal := [] }

theorem witness_mirrored_releases : firstCopy standby 0 0 ∧ following standby = true ∧ taskOf standby 1 = some (Task.fresh entry1) ∧
    standby.red.mirrors = [] ∧ (List.replicate 16 (0 : Byte)).length = entry1.inLen ∧ entry1.market.val ∉ standby.red.switches ∧
    (modRed (fun r => { r with switches := [0] }) standby).red.switches = [entry1.market.val] ∧ standby.red.pstate ≠ .copying ∧
    (modRed (fun r => { r with mirrors := [mirror_ false] }) standby).red.mirrors = [mirror_ false] ∧
    (∀ t, (tillAt standby t).area = .empty) ∧ standby.red.motions = [] ∧
    (1 : Word).toNat = (engineAt standby 0).ecyc + 1 ∧ (2 : Word).toNat ≠ (engineAt standby 0).ecyc + 1 := by
  refine ⟨by simp only [firstCopy]; decide +kernel, by decide +kernel, by decide +kernel, by decide +kernel, by decide +kernel,
    by decide +kernel, by decide +kernel, by decide +kernel, by decide +kernel, all_tills (by decide +kernel), by decide +kernel,
    by decide +kernel, by decide +kernel⟩

theorem test_missing_piece_detaches : (after (exec (.inputPiece 0 0 1 1 8 false [1]) standby)).red.pstate = .detached := by
  decide +kernel

/-- The standby has the hash of the first release of task 1, with comparison on or off. -/
def hashed (off : Bool) : State := modRed (fun r => { r with ownHashes := [(1, 1, 0x55)], cmpOff := off }) standby

theorem witness_hashes : firstCopy (hashed false) 0 0 ∧ following (hashed false) = true ∧
    (1 : Word) = BitVec.ofNat 64 (1 : TaskId).toNat ∧ (hashed false).red.adjudication = none ∧ noSpeculation (hashed false) ∧
    (hashed false).stalls[(entryOf (hashed false) 1).stall].pend = [] ∧ hashIn (hashed false).red.ownHashes 1 (1 : Word).toNat = some 0x55 ∧
    hashIn (hashed false).red.peerHashes 1 (1 : Word).toNat = none ∧ (hashed true).red.cmpOff = true ∧
    (hashed false).red.cmpOff = false := by
  refine ⟨by simp only [firstCopy]; decide +kernel, by decide +kernel, by decide +kernel, by decide +kernel,
    all_tills (by decide +kernel), by decide +kernel, by decide +kernel, by decide +kernel, by decide +kernel, by decide +kernel⟩

theorem test_equal_hashes_settle : (after (exec (.hashMessage 0 0 1 1 0x55) (hashed false))).red.cmpok = 1 ∧
    (after (exec (.hashMessage 0 0 1 1 0x56) (hashed true))).red.cmpbad = 1 := by decide +kernel

/-- An adjudication of the first release of task 1 in a unit, with its own verdict. -/
def judging (role : Role) (own : Option Bool) : State :=
  let a : Adjudication := { stall := 0, task := 1, relnum := 1, own := 0x55, peer := 0x56, ownVerdict := own, peerVerdict := none }
  modRed (fun r => { r with adjudication := some a }) (unit role .synced)

theorem witness_verdicts : firstCopy (judging .active (some false)) 0 0 ∧ firstCopy (judging .standby (some true)) 0 0 ∧
    (judging .active none).red.adjudication.map (fun a => (a.task, a.relnum, a.ownVerdict)) = some (1, 1, none) ∧
    (judging .active (some false)).red.adjudication.map (fun a => a.ownVerdict) = some (some false) ∧
    (judging .active (some false)).stalls[(0 : StallId)].pend = [] ∧ paired (judging .active (some false)) ∧
    paired (judging .standby (some true)) ∧ (judging .active (some true)).red.role = .active ∧
    (judging .standby (some false)).red.role = .standby := by
  simp only [firstCopy, paired]; decide +kernel

theorem test_verdicts : (after (exec (.verdict 0 0 1 1 true) (judging .active (some false)))).red.handover.isSome = true ∧
    (after (exec (.verdict 0 0 1 1 false) (judging .standby (some true)))).red.pstate = .synced ∧
    (after (exec (.verdict 0 0 1 1 true) (judging .standby (some true)))).red.reason = 10 := by decide +kernel

/-- A CONTROL message that writes 8 bytes at 16#40 of Market memory 1. -/
def writePiece : List Byte := bytesOfWords [0xFFFF, BitVec.ofNat 64 (marketBase 1 + 0x40), 8] ++ [1, 2, 3, 4, 5, 6, 7, 8]

/-- The piece of a forwarded STOP, and a first piece of PROJECT_LOAD. -/
def controlPiece (w : Word) : List Byte := bytesOfWords [w, 0, 0, 0, 0, 0] ++ [7]

theorem witness_forwarded_commands : bits (wordAt writePiece 0) 15 0 = 0xFFFF ∧
    (wordAt writePiece 8).toNat = marketBase (1 : MarketId).val + 0x40 ∧ writePiece.length = 24 + (wordAt writePiece 16).toNat ∧
    0x40 + (wordAt writePiece 16).toNat ≤ 2 ^ 22 ∧ standby.ue = [] ∧ noSpeculation standby ∧
    wordAt (controlPiece 0x8000_0000_0000_000B) 0 = 0x8000_0000_0000_000B ∧ bits (wordAt (controlPiece 0x18) 0) 15 0 ≠ 0xFFFF ∧
    (wordAt (controlPiece 0x18) 0).getLsbD 63 = false ∧ (BitVec.ofNat 64 (marketBase 1)).getLsbD 63 = false ∧
    copiedAddr ((BitVec.ofNat 64 (marketBase 1)).toNat + 0) = true := by
  refine ⟨by decide +kernel, by decide +kernel, by decide +kernel, by decide +kernel, by decide +kernel,
    all_tills (by decide +kernel), by decide +kernel, by decide +kernel, by decide +kernel, by decide +kernel, by decide +kernel⟩

theorem test_copied_byte : readByte (after (exec (.stateCopy 0 0 (BitVec.ofNat 64 (marketBase 2)) [0xAB]) standby)) (marketBase 2) = 0xAB := by
  decide +kernel

/-- A standby that collects the mirrored epoch of boundary 8. -/
def collecting : State := modRed (fun r => { r with epochBuild := (8, [1, 2, 3]) }) standby

/-- An active with one retentive region. -/
def retains : State :=
  { unit .active .detached with project := { (unit .active .detached).project with regions := [{ market := 1, offset := 0x40, length := 32 }] } }

theorem witness_mirrored_epochs : firstCopy collecting 0 0 ∧ collecting.red.role = .standby ∧ paired collecting ∧
    collecting.red.epochBuild.1 = 8 ∧ retains.red.role = .active ∧ retains.red.pstate = .detached ∧ retains.red.epochPlan = [] ∧
    retains.project.regions ≠ [] ∧ (∀ r ∈ retains.project.regions, regionParts retains r ≠ []) ∧
    State.reset.red.pstate = .none := by simp only [firstCopy, paired]; decide +kernel

theorem test_epoch_kept : (after (exec (.epochcopy 0 0 8 true
    (bytesOfWords [1, 5, BitVec.ofNat 64 (crc32 [1, 2, 3]).toNat])) collecting)).red.epochHeld.map (fun e => (e.n, e.armed, e.project)) =
      some (8, true, 5) ∧
    (after (exec (.epochcopy 0 0 8 true (bytesOfWords [1, 5, 0])) collecting)).red.epochHeld = none := by decide +kernel

theorem witness_heartbeats : (Sys2Proof.Machine.laneAt active 0).granted = true ∧ active.red.switches = [] ∧
    (∀ k : Fin 2, (Sys2Proof.Machine.laneAt State.reset k.val).granted = false) ∧ firstCopy active 0 0 ∧
    active.red.mandate = true ∧ (0x20 : Word).getLsbD 5 = true ∧ active.red.epoch < (1 : BitVec 32).toNat ∧
    (0x10 : Word).getLsbD 5 = false ∧ active.red.forming = none ∧ active.red.peer.pstate = bits (0x10 : Word) 4 2 ∧
    active.red.role ≠ .standby ∧ (unit .standby .copying).red.mandate = false ∧ (unit .standby .copying).red.forming = none ∧
    bits (0x11 : Word) 1 0 = 1 ∧ bits (0x11 : Word) 4 2 = 4 ∧ (unit .standby .copying).red.pstate = .copying := by
  simp only [firstCopy]; decide +kernel

theorem test_heartbeat_yields : (after (exec (.heartbeat 0 0 0 0x20 1) active)).red.role = .candidate ∧
    (after (exec (.heartbeat 0 0 0 0x11 0) (unit .standby .copying))).red.pstate = .synced := by decide +kernel

/-- A standby whose lane 1 is down already, after a watch window without its peer. -/
def oneLane (role : Role) : State :=
  modRed (fun r => { r with lanes := #v[laneUp, { laneUp with up := false }], watched := true, peerSeen := false, pwatch := 1 })
    (unit role .synced)

/-- The same with no lane left. -/
def noLane : State := modRed (fun r => { r with lanes := Vector.replicate 2 { laneUp with up := false }, linkLost := true }) (oneLane .standby)

theorem witness_lanes : (Sys2Proof.Machine.laneAt active 0).up = true ∧ (Sys2Proof.Machine.laneAt active 1).up = true ∧
    (Sys2Proof.Machine.laneAt (oneLane .active) 0).up = true ∧ (Sys2Proof.Machine.laneAt (oneLane .active) 1).up = false ∧
    paired (oneLane .active) ∧ (oneLane .active).red.role = .active ∧ (oneLane .standby).red.role = .standby ∧
    (oneLane .standby).red.pstate = .synced ∧ (oneLane .standby).red.watched = true ∧ (oneLane .standby).red.peerSeen = false ∧
    (oneLane .standby).red.takeover = none ∧ bits noLane.red.pwatch 3 0 ≠ 0 ∧ lanesUp noLane = 0 ∧ noLane.red.linkLost = true ∧
    State.reset.red.role ≠ .standby := by simp only [paired]; decide +kernel

theorem test_silence : (after (exec (.laneDown 0) (oneLane .standby))).red.takeover.map (fun t => (t.cause, t.warm)) = some (1, false) := by
  decide +kernel

/-- A mirrored epoch of the loaded project. -/
def epoch_ (armed : Bool) : EpochCopy := { n := 8, armed := armed, project := 5, data := [] }

/-- A standby in DETACHED, with a mirrored epoch or without. -/
def detached_ (e : Option EpochCopy) : State := modRed (fun r => { r with epochHeld := e }) (unit .standby .detached)

theorem witness_decisions : firstCopy standby 0 0 ∧ standby.red.role = .standby ∧ standby.red.takeover = none ∧
    standby.red.pstate = .synced ∧ firstCopy (detached_ none) 0 0 ∧ (detached_ none).red.pstate = .detached ∧
    (detached_ none).red.epochHeld = none ∧ (detached_ (some (epoch_ true))).red.epochHeld = some (epoch_ true) ∧
    (epoch_ true).project = (detached_ (some (epoch_ true))).project.id ∧ (unit .standby .copying).red.pstate = .copying ∧
    (unit .standby .confirming).red.pstate = .confirming := by simp only [firstCopy]; decide +kernel

theorem test_planned_abdication : (after (exec (.abdicate 0 0 40 5) standby)).red.takeover =
    some { cause := 5, boundary := 40, warm := false } := by decide +kernel

/-- A standby that has decided to take over. -/
def taking (warm : Bool) (e : Option EpochCopy) : State :=
  modRed (fun r => { r with takeover := some { cause := 2, boundary := 8, warm := warm } }) (detached_ e)

theorem witness_takeovers : standby.red.takeover = none ∧
    (taking false none).red.takeover = some { cause := 2, boundary := 8, warm := false } ∧
    (taking true none).red.takeover = some { cause := 2, boundary := 8, warm := true } ∧
    usableEpoch (taking true (some (epoch_ true))) = some (epoch_ true) ∧ (epoch_ true).armed = true ∧
    usableEpoch (taking true none) = none := by decide +kernel

theorem test_takeover_raises_epoch : (after (exec .takeover (modRed (fun r => { r with epoch := 6 }) (taking false none)))).red.epoch = 7 ∧
    (after (exec .takeover (taking true (some (epoch_ true))))).ctl.reason = 5 := by decide +kernel

/-- An active whose Stall 0 retains a finished release and waits with the next one, after that many unsettled ones. -/
def unsettled (n : Nat) : State :=
  modTill till0 (fun _ => tillIn .retained 8 0 0) (modTill ⟨0, 1⟩ (fun _ => { tillIn .live 8 0 0 with latched := false })
    (modRed (fun r => { r with unsettledRun := [(1, n)] }) active))

theorem witness_settlement : mirroring (unsettled 15) = true ∧ (unsettled 15).red.cmpOff = false ∧ latchHeld (unsettled 15) 0 = true ∧
    (unsettled 15).red.adjudication = none ∧ retainedTill (unsettled 15) 0 = some till0 ∧ waitingRelease (unsettled 15) 0 = some rel1 ∧
    (unsettled 15).stalls[(0 : StallId)].pend = [] ∧ latchHeld active 0 = false ∧
    (modRed (fun r => { r with confirmFrom := some 5 }) (unit .active .confirming)).red.confirmFrom = some 5 ∧
    (unit .active .confirming).red.pstate = .confirming ∧ active.red.confirmFrom = none := by decide +kernel

theorem test_settlement_runs_out : (after (exec (.settleTimeout 0) (unsettled 14))).red.pstate = .synced ∧
    (after (exec (.settleTimeout 0) (unsettled 15))).red.pstate = .detached := by decide +kernel

/-- What a peer of another project, or of this one, tells. -/
def info (project : Word) (mandate : Bool) : PeerInfo :=
  { linkver := 1, enabled := true, prefer := false, project := project, locked := true, gmid := 0x77, clkdom := 0, serial := 9
    mandate := mandate, block := 0, compat := 0, mac := 0 }

/-- A unit locked to the grandmaster of its peer, before a formation. -/
def single (mandate : Bool) (role : Role) : State :=
  { modRed (fun r => { r with mandate := mandate }) (unit role .none) with
    clock := { (unit role .none).clock with state := 2, ctl := 0 }, sync := { (unit role .none).sync with master := some 0x77 } }

/-- The command PAIR_FORM. -/
def formCmd : Cmd := cmd 0x90 #v[1, 0, 0, 0, 0]

/-- That unit has begun it. -/
def formAt (s : State) : State := atCmd 0x90 #v[1, 0, 0, 0, 0] s

/-- What a unit knows when it checks a formation. -/
def asChecked (p : PeerInfo) (s : State) : State := modRed (fun r => { r with peer := peerKnown p r.peer, pstate := .checking }) s

theorem witness_pair_formation : atRing (formAt (single true .active)) 0 0x90 formCmd ∧ clean formCmd [1] ∧
    atRing (formAt active) 0 0x90 formCmd ∧ active.red.pstate ≠ .none ∧ (single true .active).red.pstate = .none ∧
    bit (single true .active).red.ctl 0 = true ∧ bit inRun.red.ctl 0 = false ∧
    (modRed (fun r => { r with peer := Peer.none }) (single true .active)).red.peer.heard = false ∧
    (single true .active).red.peer.heard = true ∧ formRefusal (asChecked (info 5 false) (formAt (single true .active))) = 0 ∧
    formRefusal (asChecked (info 6 false) (formAt (single true .active))) = 4 ∧ (single true .active).red.mandate = true ∧
    formRefusal (asChecked (info 5 true) (formAt (single false .candidate))) = 0 ∧ (single false .candidate).red.mandate = false ∧
    (info 5 true).mandate = true := by simp only [atRing, clean]; decide +kernel

theorem test_pair_forms : (after (exec (.pairForm 0 (info 5 false)) (formAt (single true .active)))).red.role = .active ∧
    (after (exec (.pairForm 0 (info 5 true)) (formAt (single false .candidate)))).red.role = .standby := by decide +kernel

/-- A formation that waits for its peer. -/
def forming (solo : Bool) : State :=
  busyCmd 0x90 #v[1, 0, 0, 0, 0] (modRed (fun r => { r with
    forming := some (0, 7, solo), pstate := .checking, peer := Peer.none }) (single false .candidate))

/-- An active that forms again. -/
def again : State := modRed (fun r => { r with autorsFrom := some 7, pstate := .detached }) (single true .active)

theorem witness_formation_timers : (forming true).red.forming = some (0, 7, true) ∧ (forming true).red.peer.heard = false ∧
    (cmdRing (forming true) 0).busy = some formCmd ∧ formCmd.ring = 0 ∧ (forming true).red.pstate = .checking ∧
    (forming false).red.forming = some (0, 7, false) ∧ active.red.forming = none ∧ again.red.autorsFrom = some 7 ∧
    again.red.pstate = .detached ∧ again.red.role = .active ∧
    formRefusal (modRed (fun r => { r with peer := peerKnown (info 6 false) r.peer }) again) ≠ 0 ∧
    formRefusal (modRed (fun r => { r with peer := peerKnown (info 5 false) r.peer }) again) = 0 ∧ again.red.mandate = true ∧
    active.red.autorsFrom = none := by decide +kernel

theorem test_solo_formation : (after (exec .pairFormTimeout (forming true))).red.mandate = true ∧
    (after (exec .pairFormTimeout (forming false))).red.reason = 9 := by decide +kernel

theorem witness_pair_commands : atRing (atCmd 0x91 #v[2, 0, 0, 0, 0] active) 0 0x91 (cmd 0x91 #v[2, 0, 0, 0, 0]) ∧
    clean (cmd 0x91 #v[2, 0, 0, 0, 0]) [0xFF] ∧ bits (opnd (cmd 0x91 #v[1, 0, 0, 0, 0]) 1) 7 0 < 2 ∧
    2 ≤ bits (opnd (cmd 0x91 #v[2, 0, 0, 0, 0]) 1) 7 0 ∧ active.red.handover = none ∧ (unit .active .copying).red.pstate ≠ .synced ∧
    atRing (atCmd 0x92 #v[0, 0, 0, 0, 0] standby) 0 0x92 (cmd 0x92 #v[0, 0, 0, 0, 0]) ∧ standby.ctl.waits = [] ∧
    firstCopy active 0 0 ∧ active.red.pstate ≠ .none ∧ active.red.forming = none ∧ active.red.takeover = none ∧ standby.red.takeover = none ∧
    atRing (atCmd 0x93 #v[0x1000, 0, 0, 0, 0] (withDma active)) 0 0x93 (cmd 0x93 #v[0x1000, 0, 0, 0, 0]) ∧
    transfers (atCmd 0x93 #v[0x1000, 0, 0, 0, 0] (withDma active)) 6 ∧ clean (cmd 0x93 #v[0x1000, 0, 0, 0, 0]) [~~~0] ∧
    (opnd (cmd 0x93 #v[0x1000, 0, 0, 0, 0]) 1).toNat % 64 = 0 := by simp only [atRing, clean, firstCopy, transfers]; decide +kernel

theorem test_pair_switch : (after (exec (.pairSwitch 0) (atCmd 0x91 #v[2, 0, 0, 0, 0] active))).red.handover = some (2, true) := by
  decide +kernel

theorem witness_ring_configuration : (0x108 : BitVec 12).toNat = 0x100 + 8 * (1 : Fin 16).val ∧
    (0x188 : BitVec 12).toNat = 0x180 + 8 * (1 : Fin 16).val ∧ bit (cmdRing State.reset 1).cfg 0 = false ∧
    4 ≤ bits (0x9 : Word) 4 1 ∧ bit (0x9 : Word) 0 = true ∧
    bit (cmdRing (modRing 1 (fun r => { r with cfg := 9 }) State.reset) 1).cfg 0 = true ∧ bit (0x8 : Word) 0 = false ∧
    (0x308 : BitVec 12).toNat = 0x300 + 8 * (1 : Fin 16).val ∧ bit (outRing State.reset 1).cfg 0 = false ∧
    (0x38 : BitVec 12).toNat = 0x38 ∧ bit State.reset.host.ev.cfg 0 = false ∧ writeRingReg (0x4 : BitVec 12).toNat 0 State.reset = none := by
  decide +kernel

theorem test_ring_enabled : bit (cmdRing (after (exec (.ringConfigWrite 0x188 0x9) State.reset)) 1).cfg 0 = true := by decide +kernel

theorem witness_control_transfer_traps : issues (spec 8 0x102 0) till0 ∧ isSpec (spec 8 0x102 0) till0 = true ∧
    (reg (spec 8 0x102 0) till0 1 + BitVec.ofInt 64 (0 : BitVec 12).toInt).toNat % 4 ≠ 0 ∧
    endAddress < (reg (spec 8 0x10_0004 0) till0 1 + BitVec.ofInt 64 (0 : BitVec 12).toInt).toNat ∧
    (pcOf (spec 0xFFFF8 0 0) till0 + BitVec.ofInt 64 (4 * (2 : BitVec 20).toInt)).toNat % 4 = 0 ∧
    endAddress ≤ (pcOf (spec 0xFFFF8 0 0) till0 + BitVec.ofInt 64 (4 * (2 : BitVec 20).toInt)).toNat ∧
    issues (spec 0xFFFFC 6 7) till0 ∧ (tillAt (spec 0xFFFFC 6 7) till0).pc = 0xFFFFC := by simp only [issues]; decide +kernel

theorem test_last_word_traps : (tillAt (after (exec (.add till0 3 1 2) (spec 0xFFFFC 6 7))) till0).trap.map (fun x => (x.cause, x.addr)) =
    some (2, 0x10_0000) ∧ (tillAt (after (exec (.jmp till0 0 2) (spec 0xFFFF8 6 7))) till0).trap.map (fun x => (x.cause, x.addr)) =
    some (2, 0x10_0000) := by decide +kernel

/-! ### The identity page -/

/-- The word that carries the CRC-32 of an erased identity page. -/
def idCrc : Word := field 0 (crc32 (flashBytes inRun 0 0xFF8)).toNat

/-- An identity page of erased bytes with its CRC. -/
def identified : State := putBytes inRun (flashBase + 0xFF8) (bytesOfWord idCrc)

theorem witness_identity_page : idPageGood identified = true := by
  have data : flashBytes identified 0 0xFF8 = flashBytes inRun 0 0xFF8 :=
    readBytes_putBytes_outside inRun (bytesOfWord idCrc) (.inl (by decide))
  have read : readBytes identified (flashBase + 0xFF8) 8 = bytesOfWord idCrc :=
    readBytes_putBytes inRun (flashBase + 0xFF8) (bytesOfWord idCrc)
  have word : readWord identified (flashBase + 0xFF8) = idCrc := by
    rw [readWord, read]; simpa using wordOfBytes_bytesOfWord idCrc []
  unfold idPageGood
  rw [word, data, idCrc, bits_field_zero 31 _ (crc32 (flashBytes inRun 0 0xFF8)).isLt (by omega)]
  exact beq_self_eq_true _

end Sys2Proof.Tests
end

/-!
The atomic operations LR.D, SC.D and TAS (R89, R148, R149): each is one operation with an effect entry that writes rd and falls through.
The store of a successful SC.D or a TAS may squash the speculative releases of other Tills; that it keeps the PC of the Till that stores is what lets the instruction retire at PC + 4.
-/

namespace Sys2Proof.Atomics

open Sys2Proof.Machine Sys2Proof.Safety

/-! ### What keeps the PC of a Till

A store reaches other Tills through notices and squashes; the Till that stores keeps its PC through all of them. -/

section
variable (t : TillId) (s : State)

theorem tillAt_congr {s q : State} (h : q.stalls = s.stalls) : tillAt q t = tillAt s t := by
  simp only [tillAt, h]

/-- A change of any Till that leaves the PC field alone keeps every PC. -/
theorem modTill_pc (u : TillId) (f : Till → Till) (h : ∀ k, (f k).pc = k.pc) :
    (tillAt (modTill u f s) t).pc = (tillAt s t).pc := by
  by_cases e : t = u
  · subst e; rw [tillAt_modTill, h]
  · rw [tillAt_modTill_other s u t f e]

/-- A change of a Stall that leaves its Tills alone keeps every Till. -/
theorem tillAt_modStall (k : StallId) (f : Stall → Stall) (h : ∀ x, (f x).tills = x.tills) :
    tillAt (modStall k f s) t = tillAt s t := by
  unfold tillAt modStall
  by_cases e : (k : Nat) = t.stall
  · have e' : k = t.stall := Fin.ext e
    subst e'; simp [h]
  · simp [e]

theorem tillAt_memUe (a : Nat) : tillAt (memUe a s) t = tillAt s t := by
  obtain ⟨_, _, _, _, h⟩ := memUe_frame a s
  exact tillAt_congr t (by rw [h])

theorem tillAt_storeMem (a : Nat) (bs : List Byte) : tillAt (storeMem a bs s) t = tillAt s t := by
  obtain ⟨_, _, _, _, _, _, h⟩ := storeMem_frame a bs s
  exact tillAt_congr t (by rw [h])

theorem noticeWrite_pc (who : Option TillId) (a n : Nat) :
    (tillAt (noticeWrite who a n s) t).pc = (tillAt s t).pc := by
  refine forEach_keeps (fun q => (tillAt q t).pc = (tillAt s t).pc) (fun u q hq => ?_) _ rfl
  split
  · exact hq
  · refine (modTill_pc t q u _ ?_).trans hq
    exact fun _ => rfl

theorem appendJ_pc (u : TillId) (e : JEntry) : (tillAt (appendJ u e s) t).pc = (tillAt s t).pc := by
  unfold appendJ
  split <;> exact modTill_pc t s u _ (fun _ => rfl)

theorem journalEffect_pc (u : TillId) (v : Word) : (tillAt (journalEffect u v s) t).pc = (tillAt s t).pc :=
  appendJ_pc t s u _

theorem loseResv_pc (u : TillId) (ea : Nat) : (tillAt (loseResv u ea s) t).pc = (tillAt s t).pc :=
  modTill_pc t s u _ (fun _ => rfl)

/-! The undo and the squash of another Till's speculative release (R91, R94) -/

theorem undoOne_pc (u : TillId) (e : JEntry) : (tillAt (undoOne u e s) t).pc = (tillAt s t).pc := by
  unfold undoOne
  dsimp only
  split <;> exact noticeWrite_pc t s (some u) _ 8

theorem meetDamage_pc (u : TillId) (l : List Nat) : (tillAt (meetDamage u l s) t).pc = (tillAt s t).pc := by
  unfold meetDamage
  split
  · rfl
  · exact forEach_keeps (fun q => (tillAt q t).pc = (tillAt s t).pc) (fun j q hq => by rw [tillAt_memUe, hq]) l
      (modTill_pc t s u _ (fun _ => rfl))

theorem undoAt_pc (u : TillId) (x : Nat × JEntry) : (tillAt (undoAt u x s) t).pc = (tillAt s t).pc := by
  unfold undoAt
  dsimp only
  split
  · exact undoOne_pc t s u _
  · split
    · exact meetDamage_pc t s u _
    · rw [undoOne_pc]; exact meetDamage_pc t s u _

theorem undoWhere_pc (u : TillId) (p : JEntry → Bool) : (tillAt (undoWhere u p s) t).pc = (tillAt s t).pc :=
  forEach_keeps (fun q => (tillAt q t).pc = (tillAt s t).pc) (fun x q hq => (undoAt_pc t q u x).trans hq) _ rfl

/-- Squashing another Till's release keeps the PC. -/
theorem squash_pc_other (u : TillId) (h : t ≠ u) : (tillAt (squash u s) t).pc = (tillAt s t).pc := by
  unfold squash
  dsimp only
  split
  · rfl
  · split
    all_goals
      rw [tillAt_modTill_other _ u t _ h, ← undoWhere_pc t s u (fun _ => true),
        ← tillAt_modStall t (undoWhere u (fun _ => true) s) u.stall
          (fun x => { x with spsq := (x.spsq + 1) % 2 ^ 64 }) (fun _ => rfl)]
      rfl

theorem squashWhere_pc (p : State → TillId → Bool) (h : ∀ q, p q t = false) :
    (tillAt (squashWhere p s) t).pc = (tillAt s t).pc := by
  refine forEach_keeps (fun q => (tillAt q t).pc = (tillAt s t).pc) (fun u q hq => ?_) _ rfl
  split
  case isFalse => exact hq
  case isTrue hc =>
    have hne : t ≠ u := by
      rintro rfl
      simp [h] at hc
    exact (squash_pc_other t q u hne).trans hq

/-- A Till's own write squashes other Tills alone, so its PC stays. -/
theorem marketWrite_pc (a : Nat) (bs : List Byte) :
    (tillAt (marketWrite (some t) a bs s) t).pc = (tillAt s t).pc := by
  unfold marketWrite
  rw [tillAt_storeMem, noticeWrite_pc, squashWhere_pc _ _ _ (fun q => by simp)]

end

/-! ### Stores to Market memory -/

section
variable {t : TillId} {s q : State} {ea n : Nat} {v x : Word}

theorem storeInst_pc (h : storeInst t ea n v s = .done x q) : (tillAt q t).pc = (tillAt s t).pc := by
  unfold storeInst at h
  split at h
  · cases h; exact modTill_pc t s t _ (fun _ => rfl)
  · dsimp only at h
    split at h
    · cases h
    · split at h
      · cases h
      · cases h
        rw [loseResv_pc, marketWrite_pc]
        split
        · rfl
        · exact appendJ_pc t s t _

theorem storeGlobal_pc (h : storeGlobal t ea n v s = .done x q) : (tillAt q t).pc = (tillAt s t).pc := by
  unfold storeGlobal at h
  split at h
  · cases h
  · split at h
    · cases h; exact modTill_pc t s t _ (fun _ => rfl)
    · dsimp only at h
      split at h
      · cases h
      · cases h
        rw [loseResv_pc, marketWrite_pc]

/-- An access inside a Stall's own Market window lies in Market memory (R29). -/
theorem placeOf_market (e : TaskEntry) {a : Word} (h : accessIn a n 0x100_0000 0x140_0000) :
    ∃ off inst, placeOf e a.toNat n = .market off inst := by
  obtain ⟨-, lo, hi⟩ := h
  unfold placeOf
  rw [if_neg (by omega), if_pos ⟨lo, hi⟩]
  exact ⟨_, _, rfl⟩

/-- A store of a Till to Market memory keeps the Till's PC. -/
theorem storeAt_market_pc {a : Word} (ha : accessIn a n 0x100_0000 0x140_0000)
    (h : storeAt t a n v s = .done x q) : (tillAt q t).pc = (tillAt s t).pc := by
  obtain ⟨off, inst, hp⟩ := placeOf_market (tillEntry s t) ha
  simp only [storeAt, hp] at h
  split at h
  · cases h
  · split at h
    · exact storeInst_pc h
    · exact storeGlobal_pc h

end

/-! ### Instructions that write rd and fall through (R119, R120) -/

section
variable {t : TillId} {s q : State} {rd : RegNo} {v : Word}

theorem modTill_congr {f g : Till → Till} (h : f (tillAt s t) = g (tillAt s t)) : modTill t f s = modTill t g s := by
  simp only [tillAt] at h
  simp only [modTill, modStall, Fin.getElem_fin] at h ⊢
  rw [h]

theorem setWidth_pcNext : (pcNext s t).setWidth 20 = (tillAt s t).pc + 4 := by
  rw [pcNext, pcWord, BitVec.setWidth_add _ _ (by decide), BitVec.setWidth_setWidth_of_le _ (by decide), BitVec.setWidth_eq]
  rfl

/-- Writing rd and retiring at PC + 4 is the one change that the statements name. -/
theorem retire_setReg : retire t (pcNext s t) (setReg t rd v s) = wrote t rd v s := by
  unfold retire setReg wrote
  rw [modTill_modTill, setWidth_pcNext]
  exact modTill_congr rfl

theorem fallsOk_congr (h : (tillAt q t).pc = (tillAt s t).pc) (hf : fallsOk s t) : fallsOk q t := by
  unfold fallsOk
  rw [h]; exact hf

variable {word : BitVec 32} {legal : Bool} {own : State → Option (Nat × Word)} {body : State → Acc}

theorem runInstr_writeRd (hi : issues s t) (hf : fallsOk s t) (hl : legal = true) (ho : own s = none)
    (hb : body s = writeRd t rd v q) (hpc : (tillAt q t).pc = (tillAt s t).pc) :
    runInstr t word legal own true false body s = wrote t rd v q := by
  rw [runInstr_retires hi hl ho (fun _ => hf.2) hb (pcNext_targetOk (fallsOk_congr hpc hf)), retire_setReg]

/-! ### Operations with an effect entry (R89, R102) -/

variable {c : Nat} {act : State → Acc}

/-- Outside speculation and replay the operation acts, and its result is journalled and written to rd. -/
theorem runInstr_effectOp_acts (hi : issues s t) (hf : fallsOk s t) (hl : legal = true) (ho : own s = none)
    (hp : plain s t) (ha : act s = .done v q) (hpc : (tillAt q t).pc = (tillAt s t).pc) :
    runInstr t word legal own true false (fun x => (effectOp t c act x).bind (fun v y => writeRd t rd v y)) s =
      wrote t rd v (journalEffect t v q) := by
  obtain ⟨hspec, hreplay⟩ := hp
  refine runInstr_writeRd hi hf hl ho ?_ ((journalEffect_pc t q t v).trans hpc)
  simp [effectOp, hspec, hreplay, ha, Acc.bind]

/-- In speculation the operation stops the release. -/
theorem runInstr_effectOp_stops (hi : issues s t) (hf : fallsOk s t) (hl : legal = true) (ho : own s = none)
    (hs : isSpec s t = true) :
    runInstr t word legal own true false (fun x => (effectOp t c act x).bind (fun v y => writeRd t rd v y)) s =
      stalled t c s :=
  runInstr_stops hi hl ho (fun _ => hf.2) (by simp [effectOp, hs, Acc.bind])

end

/-! ### LR.D, SC.D and TAS (R148, R149): `exec` of each is by definition `runInstr` of an `effectOp` -/

section
variable {t : TillId} {rd rs1 rs2 : RegNo} {s : State}

theorem atomTrap_market {n : Nat} (h : accessIn (reg s t rs1) n 0x100_0000 0x140_0000) : atomTrap t rs1 n s = none := by
  obtain ⟨off, inst, hp⟩ := placeOf_market (tillEntry s t) h
  simp [atomTrap, dataTrap, h.1, hp, Place.isMarket]

theorem readRaw_undamaged {a : Word} {n : Nat} (hfence : fenceHolds s t 1 = false)
    (hu : undamaged s (marketSys t a.toNat) n) :
    readRaw t a n s = .done (valueAt (readBytes s (marketSys t a.toNat) n)) s := by
  unfold undamaged at hu
  simp [readRaw, hfence, hu]

theorem valueAt_word (a : Nat) : valueAt (readBytes s a 8) = readWord s a := by
  rw [valueAt, readWord, wordOfBytes, List.take_of_length_le (by simp)]

theorem valueAt_byte (a : Nat) : valueAt (readBytes s a 1) = BitVec.ofNat 64 (readByte s a).toNat := rfl

theorem exec_lrD_reserves (hi : issues s t) (hf : fallsOk s t) (hfence : fenceHolds s t 1 = false)
    (ha : accessIn (reg s t rs1) 8 0x100_0000 0x140_0000) (hp : plain s t)
    (hu : undamaged s (marketSys t (reg s t rs1).toNat) 8) :
    exec (.lrD t rd rs1 0) s = next (wrote t rd (readWord s (marketSys t (reg s t rs1).toNat))
      (journalEffect t (readWord s (marketSys t (reg s t rs1).toNat))
        (modTill t (fun k => { k with resv := some (reg s t rs1).toNat, resvAt := s.mono }) s))) := by
  refine congrArg next (runInstr_effectOp_acts hi hf rfl (atomTrap_market ha) hp ?_ (modTill_pc t s t _ (fun _ => rfl)))
  simp only [readRaw_undamaged hfence hu, valueAt_word, Acc.bind]

/-- Without the reservation SC.D makes no store and answers 0. -/
theorem exec_scD_fails (hi : issues s t) (hf : fallsOk s t) (hfence : fenceHolds s t 1 = false)
    (ha : accessIn (reg s t rs1) 8 0x100_0000 0x140_0000) (hp : plain s t)
    (hr : (tillAt s t).resv ≠ some (reg s t rs1).toNat) :
    exec (.scD t rd rs1 rs2) s = next (wrote t rd 0
      (journalEffect t 0 (modTill t (fun k => { k with resv := none }) s))) := by
  refine congrArg next (runInstr_effectOp_acts hi hf rfl (atomTrap_market ha) hp ?_ (modTill_pc t s t _ (fun _ => rfl)))
  simp [hfence, hr, Acc.bind, truth]

/-- With the reservation SC.D makes its store and answers 1. -/
theorem exec_scD_stores {v : Word} {q : State} (hi : issues s t) (hf : fallsOk s t) (hfence : fenceHolds s t 1 = false)
    (ha : accessIn (reg s t rs1) 8 0x100_0000 0x140_0000) (hp : plain s t)
    (hr : (tillAt s t).resv = some (reg s t rs1).toNat)
    (hst : storeAt t (reg s t rs1) 8 (reg s t rs2) s = .done v q) :
    exec (.scD t rd rs1 rs2) s = next (wrote t rd 1
      (journalEffect t 1 (modTill t (fun k => { k with resv := none }) q))) := by
  refine congrArg next (runInstr_effectOp_acts hi hf rfl (atomTrap_market ha) hp ?answer ?pc)
  case answer => simp [hfence, hr, hst, Acc.bind, truth]
  case pc =>
    refine (modTill_pc t q t _ ?_).trans (storeAt_market_pc ha hst)
    exact fun _ => rfl

theorem exec_tas_sets {v : Word} {q : State} (hi : issues s t) (hf : fallsOk s t) (hfence : fenceHolds s t 1 = false)
    (ha : accessIn (reg s t rs1) 1 0x100_0000 0x140_0000) (hp : plain s t)
    (hu : undamaged s (marketSys t (reg s t rs1).toNat) 1)
    (hst : storeAt t (reg s t rs1) 1 1 s = .done v q) :
    exec (.tas t rd rs1 0) s = next (wrote t rd
      (BitVec.ofNat 64 (readByte s (marketSys t (reg s t rs1).toNat)).toNat)
      (journalEffect t (BitVec.ofNat 64 (readByte s (marketSys t (reg s t rs1).toNat)).toNat) q)) := by
  refine congrArg next (runInstr_effectOp_acts hi hf rfl (atomTrap_market ha) hp ?_ (storeAt_market_pc ha hst))
  simp only [readRaw_undamaged hfence hu, valueAt_byte, hst, Acc.bind]

/-- A speculative release executes none of the three; TAS takes any byte of the word. -/
theorem exec_atom_stops (hi : issues s t) (hf : fallsOk s t) (hs : isSpec s t = true)
    (ha : accessIn (reg s t rs1) 8 0x100_0000 0x140_0000) :
    exec (.lrD t rd rs1 0) s = next (stalled t 2 s) ∧ exec (.scD t rd rs1 rs2) s = next (stalled t 2 s) ∧
      exec (.tas t rd rs1 0) s = next (stalled t 2 s) := by
  have hbyte : accessIn (reg s t rs1) 1 0x100_0000 0x140_0000 := by
    obtain ⟨-, lo, top⟩ := ha
    exact ⟨Nat.mod_one _, lo, by omega⟩
  exact ⟨congrArg next (runInstr_effectOp_stops hi hf rfl (atomTrap_market ha) hs),
    congrArg next (runInstr_effectOp_stops hi hf rfl (atomTrap_market ha) hs),
    congrArg next (runInstr_effectOp_stops hi hf rfl (atomTrap_market hbyte) hs)⟩

end

/-- Settles O17: each operation is one with an effect entry, and its store keeps the PC that it retires from. -/
theorem atomicResults : Obligations.AtomicResults := by
  unfold Obligations.AtomicResults Sys2Proof.Claims.AtomicResults
  intro t rd rs1 rs2 s hi hf hfence
  refine ⟨?load, ?fails, ?stores, ?sets, ?stops⟩
  case load => exact exec_lrD_reserves hi hf hfence
  case fails => exact exec_scD_fails hi hf hfence
  case stores => exact fun ha hp hr v q => exec_scD_stores hi hf hfence ha hp hr
  case sets => exact fun ha hp hu v q => exec_tas_sets hi hf hfence ha hp hu
  case stops => exact exec_atom_stops hi hf

end Sys2Proof.Atomics

/-!
Online changes, XWRITE and exchange windows (R171, R172, R174, R176, R178, R179).
A window opens after the squash of every speculative release of its Market; when it closes, the free Stalls of the Market dispatch, and no dispatch reaches Market memory: it writes the Daybooks alone, which lie above it.
-/

namespace Sys2Proof.Changes

open Sys2Proof.Machine Sys2Proof.Safety Sys2Proof.Atomics

/-! ### What the undo and the squash of a speculative release leave alone (R91, R94) -/

/-- The Markets, the time base and what each Till area holds are as before. -/
def KeepsAreas (s q : State) : Prop :=
  q.markets = s.markets ∧ q.mono = s.mono ∧ ∀ t, (tillAt q t).area = (tillAt s t).area

section
variable {s q r : State}

theorem KeepsAreas.refl : KeepsAreas s s := ⟨rfl, rfl, fun _ => rfl⟩

theorem KeepsAreas.trans (h : KeepsAreas s q) (g : KeepsAreas q r) : KeepsAreas s r := by
  obtain ⟨hm, ht, ha⟩ := h
  obtain ⟨gm, gt, ga⟩ := g
  exact ⟨gm.trans hm, gt.trans ht, fun t => (ga t).trans (ha t)⟩

theorem keepsAreas_of_stalls (hs : q.stalls = s.stalls) (hm : q.markets = s.markets) (ht : q.mono = s.mono) : KeepsAreas s q :=
  ⟨hm, ht, fun t => by rw [tillAt_congr t hs]⟩

theorem keepsAreas_forEach {α : Type} {f : α → State → State} (h : ∀ a q, KeepsAreas q (f a q)) (l : List α) :
    KeepsAreas s (forEach l f s) :=
  forEach_keeps (KeepsAreas s) (fun a q hq => hq.trans (h a q)) l .refl

theorem keepsAreas_modTill (u : TillId) (f : Till → Till) (h : ∀ k, (f k).area = k.area) : KeepsAreas s (modTill u f s) := by
  refine ⟨rfl, rfl, fun t => ?_⟩
  by_cases e : t = u
  · subst e; rw [tillAt_modTill, h]
  · rw [tillAt_modTill_other s u t f e]

theorem keepsAreas_memUe (a : Nat) : KeepsAreas s (memUe a s) := by
  obtain ⟨_, _, _, _, h⟩ := memUe_frame a s
  rw [h]; exact keepsAreas_of_stalls rfl rfl rfl

theorem keepsAreas_noticeWrite (who : Option TillId) (a n : Nat) : KeepsAreas s (noticeWrite who a n s) := by
  refine keepsAreas_forEach (fun u q => ?_) allTills
  split
  · exact .refl
  · exact keepsAreas_modTill u _ (fun _ => rfl)

theorem keepsAreas_undoOne (u : TillId) (e : JEntry) : KeepsAreas s (undoOne u e s) := by
  refine (keepsAreas_noticeWrite (some u) (marketSys u e.addr) 8).trans ?_
  unfold undoOne
  dsimp only
  split <;> exact keepsAreas_of_stalls rfl rfl rfl

theorem keepsAreas_meetDamage (u : TillId) (l : List Nat) : KeepsAreas s (meetDamage u l s) := by
  unfold meetDamage
  split
  · exact .refl
  · refine .trans ?_ (keepsAreas_forEach (fun _ _ => keepsAreas_memUe _) l)
    exact keepsAreas_modTill u _ (fun _ => rfl)

theorem keepsAreas_undoAt (u : TillId) (x : Nat × JEntry) : KeepsAreas s (undoAt u x s) := by
  unfold undoAt
  dsimp only
  generalize [64 + 2 * x.1, 65 + 2 * x.1].filter _ = bad
  have met : KeepsAreas s (meetDamage u bad s) := keepsAreas_meetDamage u bad
  split
  · exact keepsAreas_undoOne u _
  · split
    · exact met
    · refine .trans ?_ (keepsAreas_undoOne u _)
      exact met.trans (keepsAreas_of_stalls rfl rfl rfl)

theorem keepsAreas_undoWhere (u : TillId) (p : JEntry → Bool) : KeepsAreas s (undoWhere u p s) :=
  keepsAreas_forEach (fun x _ => keepsAreas_undoAt u x) _

/-! ### The squash -/

theorem squash_of_area {t : TillId} (h : (tillAt s t).area ≠ .speculative) : squash t s = s := by
  simp [squash, h]

/-- A squash undoes its release and gives the Till a state that is not speculative; only that Till's area changes. -/
theorem squash_of_speculative {t : TillId} (h : (tillAt s t).area = .speculative) :
    ∃ q f, squash t s = modTill t f q ∧ KeepsAreas s q ∧ ∀ k, (f k).area ≠ .speculative := by
  have counted : KeepsAreas s (modTask (tillAt s t).rel.task (fun x => { x with noSpec := some (tillAt s t).rel.relnum })
      (modStall t.stall (fun x => { x with spsq := (x.spsq + 1) % 2 ^ 64 }) (undoWhere t (fun _ => true) s))) := by
    refine (keepsAreas_undoWhere t _).trans ⟨rfl, rfl, fun u => ?_⟩
    rw [← tillAt_modStall u (undoWhere t (fun _ => true) s) t.stall (fun x => { x with spsq := (x.spsq + 1) % 2 ^ 64 })
      (fun _ => rfl)]
    rfl
  unfold squash
  rw [if_neg (by simp [h])]
  dsimp only
  split
  · exact ⟨_, _, rfl, counted, fun _ => by simp [startTill]⟩
  · exact ⟨_, _, rfl, counted, fun _ => by simp [Till.idle]⟩

theorem squash_windows (t : TillId) : (squash t s).markets = s.markets ∧ (squash t s).mono = s.mono := by
  by_cases h : (tillAt s t).area = .speculative
  · obtain ⟨q, f, e, ⟨hm, ht, -⟩, -⟩ := squash_of_speculative h
    rw [e]; exact ⟨hm, ht⟩
  · rw [squash_of_area h]; exact ⟨rfl, rfl⟩

theorem squash_area_self (t : TillId) : (tillAt (squash t s) t).area ≠ .speculative := by
  by_cases h : (tillAt s t).area = .speculative
  · obtain ⟨q, f, e, -, hf⟩ := squash_of_speculative h
    rw [e, tillAt_modTill]; exact hf _
  · rw [squash_of_area h]; exact h

/-- A squash makes no Till speculative. -/
theorem squash_area (t u : TillId) (h : (tillAt s u).area ≠ .speculative) : (tillAt (squash t s) u).area ≠ .speculative := by
  by_cases hu : u = t
  · subst hu; exact squash_area_self u
  by_cases ht : (tillAt s t).area = .speculative
  · obtain ⟨q, f, e, ⟨-, -, ha⟩, -⟩ := squash_of_speculative ht
    rw [e, tillAt_modTill_other _ t u f hu, ha]; exact h
  · rw [squash_of_area ht]; exact h

theorem mem_allTills (t : TillId) : t ∈ allTills := by
  simp only [allTills, allStalls, List.mem_flatMap, List.mem_map, List.mem_finRange, true_and]
  exact ⟨t.stall, t.till, rfl⟩

/-- What a change establishes for its element and no later change destroys holds for every element in the end. -/
theorem forEach_establishes {α : Type} {P : α → State → Prop} {f : α → State → State} (hself : ∀ a q, P a (f a q))
    (hkeep : ∀ a b q, P a q → P a (f b q)) (l : List α) (s : State) : ∀ a ∈ l, P a (forEach l f s) := by
  induction l generalizing s with
  | nil => simp
  | cons b l ih =>
    intro a ha
    rcases List.mem_cons.mp ha with rfl | ha
    · exact forEach_keeps (P a) (fun c q => hkeep a c q) l (hself a s)
    · exact ih (f b s) a ha

theorem squashWhere_windows (p : State → TillId → Bool) :
    (squashWhere p s).markets = s.markets ∧ (squashWhere p s).mono = s.mono := by
  refine forEach_keeps (fun q => q.markets = s.markets ∧ q.mono = s.mono) ?_ _ ⟨rfl, rfl⟩
  rintro t q ⟨hm, ht⟩
  split
  · obtain ⟨gm, gt⟩ := squash_windows (s := q) t
    exact ⟨gm.trans hm, gt.trans ht⟩
  · exact ⟨hm, ht⟩

/-- No Till that a squash names runs ahead after it. -/
theorem squashWhere_area (p : TillId → Bool) (t : TillId) (h : p t = true) :
    (tillAt (squashWhere (fun _ u => p u) s) t).area ≠ .speculative := by
  refine forEach_establishes (P := fun t q => p t = true → (tillAt q t).area ≠ .speculative) ?_ ?_ allTills s t (mem_allTills t) h
  case refine_1 =>
    intro u q hu
    split
    · exact squash_area_self u
    · next hn => simpa [hu] using hn
  case refine_2 =>
    intro u v q hq hu
    split
    · exact squash_area v u (hq hu)
    · exact hq hu

/-! ### A machine in which no Till runs ahead -/

theorem squashWhere_of_noSpeculation (h : noSpeculation s) (p : State → TillId → Bool) : squashWhere p s = s := by
  refine forEach_keeps (fun q => q = s) (fun t q hq => ?_) _ rfl
  subst hq
  simp [h t]

theorem specTill_of_noSpeculation (h : noSpeculation s) (k : StallId) : specTill s k = none := by
  simp [specTill, h _]

theorem specFor_of_noSpeculation (h : noSpeculation s) (k : StallId) (x : Release) : specFor s k x = none := by
  simp [specFor, specTill_of_noSpeculation h]

theorem pauseSpec_of_noSpeculation (h : noSpeculation s) (k : StallId) : pauseSpec k s = s := by
  simp [pauseSpec, specTill_of_noSpeculation h]

theorem noSpeculation_of_keepsAreas (h : noSpeculation s) (g : KeepsAreas s q) : noSpeculation q := by
  obtain ⟨-, -, ha⟩ := g
  exact fun t => by rw [ha]; exact h t

/-- A Till that is given a state other than speculation adds no speculation. -/
theorem noSpeculation_modTill (h : noSpeculation s) (t : TillId) (f : Till → Till)
    (hf : (f (tillAt s t)).area ≠ .speculative) : noSpeculation (modTill t f s) := by
  intro u
  by_cases e : u = t
  · subst e; rw [tillAt_modTill]; exact hf
  · rw [tillAt_modTill_other s t u f e]; exact h u

end

/-! ### Bytes written to undamaged memory (R25) -/

section
variable {s : State}

theorem readByte_putBytes (s : State) (a x : Nat) (bs : List Byte) :
    readByte (putBytes s a bs) x = if a ≤ x then (bs[x - a]?).getD (readByte s x) else readByte s x := by
  split
  next h =>
    by_cases hx : x - a < bs.length
    · rw [List.getElem?_eq_getElem hx, Option.getD_some, ← readByte_putBytes_inside s a bs (x - a) hx, Nat.add_sub_cancel' h]
    · rw [List.getElem?_eq_none (by omega), Option.getD_none, readByte_putBytes_outside s bs (by omega)]
  next h => exact readByte_putBytes_outside s bs (by omega)

/-- A write in two parts, one behind the other, stores what the whole write stores. -/
theorem readByte_putBytes_split (s : State) (a n x : Nat) (bs : List Byte) :
    readByte (putBytes (putBytes s a (bs.take n)) (a + n) (bs.drop n)) x = readByte (putBytes s a bs) x := by
  simp only [readByte_putBytes, List.getElem?_take, List.getElem?_drop]
  by_cases ha : a ≤ x
  · by_cases hn : a + n ≤ x
    · simp [ha, hn, show ¬ x - a < n by omega, show n + (x - (a + n)) = x - a by omega]
    · simp [ha, hn, show x - a < n by omega]
  · simp [ha, show ¬ a + n ≤ x by omega]

theorem writePiece_undamaged (h : s.ue = []) (a : Nat) (bs : List Byte) :
    writePiece s a bs = (putBytes s a bs, []) := by
  unfold writePiece clearUe
  simp [h, putBytes]

/-- A write that meets no damaged word stores its bytes and reports nothing. -/
theorem writeMemAux_undamaged (fuel : Nat) (h : s.ue = []) (a : Nat) (bs : List Byte) (hf : bs.length < fuel) :
    (∃ m, (writeMemAux fuel s a bs).1 = { s with mem := m }) ∧ (writeMemAux fuel s a bs).2 = [] ∧
      ∀ x, readByte (writeMemAux fuel s a bs).1 x = readByte (putBytes s a bs) x := by
  induction fuel generalizing s a bs with
  | zero => omega
  | succ fuel ih =>
    unfold writeMemAux
    split
    next hb =>
      rw [List.isEmpty_iff.mp hb]
      exact ⟨⟨s.mem, rfl⟩, rfl, fun x => by simp [readByte_putBytes]⟩
    next hb =>
      have hpos : 0 < bs.length := List.length_pos_iff.mpr (by simpa using hb)
      have hn : 0 < 8 - a % 8 := by omega
      generalize 8 - a % 8 = n at hn
      dsimp only
      rw [writePiece_undamaged h]
      obtain ⟨⟨m, hm⟩, hnone, hx⟩ := ih (s := putBytes s a (bs.take n)) h (a + n) (bs.drop n) (by simp; omega)
      refine ⟨⟨m, hm⟩, by simp [hnone], fun x => ?_⟩
      rw [← readByte_putBytes_split s a n x bs, ← hx x]

theorem storeMem_undamaged (h : s.ue = []) (a : Nat) (bs : List Byte) :
    ∃ m, storeMem a bs s = { s with mem := m } ∧ ∀ x, readByte (storeMem a bs s) x = readByte (putBytes s a bs) x := by
  obtain ⟨⟨m, hm⟩, hnone, hx⟩ := writeMemAux_undamaged (bs.length + 1) h a bs (by omega)
  refine ⟨m, ?_, ?_⟩ <;> simp only [storeMem, writeMem, hnone, forEach_nil]
  · exact hm
  · exact hx

theorem noticeWrite_frame (who : Option TillId) (a n : Nat) (s : State) :
    ∃ k, noticeWrite who a n s = { s with stalls := k } := by
  refine forEach_keeps (fun q => ∃ k, q = { s with stalls := k }) ?_ _ ⟨s.stalls, rfl⟩
  rintro u q ⟨k, rfl⟩
  split
  · exact ⟨k, rfl⟩
  · exact ⟨_, rfl⟩

/-- A write to undamaged Market memory while no Till runs ahead: the bytes are stored, and only what watches them changes beside. -/
theorem marketWrite_undamaged (h : s.ue = []) (hn : noSpeculation s) (a : Nat) (bs : List Byte) :
    ∃ m k, marketWrite none a bs s = { s with mem := m, stalls := k } ∧ noSpeculation (marketWrite none a bs s) ∧
      ∀ x, readByte (marketWrite none a bs s) x = readByte (putBytes s a bs) x := by
  unfold marketWrite
  dsimp only
  rw [squashWhere_of_noSpeculation hn]
  have noticed := noSpeculation_of_keepsAreas hn (keepsAreas_noticeWrite none a bs.length)
  obtain ⟨k, hk⟩ := noticeWrite_frame none a bs.length s
  rw [hk] at noticed ⊢
  obtain ⟨m, hm, hx⟩ := storeMem_undamaged (s := { s with stalls := k }) h a bs
  exact ⟨m, k, hm, by rw [hm]; exact noticed, hx⟩

end

/-! ### Events keep the completions that wait (R348, R355) -/

section
variable (s : State)

theorem modOut_finished (n : Nat) (f : OutRing → OutRing) : (modOut n f s).host.finished = s.host.finished := by
  unfold modOut; split <;> rfl

theorem sendMsix_finished (v : Nat) : (sendMsix v s).host.finished = s.host.finished := by
  unfold sendMsix
  dsimp only
  split
  · rfl
  · split <;> rfl

theorem announce_finished (n : Nat) : (announce n s).host.finished = s.host.finished := by
  unfold announce
  dsimp only
  split <;> split <;> simp only [sendMsix_finished, modOut_finished]

theorem writeEntry_finished (n : Nat) (ws : List Word) : (writeEntry n ws s).host.finished = s.host.finished := by
  unfold writeEntry
  rw [announce_finished, modOut_finished]
  rfl

theorem deliverEvent_finished (e : Event) : (deliverEvent e s).host.finished = s.host.finished := by
  unfold deliverEvent
  split
  · exact writeEntry_finished s 16 _
  · split <;> rfl

theorem raiseOne_finished (code sev : Nat) (p0 p1 p2 p3 : Word) :
    (raiseOne code sev p0 p1 p2 p3 s).1.host.finished = s.host.finished := by
  unfold raiseOne
  dsimp only
  rw [deliverEvent_finished]
  generalize hq : ({ s with host := _ } : State) = q
  obtain ⟨r, hr⟩ := capture_frame _ q
  rw [hr, ← hq]

theorem raise_finished (code sev : Nat) (p0 p1 p2 p3 : Word) :
    (raise s code sev p0 p1 p2 p3).host.finished = s.host.finished := by
  unfold raise
  dsimp only
  split <;> split <;> simp only [raiseOne_finished]

end

/-! ### The dispatches at the end of a window (R46, R172) -/

/-- What a dispatch of a unit in no pair, in which no Till runs ahead, keeps: that state itself, the time base, the completions that wait, the open windows, and all memory below the Daybooks. -/
structure DispatchKeeps (b q : State) : Prop where
  solo : q.red.role = .solo
  calm : noSpeculation q
  mono : q.mono = b.mono
  finished : q.host.finished = b.host.finished
  windows : ∀ m : MarketId, q.markets[m].winOpen = b.markets[m].winOpen
  below : ∀ a, a < dayBase 0 → readByte q a = readByte b a

theorem winOpen_modMarket (n m : MarketId) (f : Market → Market) (h : ∀ k, (f k).winOpen = k.winOpen) (s : State) :
    (modMarket n f s).markets[m].winOpen = s.markets[m].winOpen := by
  by_cases e : (n : Nat) = m
  · have e' : n = m := Fin.ext e
    subst e'; simp [h]
  · simp [e]

theorem mirrorsTask_of_solo {s : State} (h : s.red.role = .solo) (id : TaskId) : mirrorsTask s id = false := by
  simp [mirrorsTask, mirroring, copying, h]

theorem sendEvent_of_solo {s : State} (h : s.red.role = .solo) (id : TaskId) (n : Nat) (evt : List Word) :
    sendEvent id n evt s = s := by
  simp [sendEvent, mirrorsTask_of_solo h]

theorem sendInput_of_solo {s : State} (h : s.red.role = .solo) (id : TaskId) (n : Nat) (data : List Byte) :
    sendInput id n data s = s := by
  simp [sendInput, mirrorsTask_of_solo h]

theorem forwardCommand_of_solo {s : State} (h : s.red.role = .solo) (ref : Word) (op : Nat) (w : List Word) (data : List Byte) :
    forwardCommand ref op w data s = s := by
  simp [forwardCommand, mirrorOn, mirroring, copying, h]

theorem wdgNotice_frame (s : State) : ∃ w, wdgNotice s = { s with wdg := w } := by
  unfold wdgNotice
  dsimp only
  split
  · exact ⟨_, rfl⟩
  · exact ⟨s.wdg, rfl⟩

theorem dayBase_zero_le (k : Nat) : dayBase 0 ≤ dayBase k := by
  unfold dayBase; omega

namespace DispatchKeeps

variable {b q : State}

theorem refl (hr : q.red.role = .solo) (hn : noSpeculation q) : DispatchKeeps q q :=
  ⟨hr, hn, rfl, rfl, fun _ => rfl, fun _ _ => rfl⟩

/-- Of the Stalls, what each Till area holds is all that counts. -/
theorem congr {p : State} (h : DispatchKeeps b q) (hrole : p.red.role = q.red.role) (hstalls : p.stalls = q.stalls)
    (hmono : p.mono = q.mono) (hfinished : p.host.finished = q.host.finished)
    (hwindows : ∀ m : MarketId, p.markets[m].winOpen = q.markets[m].winOpen)
    (hbelow : ∀ a, a < dayBase 0 → readByte p a = readByte q a) : DispatchKeeps b p where
  solo := hrole.trans h.solo
  calm := fun t => by rw [tillAt_congr t hstalls]; exact h.calm t
  mono := hmono.trans h.mono
  finished := hfinished.trans h.finished
  windows := fun m => (hwindows m).trans (h.windows m)
  below := fun a ha => (hbelow a ha).trans (h.below a ha)

theorem modStall (h : DispatchKeeps b q) (k : StallId) (f : Stall → Stall) (hf : ∀ x, (f x).tills = x.tills) :
    DispatchKeeps b (modStall k f q) :=
  { h with calm := fun t => by rw [tillAt_modStall t q k f hf]; exact h.calm t }

theorem modTill (h : DispatchKeeps b q) (t : TillId) (f : Till → Till)
    (hf : ∀ k, k.area ≠ .speculative → (f k).area ≠ .speculative) :
    DispatchKeeps b (modTill t f q) :=
  { h with calm := noSpeculation_modTill h.calm t f (hf _ (h.calm t)) }

theorem modTask (h : DispatchKeeps b q) (id : TaskId) (f : Task → Task) : DispatchKeeps b (modTask id f q) :=
  h.congr rfl rfl rfl rfl (fun _ => rfl) (fun _ _ => rfl)

theorem modRed (h : DispatchKeeps b q) (f : Red → Red) (hf : ∀ r, (f r).role = r.role) : DispatchKeeps b (modRed f q) :=
  h.congr (hf _) rfl rfl rfl (fun _ => rfl) (fun _ _ => rfl)

theorem endRetention (h : DispatchKeeps b q) (k : StallId) : DispatchKeeps b (endRetention k q) := by
  refine forEach_keeps (DispatchKeeps b) (fun t q hq => ?_) _ h
  split
  · exact hq.modTill t _ (fun _ _ => by simp [Till.idle])
  · exact hq

/-- The latch writes the Daybook of its Stall. -/
theorem latchNow (h : DispatchKeeps b q) (t : TillId) (bytes : List Byte) : DispatchKeeps b (latchNow t bytes q) := by
  unfold Machine.latchNow
  refine DispatchKeeps.modTill ?_ t _ (fun _ hk => hk)
  refine h.congr rfl rfl rfl rfl (fun _ => rfl) (fun a ha => ?_)
  exact readByte_putBytes_outside q bytes (.inl (Nat.lt_of_lt_of_le ha (dayBase_zero_le _)))

theorem beginRelease (h : DispatchKeeps b q) (t : TillId) (r : Release) : DispatchKeeps b (beginRelease t r q) := by
  have latched (bytes : List Byte) := (h.endRetention t.stall).latchNow t bytes
  unfold Machine.beginRelease
  dsimp only
  split
  case h_1 m _ =>
    refine DispatchKeeps.modTill ?_ t _ (fun _ hk => hk)
    exact (latched _).modRed _ (fun _ => rfl)
  case h_2 =>
    split
    · rw [sendEvent_of_solo (latched _).solo]; exact latched _
    · split
      · rw [sendInput_of_solo (latched _).solo]; exact latched _
      · unfold bankAsk
        refine h.congr rfl rfl rfl rfl (fun m => ?_) (fun _ _ => rfl)
        refine winOpen_modMarket _ m _ ?_ q
        exact fun _ => rfl

theorem raise (h : DispatchKeeps b q) (code sev : Nat) (p0 p1 p2 p3 : Word) : DispatchKeeps b (raise q code sev p0 p1 p2 p3) := by
  have hfinished := raise_finished q code sev p0 p1 p2 p3
  obtain ⟨g, r, e, -⟩ := raise_frame q code sev p0 p1 p2 p3
  rw [e] at hfinished ⊢
  exact h.congr rfl rfl rfl hfinished (fun _ => rfl) (fun _ _ => rfl)

theorem enterHold (h : DispatchKeeps b q) (reason : Nat) (id : TaskId) : DispatchKeeps b (enterHold reason id q) := by
  have held : DispatchKeeps b (if q.ctl.mode == .run then setMode .hold reason id q else q) := by
    split
    · refine DispatchKeeps.raise ?_ _ _ _ _ _ _
      exact h.congr rfl rfl rfl rfl (fun _ => rfl) (fun _ _ => rfl)
    · exact h
  unfold Machine.enterHold
  obtain ⟨w, e⟩ := wdgNotice_frame (if q.ctl.mode == .run then setMode .hold reason id q else q)
  rw [e]
  exact held.congr rfl rfl rfl rfl (fun _ => rfl) (fun _ _ => rfl)

/-- A release that starts on a Till is live from its first instruction on. -/
theorem startRelease (h : DispatchKeeps b q) (k : StallId) (t : TillId) (r : Release) (e : TaskEntry) (fz : Option Freeze)
    (now : Nat) :
    DispatchKeeps b (Machine.beginRelease t r (noteDispatch r (Machine.modStall k (fun x => { x with running := some t.till })
      (Machine.modTill t (fun _ => { startTill e r .live now with dispatched := true, frozen := fz }) q)))) := by
  have started := h.modTill t (fun _ => { startTill e r .live now with dispatched := true, frozen := fz })
    (fun _ _ => by simp [startTill])
  have running := started.modStall k (fun x => { x with running := some t.till }) (fun _ => rfl)
  unfold noteDispatch
  dsimp only
  exact (running.modTask r.task _).beginRelease t r

theorem dispatchRelease (h : DispatchKeeps b q) (k : StallId) (r : Release) : DispatchKeeps b (dispatchRelease k r q) := by
  have taken := h.modStall k (fun x => { x with pend := x.pend.filter (fun y => !(y.task == r.task && y.relnum == r.relnum)) })
    (fun _ => rfl)
  unfold Machine.dispatchRelease
  dsimp only
  rw [squashStale, squashWhere_of_noSpeculation h.calm, squashWhere_of_noSpeculation taken.calm, ite_self,
    specFor_of_noSpeculation taken.calm, pauseSpec_of_noSpeculation taken.calm]
  dsimp only
  generalize Machine.modStall k _ q = p at taken ⊢
  split
  case h_1 => exact taken.modStall k _ (fun _ => rfl)
  case h_2 t _ =>
    split
    · split
      · exact taken.startRelease k t r _ _ _
      · exact (taken.startRelease k t r _ _ _).enterHold 4 r.task
    · exact taken.startRelease k t r _ _ _

theorem dispatchBest (h : DispatchKeeps b q) (k : StallId) : DispatchKeeps b (dispatchBest k q) := by
  unfold Machine.dispatchBest
  split
  · split
    · exact h.dispatchRelease k _
    · exact h
  · exact h

/-- A Market's free Stalls dispatch. -/
theorem dispatchMarket (h : DispatchKeeps b q) (m : MarketId) :
    DispatchKeeps b (forEach allStalls (fun k q => if marketOf k == m then Machine.dispatchBest k q else q) q) := by
  refine forEach_keeps (DispatchKeeps b) (fun k q hq => ?_) _ h
  split
  · exact hq.dispatchBest k
  · exact hq

end DispatchKeeps

/-! ### Answers and completions (R347, R348) -/

section
variable {s q : State} {ring : Fin 16} {op : Nat} {c : Cmd}

theorem knowsCmd_congr (h : q.host = s.host) : knowsCmd q c = knowsCmd s c := by
  unfold knowsCmd cmdRing; rw [h]

theorem finish_known (h : knowsCmd s c = true) (status : Nat) (r0 r1 : Word) :
    ∃ g, finish c status r0 r1 s = { s with host := g } ∧
      g.finished = s.host.finished ++ [{ cmd := c, status := status, result0 := r0, result1 := r1 }] := by
  obtain ⟨hk, -⟩ | ⟨-, h'⟩ := finish_cases c status r0 r1 s
  · simp [h] at hk
  · exact h'

theorem finish_frame (c : Cmd) (status : Nat) (r0 r1 : Word) (s : State) : ∃ g, finish c status r0 r1 s = { s with host := g } := by
  obtain ⟨-, e⟩ | ⟨-, g, e, -⟩ := finish_cases c status r0 r1 s
  · exact ⟨s.host, e⟩
  · exact ⟨g, e⟩

/-- A command that its ring has begun and that finishes has answered, whatever else than the host interface has changed since. -/
theorem answered_finish (h : atRing s ring op c) (hq : q.host = s.host) (status : Nat) (r0 r1 : Word) :
    answered s (finish c status r0 r1 q) c status r0 r1 := by
  obtain ⟨hb, hr⟩ := h
  obtain ⟨hcur, -⟩ := (begun_iff s ring.val op c).mp hb
  have known : knowsCmd q c = true := (knowsCmd_congr hq).trans (knowsCmd_of_begun hb hr)
  constructor
  · obtain ⟨g, e, hg⟩ := finish_known known status r0 r1
    rw [e, ← hq]; exact hg
  · have hc : (cmdRing q ring.val).cur = some c := by rw [← hcur]; simp only [cmdRing, hq]
    simp only [finish, known, Bool.not_true, Bool.false_eq_true, if_false, hr, cmdRing_modRing]
    exact if_pos hc

theorem finishedWith_finish (h : knowsCmd s c = true) (status : Nat) (r0 : Word) :
    finishedWith (finish c status r0 0 s) c status r0 := by
  obtain ⟨g, e, hg⟩ := finish_known h status r0 0
  exact ⟨0, by rw [e, hg]; simp⟩

theorem busy_accept (hr : c.ring = ring.val) : (cmdRing (accept c s) ring.val).busy = some c := by
  simp [accept, hr]

/-- Nothing but the host interface decides which command a ring is busy with. -/
theorem busy_of_accept (hr : c.ring = ring.val) (h : q.host = (accept c s).host) : (cmdRing q ring.val).busy = some c := by
  rw [← busy_accept (s := s) hr]; simp only [cmdRing, h]

theorem onRing_begun {n : Nat} (h : begun s n op = some c) (f : Cmd → State → State) : onRing n op s f = next (f c s) :=
  onRing_of_begun h f

theorem notOnStandby_of_solo (h : s.red.role = .solo) (f : State → State) : notOnStandby c f s = f s := by
  simp [notOnStandby, isStandby, h]

end

/-! ### The change phases (R176) -/

theorem setPhases_frame (n : Nat) (s : State) : ∃ v, setPhases n s = { s with markets := v } := by
  refine forEach_keeps (fun q => ∃ v, q = { s with markets := v }) ?_ _ ⟨s.markets, rfl⟩
  rintro m q ⟨v, rfl⟩
  exact ⟨_, rfl⟩

theorem setPhases_host (n : Nat) (s : State) : (setPhases n s).host = s.host := by
  obtain ⟨v, e⟩ := setPhases_frame n s
  rw [e]

theorem setPhases_package (n : Nat) (s : State) : (setPhases n s).package = s.package := by
  obtain ⟨v, e⟩ := setPhases_frame n s
  rw [e]

theorem setPhase_phase_self (m : MarketId) (n : Nat) (s : State) : (setPhase m n s).markets[m].phase = n := by
  simp [setPhase]

theorem setPhase_phase {m u : MarketId} {n : Nat} {s : State} (h : s.markets[m].phase = n) :
    (setPhase u n s).markets[m].phase = n := by
  by_cases e : (u : Nat) = m
  · rw [show u = m from Fin.ext e]; exact setPhase_phase_self m n s
  · simpa [setPhase, e] using h

theorem setPhases_phase (n : Nat) (s : State) (m : MarketId) : (setPhases n s).markets[m].phase = n :=
  forEach_establishes (P := fun m q => q.markets[m].phase = n) (fun m q => setPhase_phase_self m n q)
    (fun _ _ _ h => setPhase_phase h) allMarkets s m (List.mem_finRange m)

/-! ### CHANGE_APPLY (R171, R179) -/

section
variable {s : State} {ring : Fin 16} {c : Cmd}

/-- CHANGE_APPLY with a clean descriptor in a unit outside a pair and HELD: its answer, or the change it begins (R171). -/
theorem changeApply_begun (ha : alone s) (hm : s.ctl.mode ≠ .held) (hr : atRing s ring 0x1A c) (hc : clean c []) :
    (anyFrozen s = true → exec (.changeApply ring) s = next (finish c 0x14 0 0 s)) ∧
    (anyFrozen s = false → s.package = none → exec (.changeApply ring) s = next (finish c 0x2F 0 0 s)) ∧
    (∀ p, anyFrozen s = false → s.package = some p → s.change = none → switchesFit s p = true → prjBusy s = false →
      exec (.changeApply ring) s = next (beginChange c p (accept c s))) := by
  obtain ⟨hb, -⟩ := hr
  obtain ⟨hsolo, -, -⟩ := ha
  have hf : forwardCmd 0 c [] (accept c s) = accept c s := forwardCommand_of_solo (s := accept c s) hsolo _ _ _ _
  have run : exec (.changeApply ring) s = execChangeApply ring s := rfl
  rw [run, execChangeApply, onRing_begun hb, if_neg (by rw [show reservedZero c [] = true from hc]; decide),
    notOnStandby_of_solo hsolo, if_neg (by simpa using hm)]
  refine ⟨fun hz => ?_, fun hz hp => ?_, fun p hz hp hch hfit hbusy => ?_⟩
  · rw [if_pos hz]
  · rw [if_neg (by simp [hz]), hp]
  · rw [if_neg (by simp [hz]), hp]
    dsimp only
    rw [if_neg (by simp [hch]), if_neg (by simp [hfit]), if_neg (by simp [hbusy]), hf]

theorem prjBusy_of_idle (hf : flashIdle s) (hch : s.change = none) : prjBusy s = false := by
  obtain ⟨hjob, hqueue⟩ := hf
  simp [prjBusy, flashUses, hjob, hqueue, hch]

theorem flashAsk_frame (l : List FlashJob) (s : State) : ∃ n p, flashAsk l s = { s with nvs := n, purse := p } := by
  unfold flashAsk flashKick
  split
  · exact ⟨_, _, rfl⟩
  · exact ⟨_, s.purse, rfl⟩

/-- A change begins in the step that writes the other slot, with every Market in phase 2; its package and the host interface stay. -/
theorem beginChange_effect (c : Cmd) (p : Package) (s : State) :
    ∃ k, (beginChange c p s).change = some k ∧ k.step = .writing ∧ k.ring = c.ring ∧ (beginChange c p s).host = s.host ∧
      (beginChange c p s).package = s.package ∧ ∀ m : MarketId, (beginChange c p s).markets[m].phase = 2 := by
  unfold beginChange
  dsimp only
  generalize hk : ({ ring := c.ring, .. } : Change) = k
  have phases := setPhases_phase 2 { s with change := some k }
  obtain ⟨v, hv⟩ := setPhases_frame 2 { s with change := some k }
  rw [hv] at phases ⊢
  unfold writeChange writeImage
  dsimp only
  obtain ⟨n, u, e⟩ := flashAsk_frame _ { s with change := some k, markets := v }
  rw [e]
  exact ⟨k, rfl, by rw [← hk], by rw [← hk], rfl, rfl, phases⟩

/-! ### CHANGE_ABORT (R171) -/

/-- CHANGE_ABORT with a clean descriptor in a unit outside a pair and HELD: its answer, and whether it discards (R171). -/
theorem changeAbort_begun (ha : alone s) (hm : s.ctl.mode ≠ .held) (hr : atRing s ring 0x1B c) (hc : clean c []) :
    (s.package = none → exec (.changeAbort ring) s = next (finish c 0x2F 0 0 s)) ∧
    (s.package.isSome = true → switchBegun s = true → exec (.changeAbort ring) s = next (finish c 0x30 0 0 s)) ∧
    (s.package.isSome = true → switchBegun s = false → exec (.changeAbort ring) s = next (finish c 0 0 0 (discardPackage s))) := by
  obtain ⟨hb, -⟩ := hr
  obtain ⟨hsolo, -, -⟩ := ha
  have hf : forwardCmd 0 c [] s = s := forwardCommand_of_solo hsolo _ _ _ _
  have run : exec (.changeAbort ring) s = execChangeAbort ring s := rfl
  rw [run, execChangeAbort, onRing_begun hb, if_neg (by rw [show reservedZero c [] = true from hc]; decide),
    notOnStandby_of_solo hsolo, if_neg (by simp [testFailed, hm])]
  refine ⟨fun hp => ?_, fun hp hs => ?_, fun hp hs => ?_⟩
  · rw [if_pos (by simp [hp])]
  · rw [if_neg (by rw [Option.isNone_eq_false_iff.mpr hp]; decide), if_pos hs]
  · rw [if_neg (by rw [Option.isNone_eq_false_iff.mpr hp]; decide), if_neg (by simp [hs]), hf]

theorem changeFail_of_none (h : s.change = none) (status : Nat) : changeFail status s = s := by
  simp [changeFail, h]

/-- A package discarded before its change: every Market is in phase 0, and the host interface stays. -/
theorem discardPackage_loaded (hch : s.change = none) :
    (discardPackage s).host = s.host ∧ (discardPackage s).package = none ∧
      ∀ m : MarketId, (discardPackage s).markets[m].phase = 0 := by
  refine ⟨(setPhases_host 0 _).trans ?_, setPhases_package 0 _, setPhases_phase 0 _⟩
  show (changeFail 5 _).host = s.host
  rw [changeFail_of_none (by exact hch)]
  rfl

/-! ### XWRITE (R178) -/

/-- A command on a free DMA channel 0, with no reserved bit set, does its own work. -/
theorem dataCommand_runs (ht : transfers s 0) (f : State → State) : dataCommand c true f s = f s := by
  obtain ⟨hen, htaken, -⟩ := ht
  obtain ⟨h, -⟩ | ⟨-, h, -⟩ | ⟨-, -, h, -⟩ | ⟨-, -, -, h⟩ := dataOn_cases 0 c true f s
  · cases h
  · simp [dmaOff, hen] at h
  · simp [htaken] at h
  · exact h

theorem takeBytes_runs (ht : transfers s 0) {a : Word} {n : Nat} (h : a.toNat + n ≤ 2 ^ 64) (data : List Byte)
    (f : List Byte → State → State) : takeBytes c a n data f s = f (fitBytes n data) (chanBytes 0 n s) := by
  obtain ⟨-, -, hreq⟩ := ht
  obtain ⟨g, -⟩ | ⟨-, g, -⟩ | ⟨-, -, g⟩ := takeOn_cases 0 c a n data f s
  · simp [hostRangeOk] at g; omega
  · simp [hreq] at g
  · exact g

theorem windowNs_eq (n : Nat) : windowNs n = 500 + (5 * n + 63) / 64 := by
  unfold windowNs ceilDiv; omega

end

section
variable {s : State} {ring : Fin 16} {c : Cmd} {m : MarketId} {n off : Nat}

/-- XWRITE with whole words that a window carries: its request, or BAD_ADDRESS for bytes beyond Market memory (R178). -/
theorem xwrite_begun (data : List Byte) (ha : alone s) (hr : atRing s ring 0x1C c) (ht : transfers s 0)
    (hc : clean c [~~~0, 0xF_FFFF, 0x3F_FFFF]) (hlen : bits (opnd c 2) 17 0 = n) (hmkt : bits (opnd c 2) 19 18 = m.val)
    (hoff : bits (opnd c 3) 21 0 = off) (hn : n % 8 = 0) (ho : off % 8 = 0) (hmax : n ≤ xwriteMax s m) :
    (2 ^ 22 < off + n → exec (.xwrite ring data) s = next (finish c 3 0 0 s)) ∧
    (off + n ≤ 2 ^ 22 → windowFree s m = true → (opnd c 1).toNat + n ≤ 2 ^ 64 →
      exec (.xwrite ring data) s = next (askWindow m (.xwrite c off (fitBytes n data)) (windowNs n)
        (accept c (chanBytes 0 n s)))) := by
  obtain ⟨hb, -⟩ := hr
  obtain ⟨hsolo, -, -⟩ := ha
  have market : Fin.ofNat 4 (bits (opnd c 2) 19 18) = m := by
    rw [hmkt]; exact Fin.ext (Nat.mod_eq_of_lt m.isLt)
  have checked : (reservedZero c [BitVec.allOnes 64, lowMask 20, lowMask 22] && mult n 8 && mult off 8 &&
      decide (n ≤ xwriteMax s m)) = true := by
    rw [show reservedZero c [BitVec.allOnes 64, lowMask 20, lowMask 22] = true from hc]
    simp [mult, hn, ho, hmax]
  have run : exec (.xwrite ring data) s = execXwrite ring data s := rfl
  rw [run, execXwrite, onRing_begun hb]
  dsimp only
  rw [market, hlen, hoff, checked, dataCommand_runs ht, notOnStandby_of_solo hsolo]
  refine ⟨fun hend => ?_, fun hend hfree ha => ?_⟩
  · rw [if_pos hend]
  · rw [if_neg (by omega), if_neg (by simp [hfree]), takeBytes_runs ht ha]

end

/-- What CHANGE_APPLY, CHANGE_ABORT and XWRITE answer and begin. -/
theorem changeCommands : Sys2Proof.Claims.ChangeCommands := by
  intro ring c s ha hm
  refine ⟨fun hr hc hz => ⟨?noPackage, ?applies⟩, ?frozen, fun hr hc => ⟨?nothing, ?discards, ?tooLate⟩,
    fun data m n off hr ht hc hlen hmkt hoff hn ho hmax => ⟨?asks, ?outside⟩⟩
  case noPackage =>
    obtain ⟨-, run, -⟩ := changeApply_begun ha hm hr hc
    exact fun hp => ⟨_, run hz hp, answered_finish hr rfl _ _ _⟩
  case applies =>
    intro p hp hch hfit hidle
    obtain ⟨-, -, run⟩ := changeApply_begun ha hm hr hc
    obtain ⟨k, hk, hstep, hring, hhost, hpack, hphase⟩ := beginChange_effect c p (accept c s)
    exact ⟨_, k, run p hz hp hch hfit (prjBusy_of_idle hidle hch), busy_of_accept hr.2 hhost, hk, hstep, hring.trans hr.2,
      hpack.trans hp, hphase⟩
  case frozen =>
    intro hr hc hz
    obtain ⟨run, -⟩ := changeApply_begun ha hm hr hc
    exact ⟨_, run hz, answered_finish hr rfl _ _ _⟩
  case nothing =>
    obtain ⟨run, -⟩ := changeAbort_begun ha hm hr hc
    exact fun hp => ⟨_, run hp, answered_finish hr rfl _ _ _⟩
  case discards =>
    intro p hp hch hs
    obtain ⟨-, -, run⟩ := changeAbort_begun ha hm hr hc
    obtain ⟨hhost, hpack, hphase⟩ := discardPackage_loaded hch
    have ended := answered_finish hr hhost 0 0 0
    obtain ⟨g, e⟩ := finish_frame c 0 0 0 (discardPackage s)
    refine ⟨_, run (by simp [hp]) hs, ended, ?_, fun m => ?_⟩ <;> rw [e]
    · exact hpack
    · exact hphase m
  case tooLate =>
    intro p hp hs
    obtain ⟨-, run, -⟩ := changeAbort_begun ha hm hr hc
    obtain ⟨g, e⟩ := finish_frame c 0x30 0 0 s
    exact ⟨_, run (by simp [hp]) hs, answered_finish hr rfl _ _ _, by rw [e]; exact hp⟩
  case asks =>
    intro hend hfree hhost
    obtain ⟨-, run⟩ := xwrite_begun data ha hr ht hc hlen hmkt hoff hn ho hmax
    refine ⟨_, run hend hfree hhost, busy_of_accept hr.2 rfl, ?_⟩
    simp [askWindow, windowNs_eq, accept, modRing, chanBytes]
  case outside =>
    intro hend
    obtain ⟨run, -⟩ := xwrite_begun data ha hr ht hc hlen hmkt hoff hn ho hmax
    exact ⟨_, run hend, answered_finish hr rfl _ _ _⟩

/-! ### The opening of a window (R172) -/

section
variable {s q : State} {m : MarketId} {w : Window}

theorem windowOpen_opens (hreq : s.markets[m].winReq = some w) (hopen : s.markets[m].winOpen = none)
    (hmay : windowMay s m w.len = true) :
    exec (.windowOpen m) s = next (modMarket m (fun k => { k with
        winReq := none, winOpen := some { w with at_ := s.mono }, xcnt := (k.xcnt + 1) % 2 ^ 64 })
      (squashWhere (fun _ t => marketOf t.stall == m) s)) := by
  obtain ⟨-, hmono⟩ := squashWhere_windows (s := s) (fun _ t => marketOf t.stall == m)
  have run : exec (.windowOpen m) s = execWindowOpen m s := rfl
  rw [run, execWindowOpen, hreq, hopen]
  dsimp only
  rw [if_pos hmay, hmono]
  rfl

theorem windowOpen_waits (hreq : s.markets[m].winReq = some w) (hopen : s.markets[m].winOpen = none)
    (hmay : windowMay s m w.len = false) : exec (.windowOpen m) s = next s := by
  have run : exec (.windowOpen m) s = execWindowOpen m s := rfl
  rw [run, execWindowOpen, hreq, hopen]
  dsimp only
  rw [if_neg (by simp [hmay])]
  rfl

/-! ### The close of a window of an XWRITE (R172, R178) -/

/-- A change asks for its next window or does nothing. -/
theorem changeKick_cases (s : State) : changeKick s = s ∨ ∃ n use len, changeKick s = askWindow n use len s := by
  unfold changeKick
  split
  · exact .inl rfl
  · split
    · split
      · split
        · exact .inr ⟨_, _, _, rfl⟩
        · exact .inl rfl
      · split
        · exact .inr ⟨_, _, _, rfl⟩
        · exact .inl rfl
      · exact .inl rfl
    · exact .inl rfl

/-- A window asked for opens nothing; memory, time and the completions stay. -/
theorem DispatchKeeps.changeKick {b q : State} (h : DispatchKeeps b q) : DispatchKeeps b (changeKick q) := by
  obtain e | ⟨n, use, len, e⟩ := changeKick_cases q
  · rw [e]; exact h
  · rw [e]
    unfold askWindow
    refine h.congr rfl rfl rfl rfl (fun m => ?_) (fun _ _ => rfl)
    refine winOpen_modMarket n m _ ?_ q
    exact fun _ => rfl

/-- The state in which the window of a Market has closed at its end, and its effect is still to come. -/
def windowEnded (m : MarketId) (w : Window) (s : State) : State :=
  modMarket m (fun k => { k with winOpen := none, lastlen := satTo 18 w.len }) (untilMono (w.at_ + w.len) s)

theorem windowEnded_frame (m : MarketId) (w : Window) (s : State) :
    ∃ f v, windowEnded m w s = { s with mono := max s.mono (w.at_ + w.len), clock := { s.clock with f := f }, markets := v } ∧
      v[m].winOpen = none := by
  obtain ⟨f, e⟩ := untilMono_frame (w.at_ + w.len) s
  unfold windowEnded
  rw [e]
  exact ⟨f, _, rfl, by simp⟩

theorem windowClose_open (hopen : s.markets[m].winOpen = some w) :
    exec (.windowClose m) s = next (changeKick (forEach allStalls
      (fun k q => if marketOf k == m then dispatchBest k q else q) (windowEffect m w (windowEnded m w s)))) := by
  have run : exec (.windowClose m) s = execWindowClose m s := rfl
  rw [run, execWindowClose, hopen]
  rfl

/-- The effect of the window of an XWRITE on undamaged memory, while no Till runs ahead: its bytes are stored and its command is complete; time and the windows stay. -/
theorem windowEffect_xwrite {c : Cmd} {off : Nat} {data : List Byte} (huse : w.use = .xwrite c off data) (hue : s.ue = [])
    (hcalm : noSpeculation s) (hsolo : s.red.role = .solo) (hk : knowsCmd s c = true) :
    (windowEffect m w s).red.role = .solo ∧ noSpeculation (windowEffect m w s) ∧ (windowEffect m w s).mono = s.mono ∧
      (windowEffect m w s).markets = s.markets ∧ finishedWith (windowEffect m w s) c 0 (BitVec.ofNat 64 w.len) ∧
      ∀ x, readByte (windowEffect m w s) x = readByte (putBytes s (marketBase m.val + off) data) x := by
  obtain ⟨mem, k, hw, hcalm', hbytes⟩ := marketWrite_undamaged hue hcalm (marketBase m.val + off) data
  have effect : windowEffect m w s =
      finish c 0 (BitVec.ofNat 64 w.len) 0 (marketWrite none (marketBase m.val + off) data s) := by
    have hlen : field 0 w.len = BitVec.ofNat 64 w.len := by simp [field]
    have hfwd : forwardCmd 0 c data (marketWrite none (marketBase m.val + off) data s) =
        marketWrite none (marketBase m.val + off) data s := by
      refine forwardCommand_of_solo ?_ _ _ _ _
      rw [hw]; exact hsolo
    rw [windowEffect, huse]
    dsimp only
    rw [hfwd, hlen]
  have known : knowsCmd (marketWrite none (marketBase m.val + off) data s) c = true := by
    rw [← hk]; exact knowsCmd_congr (by rw [hw])
  have done := finishedWith_finish known 0 (BitVec.ofNat 64 w.len)
  obtain ⟨g, e, -⟩ := finish_known known 0 (BitVec.ofNat 64 w.len) 0
  rw [effect]
  rw [e] at done ⊢
  rw [hw] at done hcalm' hbytes ⊢
  exact ⟨hsolo, hcalm', rfl, rfl, done, hbytes⟩

end

section
variable {s : State} {m : MarketId} {w : Window} {c : Cmd} {off : Nat} {data : List Byte}

/-- Market memory lies below the Daybooks (R27). -/
theorem market_below_daybooks (m : MarketId) {a : Nat} (h : a < marketBase m.val + 2 ^ 22) : a < dayBase 0 := by
  have := m.isLt
  unfold marketBase at h
  unfold dayBase
  omega

/-- The window of an XWRITE closes: its bytes stand in Market memory, its command is complete, and the dispatches after it leave both. -/
theorem windowClose_xwrite (hopen : s.markets[m].winOpen = some w) (huse : w.use = .xwrite c off data)
    (hue : s.ue = []) (hcalm : noSpeculation s) (hsolo : s.red.role = .solo) (hk : knowsCmd s c = true) :
    ∃ q, exec (.windowClose m) s = next q ∧ q.markets[m].winOpen = none ∧ q.mono = max s.mono (w.at_ + w.len) ∧
      finishedWith q c 0 (BitVec.ofNat 64 w.len) ∧
      ∀ a, a < marketBase m.val + 2 ^ 22 → readByte q a = readByte (putBytes s (marketBase m.val + off) data) a := by
  refine ⟨_, windowClose_open hopen, ?_⟩
  obtain ⟨f, v, ended, hclosed⟩ := windowEnded_frame m w s
  rw [ended]
  generalize hp : ({ s with mono := _, clock := _, markets := v } : State) = p
  obtain ⟨psolo, pcalm, pmono, pmarkets, pdone, pbytes⟩ : _ ∧ _ ∧ _ ∧ _ ∧ _ ∧ _ :=
    windowEffect_xwrite (s := p) (m := m) huse (by rw [← hp]; exact hue) (by rw [← hp]; exact hcalm) (by rw [← hp]; exact hsolo)
      ((knowsCmd_congr (by rw [← hp])).trans hk)
  have kept := ((DispatchKeeps.refl psolo pcalm).dispatchMarket m).changeKick
  refine ⟨?_, ?_, ?_, fun a ha => ?_⟩
  · rw [kept.windows, pmarkets, ← hp]; exact hclosed
  · rw [kept.mono, pmono, ← hp]
  · obtain ⟨r1, hdone⟩ := pdone
    exact ⟨r1, by rw [kept.finished]; exact hdone⟩
  · rw [kept.below a (market_below_daybooks m ha), pbytes, ← hp]
    rfl

/-! ### A request that waits too long (R174, R178, R179) -/

/-- The state in which a request of a Market has waited `ms` ms and is gone. -/
def requestDropped (m : MarketId) (w : Window) (ms : Nat) (s : State) : State :=
  modMarket m (fun k => { k with winReq := none }) (untilMono (w.at_ + ms * 1000000) s)

theorem requestDropped_frame (m : MarketId) (w : Window) (ms : Nat) (s : State) :
    ∃ f v, requestDropped m w ms s = { s with mono := max s.mono (w.at_ + ms * 1000000), clock := { s.clock with f := f }, markets := v } ∧
      v[m].winReq = none := by
  obtain ⟨f, e⟩ := untilMono_frame (w.at_ + ms * 1000000) s
  unfold requestDropped
  rw [e]
  exact ⟨f, _, rfl, by simp⟩

theorem changeKick_of_none (h : s.change = none) : changeKick s = s := by
  unfold changeKick
  split
  · rfl
  · rw [h]

theorem finish_change (c : Cmd) (status : Nat) (r0 r1 : Word) (s : State) : (finish c status r0 r1 s).change = s.change := by
  obtain ⟨g, e⟩ := finish_frame c status r0 r1 s
  rw [e]

theorem windowTimeout_xwrite (hreq : s.markets[m].winReq = some w) (huse : w.use = .xwrite c off data)
    (hch : s.change = none) :
    exec (.windowTimeout m) s = next (finish c 0x31 0 0 (requestDropped m w (bits s.markets[m].xwin 15 8) s)) := by
  have run : exec (.windowTimeout m) s = execWindowTimeout m s := rfl
  have hms : windowTmo s m w = bits s.markets[m].xwin 15 8 := by simp [windowTmo, huse]
  have still : (finish c 0x31 0 0 (requestDropped m w (bits s.markets[m].xwin 15 8) s)).change = none := by
    obtain ⟨f, v, e, -⟩ := requestDropped_frame m w (bits s.markets[m].xwin 15 8) s
    rw [finish_change, e]; exact hch
  rw [run, execWindowTimeout, hreq]
  dsimp only
  rw [hms, huse]
  exact congrArg next (changeKick_of_none still)

variable {k : Change}

theorem windowTmo_change (huse : w.use = .prepare ∨ w.use = .switch) (hch : s.change = some k) : windowTmo s m w = k.tmo[m] := by
  rcases huse with h | h <;> simp [windowTmo, h, hch]

theorem untilMono_change (t : Nat) (s : State) : (untilMono t s).change = s.change := by
  obtain ⟨f, e⟩ := untilMono_frame t s
  rw [e]

/-- Before its first switch a change ends with its request. -/
theorem windowTimeout_before_switch (hreq : s.markets[m].winReq = some w) (huse : w.use = .prepare ∨ w.use = .switch)
    (hch : s.change = some k) (hsw : k.switched = false) :
    exec (.windowTimeout m) s = next (changeFail 0x31 (requestDropped m w k.tmo[m] s)) := by
  have run : exec (.windowTimeout m) s = execWindowTimeout m s := rfl
  rw [run, execWindowTimeout, hreq]
  dsimp only
  rw [windowTmo_change huse hch, untilMono_change, hch]
  obtain ⟨use, len, since⟩ := w
  rcases huse with rfl | rfl <;> exact if_neg (by simp [hsw])

/-- The state in which a request of a Market has waited `ms` ms and is made again. -/
def requestRepeated (m : MarketId) (w : Window) (ms : Nat) (s : State) : State :=
  let q := untilMono (w.at_ + ms * 1000000) s
  modMarket m (fun k => { k with winReq := some { w with at_ := q.mono } }) q

theorem requestRepeated_frame (m : MarketId) (w : Window) (ms : Nat) (s : State) :
    ∃ t f v, requestRepeated m w ms s = { s with mono := t, clock := { s.clock with f := f }, markets := v } ∧
      v[m].winReq = some { w with at_ := t } := by
  obtain ⟨f, e⟩ := untilMono_frame (w.at_ + ms * 1000000) s
  unfold requestRepeated
  rw [e]
  exact ⟨_, f, _, rfl, by simp⟩

/-- After its first switch a change reports the request and makes it again. -/
theorem windowTimeout_after_switch (hreq : s.markets[m].winReq = some w) (huse : w.use = .prepare ∨ w.use = .switch)
    (hch : s.change = some k) (hsw : k.switched = true) :
    exec (.windowTimeout m) s = next (raise (requestRepeated m w k.tmo[m] s) 0x0109 1 (field 0 m.val)) := by
  have run : exec (.windowTimeout m) s = execWindowTimeout m s := rfl
  rw [run, execWindowTimeout, hreq]
  dsimp only
  rw [windowTmo_change huse hch, untilMono_change, hch]
  obtain ⟨use, len, since⟩ := w
  rcases huse with rfl | rfl <;> exact if_pos hsw

theorem forwardCommand_frame (ref : Word) (op : Nat) (ws : List Word) (data : List Byte) (s : State) :
    ∃ r, forwardCommand ref op ws data s = { s with red := r } := by
  unfold forwardCommand
  split
  · refine forEach_keeps (fun q => ∃ r, q = { s with red := r }) ?_ _ ⟨s.red, rfl⟩
    rintro x q ⟨r, rfl⟩
    obtain ⟨r', e⟩ := linkSend_frame 8 ref _ { s with red := r }
    exact ⟨r', e⟩
  · exact ⟨s.red, rfl⟩

theorem knowsCmd_of_busy (h : (cmdRing s c.ring).busy = some c) : knowsCmd s c = true := by
  simp [knowsCmd, h]

theorem finishBusy_of_busy {ring : Nat} (h : (cmdRing s ring).busy = some c) (status : Nat) (r0 r1 : Word) :
    finishBusy ring status r0 r1 s = finish c status r0 r1 s := by
  rw [finishBusy, h]

/-- A change that fails completes the command of its ring and leaves its package loaded. -/
theorem changeFail_ends (hch : s.change = some k) (hbusy : (cmdRing s k.ring).busy = some c) (hr : c.ring = k.ring) (status : Nat) :
    (changeFail status s).change = none ∧ (changeFail status s).package = s.package ∧
      finishedWith (changeFail status s) c status 0 := by
  unfold changeFail
  rw [hch]
  dsimp only
  obtain ⟨r, told⟩ := forwardCommand_frame 0 0xFFFD [0, 0, 0, 0, 0] [] { s with change := none }
  rw [told]
  generalize hp : ({ s with change := none, red := r } : State) = p
  have busy : (cmdRing p k.ring).busy = some c := by rw [← hp]; exact hbusy
  have known : knowsCmd p c = true := knowsCmd_of_busy (by rw [hr]; exact busy)
  have done := finishedWith_finish known status 0
  obtain ⟨g, e, -⟩ := finish_known known status 0 0
  rw [finishBusy_of_busy busy]
  rw [e] at done ⊢
  obtain ⟨v, phased⟩ := setPhases_frame 1 { p with host := g }
  rw [phased]
  exact ⟨by rw [← hp], by rw [← hp], done⟩

end

/-- When a window opens, what its close leaves, and what ends a request that waits. -/
theorem exchangeWindows : Sys2Proof.Claims.ExchangeWindows := by
  refine ⟨?opening, ?closing, ?expiring, ?changing⟩
  case opening =>
    intro m w s hreq hopen
    refine ⟨fun hmay => ⟨_, windowOpen_opens hreq hopen hmay, ?_⟩, windowOpen_waits hreq hopen⟩
    obtain ⟨hmarkets, -⟩ := squashWhere_windows (s := s) (fun _ t => marketOf t.stall == m)
    refine ⟨by simp, by simp, by simp [hmarkets], fun t ht => ?_⟩
    rw [tillAt_congr t (modMarket_stalls _ m _)]
    exact squashWhere_area (fun t => marketOf t.stall == m) t (by simp [ht])
  case closing =>
    intro m w c off data s hopen huse hfit hue hcalm ⟨hsolo, _, _⟩ hk
    obtain ⟨q, run, hclosed, hmono, hdone, hbytes⟩ := windowClose_xwrite hopen huse hue hcalm hsolo hk
    refine ⟨q, run, hclosed, hmono, hdone, ?_, fun a _ hi hout => ?_⟩
    · exact (readBytes_congr (fun i hi => hbytes _ (by omega))).trans (readBytes_putBytes s (marketBase m.val + off) data)
    · rw [hbytes a hi]
      exact readByte_putBytes_outside s data hout
  case expiring =>
    intro m w c off data s hreq huse hch hk
    refine ⟨_, windowTimeout_xwrite hreq huse hch, ?_⟩
    obtain ⟨f, v, dropped, hgone⟩ := requestDropped_frame m w (bits s.markets[m].xwin 15 8) s
    have known : knowsCmd (requestDropped m w (bits s.markets[m].xwin 15 8) s) c = true :=
      (knowsCmd_congr (by rw [dropped])).trans hk
    have done := finishedWith_finish known 0x31 0
    obtain ⟨g, e, -⟩ := finish_known known 0x31 0 0
    rw [e, dropped] at done ⊢
    exact ⟨hgone, rfl, done, rfl⟩
  case changing =>
    intro m w k c s hreq hch huse hbusy hr
    refine ⟨fun hsw => ⟨_, windowTimeout_before_switch hreq huse hch hsw, ?_⟩, fun hsw => ?_⟩
    · obtain ⟨f, v, dropped, -⟩ := requestDropped_frame m w k.tmo[m] s
      obtain ⟨hgone, hpack, hdone⟩ := changeFail_ends (s := requestDropped m w k.tmo[m] s) (k := k) (c := c)
        (by rw [dropped]; exact hch) (by rw [dropped]; exact hbusy) hr 0x31
      exact ⟨hgone, hpack.trans (by rw [dropped]), hdone⟩
    · refine ⟨_, windowTimeout_after_switch hreq huse hch hsw, ?_⟩
      obtain ⟨t, f, v, repeated, hagain⟩ := requestRepeated_frame m w k.tmo[m] s
      obtain ⟨g, r, raised, hseq⟩ := raise_frame (requestRepeated m w k.tmo[m] s) 0x0109 1 (field 0 m.val) 0 0 0
      rw [raised]
      rw [repeated] at hseq ⊢
      exact ⟨hch, hagain, hseq⟩

/-- Settles O53: CHANGE_APPLY, CHANGE_ABORT and XWRITE by the checks they pass, and exchange windows from their opening to their close or timeout. -/
theorem changesAndWindows : Obligations.ChangesAndWindows := by
  unfold Obligations.ChangesAndWindows
  exact ⟨changeCommands, exchangeWindows⟩

end Sys2Proof.Changes

/-!
The ring engine: doorbell polls, descriptor fetches, the turns of the rings (R344, R346, R347, R350), and the event number at HOST_LOST (R355, R358, R453).
Two facts carry the proofs. Events and interrupts leave the rings and the poll record alone, and the service of the rings is turns and fetches alone, so what each of these keeps, the service keeps.
-/

namespace Sys2Proof.RingEngine

open Sys2Proof.Machine Sys2Proof.Safety

/-! ### The poll record (R344, R358) -/

/-- The count of polls, the instant of the last good one and HOST_LOST are as before. -/
structure KeepsPollRecord (s q : State) : Prop where
  polls : q.host.polls = s.host.polls
  lastGood : q.host.lastGood = s.host.lastGood
  hostLost : q.host.hostLost = s.host.hostLost

namespace KeepsPollRecord

variable {s q r : State}

theorem refl : KeepsPollRecord s s := ⟨rfl, rfl, rfl⟩

theorem trans (h : KeepsPollRecord s q) (g : KeepsPollRecord q r) : KeepsPollRecord s r :=
  ⟨g.polls.trans h.polls, g.lastGood.trans h.lastGood, g.hostLost.trans h.hostLost⟩

theorem forEach {α : Type} {f : α → State → State} (h : KeepsPollRecord s q) (hf : ∀ a p, KeepsPollRecord p (f a p)) (l : List α) :
    KeepsPollRecord s (forEach l f q) :=
  forEach_keeps (KeepsPollRecord s) (fun a p hp => hp.trans (hf a p)) l h

end KeepsPollRecord

/-! ### Events and interrupts (R355 to R357) -/

/-- The command rings and the poll record are as before. -/
structure KeepsRings (s q : State) : Prop extends KeepsPollRecord s q where
  rings : q.host.rings = s.host.rings

theorem KeepsRings.trans {s q r : State} (h : KeepsRings s q) (g : KeepsRings q r) : KeepsRings s r :=
  ⟨h.toKeepsPollRecord.trans g.toKeepsPollRecord, g.rings.trans h.rings⟩

theorem KeepsRings.cmdRing {s q : State} (h : KeepsRings s q) (n : Nat) : cmdRing q n = cmdRing s n := by
  unfold Machine.cmdRing; rw [h.rings]

theorem keepsRings_of_host {s q : State} (h : q.host = s.host) : KeepsRings s q :=
  ⟨⟨by rw [h], by rw [h], by rw [h]⟩, by rw [h]⟩

section
variable (s : State)

theorem keepsRings_modOut (n : Nat) (f : OutRing → OutRing) : KeepsRings s (modOut n f s) := by
  unfold modOut
  split <;> exact ⟨⟨rfl, rfl, rfl⟩, rfl⟩

theorem keepsRings_sendMsix (v : Nat) : KeepsRings s (sendMsix v s) := by
  unfold sendMsix
  dsimp only
  split
  · exact keepsRings_of_host rfl
  · split <;> exact ⟨⟨rfl, rfl, rfl⟩, rfl⟩

theorem keepsRings_announce (n : Nat) : KeepsRings s (announce n s) := by
  unfold announce
  dsimp only
  exact iteInduction (motive := KeepsRings s) (fun _ => (keepsRings_modOut s n _).trans (keepsRings_sendMsix _ _))
    (fun _ => keepsRings_modOut s n _)

theorem keepsRings_writeEntry (n : Nat) (ws : List Word) : KeepsRings s (writeEntry n ws s) := by
  unfold writeEntry
  have posted (l : List HostOut) : KeepsRings s (post l (ringMoved 64 s)) := ⟨⟨rfl, rfl, rfl⟩, rfl⟩
  exact ((posted _).trans (keepsRings_modOut _ n _)).trans (keepsRings_announce _ n)

theorem keepsRings_deliverEvent (e : Event) : KeepsRings s (deliverEvent e s) := by
  unfold deliverEvent
  split
  · exact keepsRings_writeEntry s 16 _
  · split <;> exact ⟨⟨rfl, rfl, rfl⟩, rfl⟩

theorem keepsRings_raiseOne (code sev : Nat) (p0 p1 p2 p3 : Word) : KeepsRings s (raiseOne code sev p0 p1 p2 p3 s).1 := by
  unfold raiseOne
  dsimp only
  have numbered : KeepsRings s { s with host := { s.host with evSeq := s.host.evSeq + 1 } } := ⟨⟨rfl, rfl, rfl⟩, rfl⟩
  refine (numbered.trans (keepsRings_of_host ?_)).trans (keepsRings_deliverEvent _ _)
  obtain ⟨r, hr⟩ := capture_frame _ { s with host := { s.host with evSeq := s.host.evSeq + 1 } }
  rw [hr]

theorem keepsRings_raise (code sev : Nat) (p0 p1 p2 p3 : Word) : KeepsRings s (raise s code sev p0 p1 p2 p3) := by
  unfold raise
  have first := keepsRings_raiseOne s code sev p0 p1 p2 p3
  dsimp only
  split <;> split
  · exact (first.trans (keepsRings_raiseOne _ _ _ _ _ _ _)).trans (keepsRings_raiseOne _ _ _ _ _ _ _)
  · exact first.trans (keepsRings_raiseOne _ _ _ _ _ _ _)
  · exact first.trans (keepsRings_raiseOne _ _ _ _ _ _ _)
  · exact first

theorem keepsRings_errorVector_raise (code sev : Nat) (p0 p1 : Word) : KeepsRings s (errorVector (raise s code sev p0 p1)) :=
  (keepsRings_raise s code sev p0 p1 0 0).trans (keepsRings_sendMsix _ _)

end

/-! ### Halts and ends of commands (R348, R350) -/

/-- A change of a ring that leaves one of its fields alone keeps that field of every ring. -/
theorem cmdRing_modRing_field {α : Type} (field : CmdRing → α) {f : CmdRing → CmdRing} (h : ∀ r, field (f r) = field r)
    (n m : Nat) (s : State) : field (cmdRing (modRing n f s) m) = field (cmdRing s m) := by
  by_cases e : m = n
  · subst e
    by_cases hm : m < 16
    · exact (congrArg field (cmdRing_modRing s ⟨m, hm⟩ f)).trans (h _)
    · have out : modRing m f s = s := by simp [modRing, vmod, hm]
      rw [out]
  · rw [cmdRing_modRing_other s n m f e]

section
variable {s : State}

theorem keepsPollRecord_modRing (n : Nat) (f : CmdRing → CmdRing) : KeepsPollRecord s (modRing n f s) := ⟨rfl, rfl, rfl⟩

theorem keepsPollRecord_ringHalt (n cause : Nat) : KeepsPollRecord s (ringHalt n cause s) := by
  unfold ringHalt
  split
  · exact .refl
  · exact (keepsPollRecord_modRing n _).trans (keepsRings_errorVector_raise _ _ _ _ _).toKeepsPollRecord

/-- A halt gives the ring its cause and discards what it has fetched (R350). -/
theorem cmdRing_ringHalt (ring : Fin 16) (cause : Nat) (h : (cmdRing s ring.val).halt = false) :
    cmdRing (ringHalt ring.val cause s) ring.val =
      { cmdRing s ring.val with halt := true, hcause := cause, fetched := [], fetching := none, notOwned := none } := by
  unfold ringHalt
  rw [if_neg (by simp [h])]
  exact ((keepsRings_errorVector_raise _ _ _ _ _).cmdRing ring.val).trans (cmdRing_modRing s ring _)

theorem cmdRing_ringHalt_other (n m cause : Nat) (h : m ≠ n) : cmdRing (ringHalt n cause s) m = cmdRing s m := by
  unfold ringHalt
  split
  · rfl
  · exact ((keepsRings_errorVector_raise _ _ _ _ _).cmdRing m).trans (cmdRing_modRing_other s n m _ h)

/-- A halt takes no time. -/
theorem ringHalt_mono (n cause : Nat) : (ringHalt n cause s).mono = s.mono := by
  unfold ringHalt errorVector
  split
  · rfl
  · dsimp only
    generalize hp : modRing n _ s = p
    obtain ⟨g, r, raised, -⟩ := raise_frame p 0x0600 2 (field 0 n) (field 0 cause) 0 0
    obtain ⟨k, sent⟩ := sendMsix_frame (bits (raise p 0x0600 2 (field 0 n) (field 0 cause)).host.ctl 6 1)
      (raise p 0x0600 2 (field 0 n) (field 0 cause))
    rw [sent, raised, ← hp]
    rfl

theorem keepsPollRecord_outHalt (n : Nat) : KeepsPollRecord s (outHalt n s) := by
  unfold outHalt
  split
  · exact .refl
  · exact (keepsRings_modOut s n _).toKeepsPollRecord.trans (keepsRings_errorVector_raise _ _ _ _ _).toKeepsPollRecord

theorem keepsPollRecord_finish (c : Cmd) (status : Nat) (r0 r1 : Word) : KeepsPollRecord s (finish c status r0 r1 s) := by
  unfold finish
  split <;> exact ⟨rfl, rfl, rfl⟩

theorem cmdRing_finish_other (c : Cmd) (status : Nat) (r0 r1 : Word) {m : Nat} (h : m ≠ c.ring) :
    cmdRing (finish c status r0 r1 s) m = cmdRing s m := by
  unfold finish
  split
  · rfl
  · exact cmdRing_modRing_other _ _ _ _ h

end

/-! ### Turns and fetches (R346, R347) -/

/-- A ring's turn before its header is judged: the descriptor leaves the list, CONS moves on and the command stands at the ring. -/
def turnTaken (n : Nat) (d : Desc) (rest : List Desc) (s : State) : State :=
  let q := modRing n (fun r => { r with fetched := rest, cons := (r.cons + 1) % 65536, cur := some (cmdOf n d) })
    { s with host := { s.host with turn := (n + 1) % 16 } }
  if (cmdOf n d).nocq then q else modOut (cqOf (cmdRing s n)) (fun r => { r with reserved := r.reserved + 1 }) q

section
variable {s : State} {n : Nat} {d : Desc} {rest : List Desc}

/-- Everything that a turn of a ring with a fetched descriptor can do: a halt for its completion ring, an answer at once, or a begun command. -/
theorem takeTurn_cases (h : (cmdRing s n).fetched = d :: rest) :
    (slotState s n d = 0 ∧ takeTurn n s = ringHalt n 4 s) ∨
    (slotState s n d ≠ 0 ∧ opcodeDefined (bits d.w[0] 7 0) = false ∧ takeTurn n s = finish (cmdOf n d) 1 0 0 (turnTaken n d rest s)) ∨
    (slotState s n d ≠ 0 ∧ opcodeDefined (bits d.w[0] 7 0) = true ∧ headerClean d = false ∧
      takeTurn n s = finish (cmdOf n d) 2 0 0 (turnTaken n d rest s)) ∨
    (slotState s n d ≠ 0 ∧ opcodeDefined (bits d.w[0] 7 0) = true ∧ headerClean d = true ∧ takeTurn n s = turnTaken n d rest s) := by
  have opcode : (cmdOf n d).opcode = bits d.w[0] 7 0 := rfl
  unfold takeTurn
  rw [h]
  dsimp only
  rw [opcode]
  by_cases hslot : slotState s n d = 0
  · exact .inl ⟨hslot, if_pos hslot⟩
  · rw [if_neg hslot]
    cases hop : opcodeDefined (bits d.w[0] 7 0)
    · exact .inr (.inl ⟨hslot, rfl, rfl⟩)
    · cases hclean : headerClean d
      · exact .inr (.inr (.inl ⟨hslot, rfl, rfl, rfl⟩))
      · exact .inr (.inr (.inr ⟨hslot, rfl, rfl, rfl⟩))

theorem takeTurn_of_nil (h : (cmdRing s n).fetched = []) : takeTurn n s = s := by
  unfold takeTurn
  rw [h]

theorem keepsPollRecord_turnTaken : KeepsPollRecord s (turnTaken n d rest s) := by
  unfold turnTaken
  dsimp only
  split
  · exact ⟨rfl, rfl, rfl⟩
  · refine .trans ?_ (keepsRings_modOut _ _ _).toKeepsPollRecord
    exact ⟨rfl, rfl, rfl⟩

theorem cmdRing_turnTaken (m : Nat) : cmdRing (turnTaken n d rest s) m =
    cmdRing (modRing n (fun r => { r with fetched := rest, cons := (r.cons + 1) % 65536, cur := some (cmdOf n d) }) s) m := by
  unfold turnTaken
  dsimp only
  split
  · rfl
  · exact (keepsRings_modOut _ _ _).cmdRing m

theorem cmdRing_turnTaken_other {m : Nat} (h : m ≠ n) : cmdRing (turnTaken n d rest s) m = cmdRing s m :=
  (cmdRing_turnTaken m).trans (cmdRing_modRing_other s n m _ h)

end

theorem keepsPollRecord_takeTurn (n : Nat) (s : State) : KeepsPollRecord s (takeTurn n s) := by
  cases hf : (cmdRing s n).fetched with
  | nil => rw [takeTurn_of_nil hf]; exact .refl
  | cons d rest =>
    obtain ⟨-, e⟩ | ⟨-, -, e⟩ | ⟨-, -, -, e⟩ | ⟨-, -, -, e⟩ := takeTurn_cases hf
    · rw [e]; exact keepsPollRecord_ringHalt n 4
    · rw [e]; exact keepsPollRecord_turnTaken.trans (keepsPollRecord_finish _ _ _ _)
    · rw [e]; exact keepsPollRecord_turnTaken.trans (keepsPollRecord_finish _ _ _ _)
    · rw [e]; exact keepsPollRecord_turnTaken

/-- A turn of one ring leaves every other ring alone. -/
theorem cmdRing_takeTurn_other {n m : Nat} (h : m ≠ n) (s : State) : cmdRing (takeTurn n s) m = cmdRing s m := by
  have answered (d : Desc) (rest : List Desc) (status : Nat) :
      cmdRing (finish (cmdOf n d) status 0 0 (turnTaken n d rest s)) m = cmdRing s m :=
    (cmdRing_finish_other (cmdOf n d) status 0 0 h).trans (cmdRing_turnTaken_other h)
  cases hf : (cmdRing s n).fetched with
  | nil => rw [takeTurn_of_nil hf]
  | cons d rest =>
    obtain ⟨-, e⟩ | ⟨-, -, e⟩ | ⟨-, -, -, e⟩ | ⟨-, -, -, e⟩ := takeTurn_cases hf
    · rw [e]; exact cmdRing_ringHalt_other n m 4 h
    · rw [e]; exact answered d rest 1
    · rw [e]; exact answered d rest 2
    · rw [e]; exact cmdRing_turnTaken_other h

/-- A fetch is a request posted and noted at its ring, or nothing. -/
theorem fetchMore_cases (again : Bool) (n : Nat) (s : State) :
    fetchMore again n s = s ∨
    ∃ start count l, fetchMore again n s = modRing n (fun r => { r with fetching := some (start, count) }) (post l s) := by
  unfold fetchMore
  dsimp only
  split
  · exact .inl rfl
  · exact .inr ⟨_, _, _, rfl⟩

theorem keepsPollRecord_fetchMore (again : Bool) (n : Nat) (s : State) : KeepsPollRecord s (fetchMore again n s) := by
  obtain e | ⟨start, count, l, e⟩ := fetchMore_cases again n s
  · rw [e]; exact .refl
  · rw [e]; exact ⟨rfl, rfl, rfl⟩

/-- A fetch leaves every field of every ring alone but the note of the request. -/
theorem cmdRing_fetchMore_field {α : Type} (field : CmdRing → α) (h : ∀ r x, field { r with fetching := x } = field r)
    (again : Bool) (n m : Nat) (s : State) : field (cmdRing (fetchMore again n s) m) = field (cmdRing s m) := by
  obtain e | ⟨start, count, l, e⟩ := fetchMore_cases again n s
  · rw [e]
  · rw [e]; exact cmdRing_modRing_field field (fun r => h r _) n m (post l s)

/-! ### The service of the rings (R347) -/

theorem mem_of_minBy {α : Type} {key : α → Nat} {l : List α} {a : α} (h : minBy key l = some a) : a ∈ l := by
  induction l generalizing a with
  | nil => simp [minBy] at h
  | cons b r ih =>
    unfold minBy at h
    cases hm : minBy key r with
    | none =>
      rw [hm] at h
      cases h
      exact List.mem_cons_self
    | some c =>
      rw [hm] at h
      dsimp only at h
      split at h <;> cases h
      · exact List.mem_cons_of_mem b (ih hm)
      · exact List.mem_cons_self

theorem mayTurn_of_nextRing {s : State} {n : Nat} (h : nextRing s = some n) : mayTurn s n = true :=
  (List.mem_filter.mp (mem_of_minBy h)).2

/-- What the turns of the rings that may take one keep and the fetches keep, the service of the rings keeps. -/
theorem serveRings_keeps (P : State → Prop) (turn : ∀ n q, mayTurn q n = true → P q → P (takeTurn n q))
    (fetch : ∀ n q, P q → P (fetchMore false n q)) {s : State} (hs : P s) : P (serveRings s) := by
  have begins : ∀ fuel q, P q → P (beginLoop fuel q) := by
    intro fuel
    induction fuel with
    | zero => exact fun q hq => hq
    | succ fuel ih =>
      intro q hq
      unfold beginLoop
      split
      · exact hq
      · split
        case h_1 n hn => exact ih _ (turn n q (mayTurn_of_nextRing hn) hq)
        case h_2 => exact hq
  exact forEach_keeps P fetch _ (begins 256 s hs)

theorem keepsPollRecord_serveRings (s : State) : KeepsPollRecord s (serveRings s) :=
  serveRings_keeps (KeepsPollRecord s) (fun n q _ h => h.trans (keepsPollRecord_takeTurn n q))
    (fun n q h => h.trans (keepsPollRecord_fetchMore false n q)) .refl

/-- A ring that has begun a command may not take a turn (R347 rule 2). -/
theorem mayTurn_of_cur {s : State} {n : Nat} (h : (cmdRing s n).cur ≠ none) : mayTurn s n = false := by
  have waits (d : Desc) : orderAllows s n d = false := by
    simp [orderAllows, Option.isNone_eq_false_iff.mpr (Option.isSome_iff_ne_none.mpr h)]
  unfold mayTurn
  split <;> simp [waits]

/-- The list of a ring that has begun a command stays as it is while the rings are served. -/
theorem serveRings_fetched {s : State} {m : Nat} (h : (cmdRing s m).cur ≠ none) :
    (cmdRing (serveRings s) m).fetched = (cmdRing s m).fetched := by
  have kept := serveRings_keeps
    (fun q => (cmdRing q m).cur = (cmdRing s m).cur ∧ (cmdRing q m).fetched = (cmdRing s m).fetched) ?turn ?fetch (s := s) ⟨rfl, rfl⟩
  case turn =>
    intro n q may ⟨hcur, hfetched⟩
    have other : m ≠ n := by
      rintro rfl
      simp [mayTurn_of_cur (hcur ▸ h)] at may
    rw [cmdRing_takeTurn_other other q]
    exact ⟨hcur, hfetched⟩
  case fetch =>
    intro n q ⟨hcur, hfetched⟩
    exact ⟨(cmdRing_fetchMore_field CmdRing.cur (fun _ _ => rfl) false n m q).trans hcur,
      (cmdRing_fetchMore_field CmdRing.fetched (fun _ _ => rfl) false n m q).trans hfetched⟩
  exact kept.2

/-! ### Polls (R343, R344, R358) -/

section
variable {s : State}

theorem keepsPollRecord_takeProd (n p : Nat) (s : State) : KeepsPollRecord s (takeProd n p s) := by
  unfold takeProd
  dsimp only
  split
  · exact .refl
  · split
    · exact keepsPollRecord_ringHalt n 1
    · exact keepsPollRecord_modRing n _

theorem keepsPollRecord_takeCons (n c : Nat) (s : State) : KeepsPollRecord s (takeCons n c s) := by
  unfold takeCons
  dsimp only
  split
  · exact .refl
  · split
    · exact keepsPollRecord_outHalt n
    · exact (keepsRings_modOut s n _).toKeepsPollRecord

theorem keepsPollRecord_issuePoll (s : State) : KeepsPollRecord s (issuePoll s) := ⟨rfl, rfl, rfl⟩

/-- The poll timer waits for its period and sends a poll (R344). -/
theorem doorbellPoll_sends (hp : polls s = true) (ho : s.host.pollOut = false) :
    ∃ due, exec .doorbellPoll s = next (issuePoll (untilMono due s)) ∧
      ∀ t, s.host.lastPoll = some t → due = t + s.host.dbper * 1000 := by
  have run : exec .doorbellPoll s = execDoorbellPoll s := rfl
  rw [run, execDoorbellPoll, if_neg (by simp [hp, ho])]
  exact ⟨_, rfl, fun t ht => by rw [ht]⟩

/-- A nudge sends a poll, or asks the outstanding one for another (R344). -/
theorem rngNudge_polls (hp : polls s = true) (v : Word) :
    exec (.rngNudge v) s =
      next (if s.host.pollOut then { s with host := { s.host with nudged := true } } else issuePoll s) := by
  have run : exec (.rngNudge v) s = next (nudge s) := rfl
  rw [run, nudge, if_neg (by simp [hp])]

/-- A good poll is counted, and its instant is the last good one (R344, R358). -/
def pollCounted (s : State) : State :=
  { s with host := { s.host with
      pollOut := false, ringBytes := (s.host.ringBytes + 512) % 2 ^ 64
      polls := (s.host.polls + 1) % 2 ^ 64, lastGood := s.mono, hostLost := false } }

/-- After the count of a good poll its indices are taken and the rings are served, and none of this touches the count. -/
theorem pollDataArrival_good (ho : s.host.pollOut = true) (d : List Byte) :
    ∃ q, exec (.pollDataArrival true d) s = next q ∧ KeepsPollRecord (pollCounted s) q := by
  have taken : KeepsPollRecord (pollCounted s) _ :=
    (((KeepsPollRecord.refl.forEach (fun n p => keepsPollRecord_takeProd n (bits (wordAt d (8 * n)) 15 0) p) (List.range 16)).forEach
      (fun n p => keepsPollRecord_takeCons n (bits (wordAt d (128 + 8 * n)) 15 0) p) (List.range 16)).trans
      (keepsPollRecord_takeCons 16 (bits (wordAt d 256) 15 0) _))
  have served := (taken.forEach (keepsPollRecord_fetchMore true) (List.range 16)).trans (keepsPollRecord_serveRings _)
  have run : exec (.pollDataArrival true d) s = execPollDataArrival true d s := rfl
  rw [run, execPollDataArrival, if_neg (by simp [ho])]
  exact ⟨_, rfl, iteInduction (motive := KeepsPollRecord (pollCounted s))
    (fun _ => served.trans (keepsPollRecord_issuePoll _)) (fun _ => served)⟩

/-- A poll that fails ends without a count, and waits for the timer when none is asked for and the period has not passed. -/
theorem pollDataArrival_failed (ho : s.host.pollOut = true) (hn : s.host.nudged = false) (hl : s.host.lastPoll = some s.mono)
    (hper : 0 < s.host.dbper) (d : List Byte) :
    exec (.pollDataArrival false d) s = next { s with host := { s.host with pollOut := false } } := by
  have run : exec (.pollDataArrival false d) s = execPollDataArrival false d s := rfl
  have early : ¬ s.mono + s.host.dbper * 1000 ≤ s.mono := by omega
  rw [run, execPollDataArrival, if_neg (by simp [ho])]
  simp [hn, hl, early, ok]

end

theorem polling : Sys2Proof.Claims.Polling := by
  intro s hp
  refine ⟨?timer, ?nudge, ?another, ?failed, ?good⟩
  case timer =>
    intro ho
    obtain ⟨due, run, hdue⟩ := doorbellPoll_sends hp ho
    obtain ⟨f, e⟩ := untilMono_frame due s
    rw [e] at run
    exact ⟨_, run, rfl, rfl, rfl, fun t ht => by rw [← hdue t ht]; rfl⟩
  case nudge =>
    intro v ho
    refine ⟨issuePoll s, ?_, rfl, rfl, rfl⟩
    rw [rngNudge_polls hp v, if_neg (by simp [ho])]
  case another =>
    intro v ho
    rw [rngNudge_polls hp v, if_pos ho]
  case failed => exact fun d ho hn hl hper => pollDataArrival_failed ho hn hl hper d
  case good =>
    intro d ho
    obtain ⟨q, run, kept⟩ := pollDataArrival_good ho d
    exact ⟨q, run, kept.polls, kept.lastGood, kept.hostLost⟩

/-! ### Descriptor fetches (R347, R350) -/

section
variable {s : State} {ring : Fin 16} {start count : Nat}

/-- The descriptors that the host has handed over join the list of a ring that has begun a command (R347). -/
theorem descriptorArrival_joins (hf : (cmdRing s ring.val).fetching = some (start, count)) (hcur : (cmdRing s ring.val).cur ≠ none)
    (d : List Byte) :
    ∃ q, exec (.descriptorArrival ring true d) s = next q ∧ (cmdRing q ring.val).fetched =
      (cmdRing s ring.val).fetched ++ (descsOf start count d).takeWhile (fun x => bit x.w[7] 63) := by
  have run : exec (.descriptorArrival ring true d) s = execDescriptorArrival ring true d s := rfl
  rw [run, execDescriptorArrival, hf]
  dsimp only
  rw [if_neg (by decide)]
  refine ⟨_, rfl, ?_⟩
  rw [serveRings_fetched]
  · rw [cmdRing_modRing]; rfl
  · rw [cmdRing_modRing]; exact hcur

theorem descriptorArrival_fails (hf : (cmdRing s ring.val).fetching = some (start, count)) (d : List Byte) :
    exec (.descriptorArrival ring false d) s = next (ringHalt ring.val 3 s) := by
  have run : exec (.descriptorArrival ring false d) s = execDescriptorArrival ring false d s := rfl
  rw [run, execDescriptorArrival, hf]
  rfl

theorem ownTimeout_halts {t : Nat} (h : (cmdRing s ring.val).notOwned = some t) :
    exec (.ownTimeout ring) s = next (ringHalt ring.val 2 (untilMono (t + 1000000) s)) := by
  have run : exec (.ownTimeout ring) s = execOwnTimeout ring s := rfl
  rw [run, execOwnTimeout, h]
  rfl

theorem cmdRing_untilMono (t n : Nat) : cmdRing (untilMono t s) n = cmdRing s n := by
  obtain ⟨f, e⟩ := untilMono_frame t s
  rw [e]; rfl

theorem untilMono_mono (t : Nat) : (untilMono t s).mono = max s.mono t := by
  obtain ⟨f, e⟩ := untilMono_frame t s
  rw [e]

end

theorem descriptorFetch : Sys2Proof.Claims.DescriptorFetch := by
  intro ring start count d s
  refine ⟨fun hf hcur => descriptorArrival_joins hf hcur d, fun hf hh => ?failed, fun t ht hh => ?unowned⟩
  case failed =>
    refine ⟨_, descriptorArrival_fails hf d, ?_⟩
    rw [cmdRing_ringHalt ring 3 hh]
    exact ⟨rfl, rfl, rfl⟩
  case unowned =>
    refine ⟨_, ownTimeout_halts ht, ?_⟩
    rw [cmdRing_ringHalt ring 2 (by rw [cmdRing_untilMono]; exact hh), ringHalt_mono, untilMono_mono]
    exact ⟨rfl, rfl, rfl⟩

/-- A turn with a clean header and a defined opcode is the case of a begun command. -/
theorem commandsBegin : Sys2Proof.Claims.CommandsBegin := by
  intro ring d rest s hf hslot hop hclean
  obtain ⟨h, -⟩ | ⟨-, h, -⟩ | ⟨-, -, h, -⟩ | ⟨-, -, -, e⟩ := takeTurn_cases hf
  · exact absurd h hslot
  · simp [hop] at h
  · simp [hclean] at h
  · rw [e, cmdRing_turnTaken, cmdRing_modRing]
    exact ⟨rfl, rfl, rfl⟩

/-- Settles O25: what a poll and a nudge send and count, what a fetch brings or halts, and what a ring's turn begins. -/
theorem pollingAndDescriptors : Obligations.PollingAndDescriptors := by
  unfold Obligations.PollingAndDescriptors
  exact ⟨polling, descriptorFetch, commandsBegin⟩

/-! ### The event number at HOST_LOST (R355, R453)

An event is one number more, but the first capture after drops raises REC_LOST besides (R453): there HOST_LOST moves the event number by two.
-/

/-- A capture with room in the buffer has every drop since the last one to report. -/
theorem capture_of_room {s : State} (h : s.recorder.buffer.length < 4096) (e : Event) :
    (capture e s).2 = (s.recorder.lostSince, false) := by
  unfold capture
  rw [if_pos h]

theorem raiseOne_evSeq (code sev : Nat) (p0 p1 p2 p3 : Word) (s : State) :
    (raiseOne code sev p0 p1 p2 p3 s).1.host.evSeq = s.host.evSeq + 1 := by
  obtain ⟨h, r, e, hseq⟩ := raiseOne_frame code sev p0 p1 p2 p3 s
  rw [e]; exact hseq

/-- The first event captured after drops is followed by REC_LOST, so it takes two numbers (R453). -/
theorem raise_evSeq_of_drops {s : State} (hroom : s.recorder.buffer.length < 4096) (hlost : 0 < s.recorder.lostSince)
    (code sev : Nat) (p0 p1 p2 p3 : Word) : (raise s code sev p0 p1 p2 p3).host.evSeq = s.host.evSeq + 2 := by
  have reports : (raiseOne code sev p0 p1 p2 p3 s).2 = (s.recorder.lostSince, false) := by
    unfold raiseOne
    exact capture_of_room (s := { s with host := { s.host with evSeq := s.host.evSeq + 1 } }) hroom _
  unfold raise
  simp only [reports, if_pos hlost, Bool.false_eq_true, if_false, raiseOne_evSeq]

/-- HOST_LOST after drops of the recorder moves the event number by two. -/
theorem hostLost_evSeq_of_drops {s : State} (htmo : bits s.host.ctl 22 7 ≠ 0) (hgood : s.host.hostLost = false)
    (hroom : s.recorder.buffer.length < 4096) (hlost : 0 < s.recorder.lostSince) :
    ∃ q, exec .hostLost s = next q ∧ q.host.evSeq = s.host.evSeq + 2 := by
  have run : exec .hostLost s = execHostLost s := rfl
  rw [run, execHostLost]
  dsimp only
  rw [if_neg (by simp [htmo, hgood])]
  obtain ⟨f, waited⟩ := untilMono_frame (s.host.lastGood + bits s.host.ctl 22 7 * 1000000) s
  rw [waited]
  refine ⟨_, rfl, (raise_evSeq_of_drops ?_ ?_ 0x0004 1 _ 0 0 0).trans rfl⟩
  · exact hroom
  · exact hlost

/-- Refutes O26: with HOSTTMO at 1 ms and one dropped event that REC_LOST has yet to report, HOST_LOST is followed by REC_LOST (R453), and the event number moves by two where the statement says one. -/
theorem not_completionsAndHostEvents : ¬ Obligations.CompletionsAndHostEvents := by
  unfold Obligations.CompletionsAndHostEvents
  rintro ⟨-, -, events⟩
  obtain ⟨s, htmo, hgood, hroom, hlost⟩ : ∃ s : State, bits s.host.ctl 22 7 ≠ 0 ∧ s.host.hostLost = false ∧
      s.recorder.buffer.length < 4096 ∧ 0 < s.recorder.lostSince :=
    ⟨{ State.reset with
        host := { State.reset.host with ctl := 0x80 }, recorder := { State.reset.recorder with lostSince := 1 } },
      by decide, rfl, by decide, Nat.one_pos⟩
  obtain ⟨-, -, lost, -⟩ := events s
  obtain ⟨q, run, -, one, -⟩ := lost htmo hgood
  obtain ⟨p, run', two⟩ := hostLost_evSeq_of_drops htmo hgood hroom hlost
  rw [run] at run'
  cases run'
  rw [one] at two
  omega

end Sys2Proof.RingEngine
